-- ==== Sys2Proof/Word.lean ====
section
/-! DEFINITION. The word types of the FZ9420 and the index types its instances are numbered by
(spec/00_scope.md, R2, R3 and "Naming"). -/

namespace Sys2Proof

/-- One byte. -/
abbrev Byte := BitVec 8
/-- One register (R3). -/
abbrev W32 := BitVec 32
/-- A 48-bit internal address (R13). -/
abbrev Addr := BitVec 48
/-- A BAR0 offset (64 MiB). -/
abbrev Off := BitVec 26
/-- A submission or completion ring entry, a packet slot of 64 bytes, byte 0 in bits [7:0] (R1, R254). -/
abbrev Slot := BitVec 512

/-- Heads H0-H3. -/
abbrev Head := Fin 4
/-- Spots S0-S7. -/
abbrev Spot := Fin 8
/-- Sides: 0 is A, 1 is B. -/
abbrev Side := Fin 2
/-- Layers L0-L15. -/
abbrev Layer := Fin 16
/-- Axes X0-X7. -/
abbrev Axis := Fin 8
/-- Windings A (0) and B (1) of an axis. -/
abbrev Winding := Fin 2
/-- DMA channels 0-31. -/
abbrev Chan := Fin 32
/-- Ring pairs 0-15. -/
abbrev RingId := Fin 16
/-- Control cores C0-C3. -/
abbrev Core := Fin 4
/-- Auxiliary motors A0 and A1. -/
abbrev Aux := Fin 2
/-- Ports and planes A (0) and B (1). -/
abbrev Port := Fin 2
/-- Ensemble device IDs. -/
abbrev DevId := Fin 1024

end Sys2Proof
end

