-- ==== Sys2Proof/Syntax.lean ====
section
/-! DEFINITION. The commands of the FZ9420: one constructor per row of spec/opcode_table.json, with the operands
that the outside (host, cores, peers, pins, converters, medium) presents with it. -/

namespace Sys2Proof

/-- The masters of the internal address map (R13) and the two engines with ports of their own. -/
inductive Master where
  | jtag
  | host
  | core (c : Core)
  | dma (ch : Chan)
  | peer (id : DevId)
  | admitter
  | format
  deriving DecidableEq, Repr

/-- A read, an instruction fetch or a write, with its bytes in ascending address order. -/
inductive AccessOp where
  | read (len : Nat)
  | fetch (len : Nat)
  | write (data : List Byte)
  deriving DecidableEq, Repr

/-- What a responder outside this device answers (host memory, a remote device): R16, R17, R20, R325. -/
inductive FarReply where
  | data (bytes : List Byte)
  | unmapped
  | uncorrectable
  deriving DecidableEq, Repr

/-- What the memories and the outside present with one access: symbols of stored codewords that have changed
(key of the stored symbol, exclusive-or mask), and the far responder's answer. -/
structure AccessEnv where
  upsets : List (Nat × Byte)
  far : FarReply
  deriving DecidableEq, Repr

/-- One claim whose span ends in the slot tested: its engine, its done signal and its slack in cycles (R51, R54). -/
structure ClaimDone where
  engine : Fin 12
  done : Bool
  slack : Nat
  /-- The event of the chain the claim belongs to; none for the sheet itself. -/
  chain : Option (Fin 256)
  deriving DecidableEq, Repr

/-- One cue word as it is read from the cue store (R34, R54), and the event of the chain it belongs to; none for the
sheet. -/
structure CueRead where
  word : BitVec 64
  chain : Option (Fin 256)
  deriving DecidableEq, Repr

/-- Causes of lane loss ("When the lanes from a head fail"). -/
inductive LaneCause where
  | crc
  | syncLock
  | alignment
  deriving DecidableEq, Repr

/-- One servo group: the twelve blocks of eight bytes that each physical lane of a head carries in a beat (R95, R96), and
whether it lies in a multiblock whose CRC-12 is known to have failed when it is presented (R167). -/
structure ServoGroup where
  lanes : List (List (List Byte))
  bad : Bool
  deriving DecidableEq, Repr

/-- The defect criteria of R103. -/
inductive DefectCriterion where
  | dropout | bright | baseline | metric | laneCrc
  deriving DecidableEq, Repr

/-- Why a zone entry is loaded (R107). -/
inductive ZoneTrigger where
  | acquisition | longDefect | divergence | ladder (alt : Bool)
  deriving DecidableEq, Repr

/-- What diverged (R108). -/
inductive DivergeCause where
  | gain | offset | tap | timing | metric
  deriving DecidableEq, Repr

/-- What a place is read for. -/
inductive ReadPurpose where
  | command | verify | idleVerify | mount | opc | calibration
  deriving DecidableEq, Repr

/-- A place of the disc: side, layer and RB number (R80, R89). -/
structure Place where
  side : Side
  layer : Layer
  rb : Fin 166992
  deriving DecidableEq, Repr

/-- The lock flags of R168. -/
inductive LockFlag where
  | focus | tracking | skew
  deriving DecidableEq, Repr

/-- Chopper-fault cases of R201. -/
inductive ChopperCase where
  | openCircuit | ineffective | stuckOn
  deriving DecidableEq, Repr

/-- Bridge faults of R214. -/
inductive BridgeKind where
  | openWinding | shortedWinding
  deriving DecidableEq, Repr

/-- Limit switches of an axis (R225). -/
inductive Switch where
  | inner | outer
  deriving DecidableEq, Repr

/-- Profile parameters of R220. -/
inductive ProfileParam where
  | vmax | accel | decel | jerk
  deriving DecidableEq, Repr

/-- Where a command came from: a host ring or an entry device (R344). -/
inductive CmdSrc where
  | ring (r : RingId)
  | peer (id : DevId)
  deriving DecidableEq, Repr

/-- What a fetch brings: up to two entries, or the cause of the failed host read (R39, R447). -/
inductive FetchResult where
  | entries (es : List Slot)
  | failed (cause : Fin 4)
  deriving DecidableEq, Repr

/-- Whether the far side of a data transfer took it whole (R263, "When lengths and ranges reach their limits"). -/
inductive TransferEnd where
  | complete
  | listShort (atLba : Nat)
  | badEntry (atLba : Nat)
  | noResponse (atLba : Nat)
  /-- A codeword of this LBA in the buffer is uncorrectable (R289). -/
  | bufferFault (atLba : Nat)
  deriving DecidableEq, Repr

/-- A Sceral frame header as far as its checks use it (R324). -/
structure FrameHdr where
  port : Port
  version : BitVec 8
  src : DevId
  dst : BitVec 16
  retx : Bool
  seq : BitVec 32
  ackv : Bool
  ack : BitVec 32
  epoch : BitVec 32
  /-- The frame is untagged, at most 9,216 bytes and its FCS is good (R322). -/
  macOk : Bool
  deriving DecidableEq, Repr

/-- A HEARTBEAT packet's fields (R330). -/
structure HeartbeatPkt where
  port : Port
  src : DevId
  manager : Bool
  doze : Bool
  orphan : Bool
  failover : Bool
  join : Bool
  active : Port
  missA : Fin 16
  missB : Fin 16
  count : BitVec 16
  epoch : BitVec 32
  stateWord : BitVec 32
  discId : BitVec 64
  fwdUse : BitVec 32
  deriving DecidableEq, Repr

/-- One directory record (R341): table 1 member, 2 namespace, 3 extent; index; the entry's bytes. -/
structure DirRecord where
  table : Fin 4
  index : Nat
  entry : List Byte
  deriving DecidableEq, Repr

/-- A DIRECTORY frame's payload (R341). -/
structure DirFrame where
  epoch : BitVec 32
  part : Nat
  last : Bool
  full : Bool
  pull : Bool
  reply : Bool
  records : List DirRecord
  deriving DecidableEq, Repr

/-- PTP messages a member or the manager handles (R353). -/
inductive PtpMsg where
  | sync (t1 t2 : Int)
  | followUp (t1 : Int)
  | delayReq (src : DevId)
  | delayResp (t3 t4 : Int)
  deriving DecidableEq, Repr

/-- Wake sources of R378. -/
inductive WakeSource where
  | clkreq | lpiA | lpiB | gpio | alarm | perst | pfail
  deriving DecidableEq, Repr

/-- What the head answers to a type read (R423). -/
inductive TypeRead where
  | notAcked
  | value (typ typN : Byte)
  deriving DecidableEq, Repr

/-- A configuration request of the host (R393). -/
inductive ConfigReq where
  | readId
  | busMaster (on : Bool)
  | aspm (l12 : Bool)
  deriving DecidableEq, Repr

/-- What a failed host read was issued for (R447, R318). -/
inductive HostReadOf where
  | ring (r : RingId)
  | channel (ch : Chan)
  deriving DecidableEq, Repr

/-- What start-up finds outside the die: installed capacity code (BUF_STAT.INSTALLED), whether the flash answers
SFDP, the four heads' type reads, time to configuration complete in ms (R282, R388, R389, R423). -/
structure BootEnv where
  installed : Fin 3
  flashAnswers : Bool
  heads : List TypeRead
  loadMs : Nat
  deriving DecidableEq, Repr

/-- Result of a full calibration for one head (R245). -/
structure CalHead where
  ok : Bool
  failStep : Fin 4
  /-- Sum of e² in the window of each of the 17 points of the sweeps of FOC, TRK, SKW, RTL, TTL; none where the side skips
  them. -/
  sweeps : Option (List (List Nat))
  deriving DecidableEq, Repr

/-- One more register write that arrives in the same cycle (R21). -/
structure RegWrite where
  m : Master
  off : Off
  be : BitVec 4
  v : W32
  deriving DecidableEq, Repr

/-- THE COMMANDS, in the order of spec/opcode_table.json. -/
inductive Instr where
  | masterAccess (m : Master) (addr : Addr) (op : AccessOp) (env : AccessEnv)
  | registerWrite (m : Master) (off : Off) (be : BitVec 4) (v : W32) (beside : List RegWrite)
  | readClear (m : Master) (off : Off)
  | hiLatchRead (m : Master) (off : Off)
  | reqPerformance (m : Master)
  | reqRehearsal (m : Master)
  | reqGhostLight (m : Master)
  | modeTransition
  | beatBoundary
  | chainEnd (line : Fin 256) (asserted : Bool)
  | glPhaseAdvance
  | actBoundary
  | prompterCheck (slot : Fin 10) (claims : List ClaimDone) (words : List CueRead)
  | coreWfi (c : Core)
  | eventInject (m : Master) (event : BitVec 8)
  | slackClear (m : Master) (n : Fin 12)
  | cueOwnedWrite (m : Master) (off : Off) (v : W32)
  | bankSwap
  | addressWord (h : Head) (wobbles : BitVec 512)
  | wobbleLost (h : Head)
  | bandSlip (h : Head) (phases : List (List (Fin 8)))
  | multiblockReceived (h : Head) (lane : Fin 4) (blocks : List (List Byte)) (crc : BitVec 12)
  | laneLoss (h : Head) (cause : LaneCause) (lane : Fin 4)
  | servoGroup (h : Head) (g : ServoGroup)
  | defectStart (h : Head) (j : Spot) (crit : DefectCriterion)
  | defectEnd (h : Head) (j : Spot)
  | syncWindow (h : Head) (j : Spot)
  | zoneLoad (h : Head) (j : Spot)
  | loopDiverge (h : Head) (j : Spot) (c : DivergeCause)
  | placeReadStart (h : Head) (p : Place) (why : ReadPurpose)
  | progressiveIteration (h : Head)
  | closingIteration (h : Head)
  | outerDecode (h : Head)
  | ladderStep (h : Head)
  | writeGateOpen (h : Head) (p : Place) (badRows faultRows : BitVec 64)
  | writeGateClose (h : Head)
  | clkLockSet (h : Head) (carriers : List (List Int))
  | clkLockLost (h : Head) (carriers : List (List Int))
  | opcRun (h : Head) (outer : Bool)
  | opcResult (h : Head) (levels : List (List (Int × Int))) (ratio : List (BitVec 12))
  | laserFault (h : Head)
  | verifyReadDone (h : Head)
  | idleVerify (h : Head)
  | spareWrite (h : Head) (badRows faultRows : BitVec 64)
  | allocEntryRead (m : Master) (idx : Fin 131072) (hi : Bool)
  | commitRecord (d : Side)
  | commitPassed (d : Side)
  | snapshot (d : Side)
  | holdStart (h : Head)
  | holdEnd (h : Head)
  | offTrack (h : Head)
  | writeHoldAbort (h : Head)
  | lockSet (h : Head) (f : LockFlag)
  | lockClear (h : Head) (f : LockFlag)
  | fineJump (h : Head) (bands : Int)
  | layerJump (h : Head) (target : Layer)
  | bandAcquire (h : Head) (phases : List (List (Fin 8)))
  | seek (h : Head) (layer : Layer) (turn : BitVec 15)
  | seekTimeout (h : Head)
  | headFaultLine (h : Head)
  | reinstate (m : Master) (h : Head) (typ : TypeRead) (cal : CalHead)
  | pwmPeriod (iu iv : Int) (vbus ibrk : Nat)
  | busSample (vbus : Nat)
  | vbusRecover
  | alignEnd
  | handover
  | startTimeout
  | stillTimeout
  | chopperFault (c : ChopperCase)
  | rotorLost
  | gateFault
  | recatchSample (vtu vtv vtw : Nat)
  | recatchResult
  | failsReset
  | clearLockout (m : Master)
  | adcRoundRobin (converter : Fin 4) (v : BitVec 12)
  | hallEdge (a : Aux) (hall : BitVec 3) (cycle : Fin 1250)
  | auxPwmPeriod (a : Aux) (first second : Int)
  | auxStall (a : Aux)
  | auxEnable (m : Master) (a : Aux)
  | auxTarget (m : Master) (v : W32)
  | auxHoldEnd
  | profileTick
  | comparatorTrip (x : Axis) (w : Winding) (cycle : Fin 1250)
  | offTimeEnd (x : Axis) (w : Winding) (cycle : Fin 1250)
  | bridgeFault (x : Axis) (w : Winding) (k : BridgeKind)
  | absoluteMove (m : Master) (x : Axis) (targetN : W32)
  | relativeMove (m : Master) (x : Axis) (v : W32)
  | profileParamWrite (m : Master) (x : Axis) (p : ProfileParam) (v : W32)
  | axisStop (m : Master) (x : Axis)
  | axisHalt (m : Master) (x : Axis)
  | axisHome (m : Master) (x : Axis)
  | axisRelease (m : Master) (x : Axis)
  | axisEnergise (m : Master) (x : Axis) (supply : Bool)
  | limitQualified (x : Axis) (sw : Switch) (level : Bool) (cycle : Fin 1250)
  | homeRangeExceeded (x : Axis)
  | holdDelayEnd (x : Axis)
  | calWindow (h : Head) (j : Spot)
  | ditherAbandon (h : Head)
  | calFull (m : Master)
  | calFullDone (heads : List CalHead)
  | hotReset
  | sqTailDoorbell (m : Master) (r : RingId) (v : W32)
  | cqHeadDoorbell (m : Master) (r : RingId) (v : W32)
  | ringEnable (m : Master) (r : RingId) (v : W32)
  | ringDisable (m : Master) (r : RingId) (v : W32)
  | commandFetch (res : FetchResult)
  | read (src : CmdSrc) (tag : BitVec 16) (xfer : TransferEnd)
  | write (src : CmdSrc) (tag : BitVec 16)
  | verify (src : CmdSrc) (tag : BitVec 16)
  | flush (src : CmdSrc) (tag : BitVec 16)
  | load (src : CmdSrc) (tag : BitVec 16) (cal : List CalHead)
  | unload (src : CmdSrc) (tag : BitVec 16)
  | identifyDevice (src : CmdSrc) (tag : BitVec 16)
  | identifyNamespace (src : CmdSrc) (tag : BitVec 16)
  | getLogDeferred (src : CmdSrc) (tag : BitVec 16)
  | getLogCallBoard (src : CmdSrc) (tag : BitVec 16)
  | getLogDiscard (src : CmdSrc) (tag : BitVec 16)
  | getLogSides (src : CmdSrc) (tag : BitVec 16)
  | setQuietCeiling (src : CmdSrc) (tag : BitVec 16)
  | setNamespace (src : CmdSrc) (tag : BitVec 16)
  | setSideVerify (src : CmdSrc) (tag : BitVec 16)
  | setEventRing (src : CmdSrc) (tag : BitVec 16)
  | setXrdyTimeout (src : CmdSrc) (tag : BitVec 16)
  | getQuietCeiling (src : CmdSrc) (tag : BitVec 16)
  | getNamespace (src : CmdSrc) (tag : BitVec 16)
  | getSideVerify (src : CmdSrc) (tag : BitVec 16)
  | getEventRing (src : CmdSrc) (tag : BitVec 16)
  | getXrdyTimeout (src : CmdSrc) (tag : BitVec 16)
  | setBudget (src : CmdSrc) (tag : BitVec 16)
  | fwStage (src : CmdSrc) (tag : BitVec 16)
  | fwActivate (src : CmdSrc) (tag : BitVec 16)
  | queueReset (src : CmdSrc) (tag : BitVec 16)
  | curtain (src : CmdSrc) (tag : BitVec 16)
  | curtainCommitEnd
  | dataDescriptor (src : CmdSrc) (d : Slot) (data : List Byte) (xfer : TransferEnd)
  | abort (src : CmdSrc) (a : Slot) (lastTransfer : Bool)
  | offerPost (src : CmdSrc) (tag : BitVec 16)
  | offerTimeout (src : CmdSrc) (tag : BitVec 16) (offer : Nat)
  | writeAck (src : CmdSrc) (tag : BitVec 16)
  | interruptSignal (r : RingId)
  | mergeFlush (upsets : List (Nat × Byte))
  | scrubLine (upsets : List (Nat × Byte))
  | retirePage (m : Master) (page : BitVec 21)
  | pageRetired (page : BitVec 21)
  | retireBank (m : Master) (bank : BitVec 5)
  | bankDone
  | wipeEnd
  | cacheFillDone (bank : Fin 4) (upsets : List (Nat × Byte))
  | maintNone (m : Master) (v : W32)
  | maintClean (m : Master) (v : W32)
  | maintInvalidate (m : Master) (v : W32)
  | maintCleanInvalidate (m : Master) (v : W32)
  | maintZeroLine (m : Master) (v : W32)
  | maintDone
  | scDisable (m : Master) (v : W32)
  | scEnable (m : Master) (v : W32)
  | drainEnd
  | dmaStart (m : Master) (ch : Chan) (v : W32) (far : List Byte)
  | dmaStop (m : Master) (ch : Chan)
  | dmaResponse (ch : Chan) (bytes : Nat) (res : FarReply)
  | linkFetchDone (ch : Chan) (image : FarReply) (far : List Byte)
  | linkTimeout (ch : Chan)
  | pacedBurst (ch : Chan) (far : List Byte)
  | packets (f : FrameHdr) (slots : List Slot)
  | readReq (f : FrameHdr) (tag : BitVec 16) (offset : BitVec 36) (len : Nat) (quarter : Fin 4) (upsets : List (Nat × Byte))
  | readResp (f : FrameHdr) (tag : BitVec 16) (data : List Byte)
  | writeReq (f : FrameHdr) (tag : BitVec 16) (offset : BitVec 36) (data : List Byte) (quarter : Fin 4)
  | writeResp (f : FrameHdr) (tag : BitVec 16)
  | nak (f : FrameHdr) (tag : BitVec 16) (err : Byte)
  | directory (f : FrameHdr) (d : DirFrame)
  | heartbeat (hb : HeartbeatPkt)
  | ack (port : Port) (src : DevId) (gap repeated : Bool) (ackSeq expected epoch : BitVec 32)
  | ackTimer (peer : DevId)
  | rtoExpiry (peer : DevId)
  | heartbeatSend
  | heartbeatMissed (port : Port) (sender : DevId)
  | pcsLockLoss (port : Port)
  | linkReturn (port : Port)
  | understudyClean (port : Port)
  | dirCommit (m : Master)
  | dirPullTimeout (member : DevId)
  | take (m : Master)
  | ptpMessage (port : Port) (msg : PtpMsg)
  | ptpSyncSend
  | ptpOfsWrite (m : Master) (v : W32)
  | mdioAddress (m : Master) (v : W32)
  | mdioWrite (m : Master) (v : W32)
  | mdioRead (m : Master) (v : W32)
  | mdioDone (data : BitVec 16)
  | sramScrub (upsets : List (Nat × Byte))
  | clockMonitorTrip (offFrequency : Bool)
  | fltPost (m : Master) (code : BitVec 16)
  | callBoardCopy (readBackOk : Bool)
  | wake (w : WakeSource)
  | pmeTurnOff
  | powerOn
  | perst
  | pfail
  | pfailRelease
  | warm (m : Master)
  | deviceReset (env : BootEnv)
  | pgoodLoss (ddr : Bool)
  | lifecycleRequest (m : Master) (v : W32)
  | thermalCheck (tj : Int) (temps : List Int)
  | thermalClear
  | alarmTick
  | i2cTransfer (m : Master) (h : Head) (v : W32)
  | i2cDone (h : Head) (nacked : Bool) (rx : List Byte)
  | i2cTimeout (h : Head)
  | i2cDataPush (m : Master) (h : Head) (v : W32)
  | i2cDataPop (m : Master) (h : Head)
  | headTypePoll (h : Head) (t : TypeRead)
  | headResetWrite (m : Master) (h : Head) (v : W32)
  | gpioEdge (levels : BitVec 16)
  | gpioCapPop (m : Master)
  | flashRead (m : Master)
  | flashProgram (m : Master)
  | flashErase (m : Master)
  | flashReadFifo (m : Master)
  | flashProgramFifo (m : Master)
  | flashDone (ok : Bool)
  | flashFifoPush (m : Master) (v : W32)
  | flashFifoPop (m : Master)
  | gateFaultClear
  | startRetry (vtu vtv vtw : Nat)
  | perstRelease
  | pgoodReturn (ddr : Bool)
  | crystalStable
  | crystalFail
  | laneLock (h : Head) (locked : BitVec 4)
  | pcieConfigRequest (q : ConfigReq)
  | tapReset
  | completionTimeout (w : HostReadOf)
  | discPresentChange (level : Bool)
  deriving DecidableEq, Repr

end Sys2Proof
end

