-- ==== Sys2Proof/Machine/Bits.lean ====
section
/-! DEFINITION. Helpers every later file uses: sparse stores in canonical form, fields of a register word, bytes and
words, saturating counts, and the integer clamp. -/

namespace Sys2Proof.Machine

/-! ### Sparse stores: a list of (key, value) with strictly rising keys -/

/-- What a store holds at a key. -/
def sfind {α : Type} : List (Nat × α) → Nat → Option α
  | [], _ => none
  | (k, v) :: m, a => if k = a then some v else sfind m a

/-- Put a value at a key, keeping the keys strictly rising. -/
def sput {α : Type} : List (Nat × α) → Nat → α → List (Nat × α)
  | [], a, x => [(a, x)]
  | (k, v) :: m, a, x =>
    if a < k then (a, x) :: (k, v) :: m
    else if k = a then (a, x) :: m
    else (k, v) :: sput m a x

/-- Take a key out of a store. -/
def sdel {α : Type} (m : List (Nat × α)) (a : Nat) : List (Nat × α) := m.filter fun e => e.1 != a

/-- What a store whose unlisted keys read as `d` holds at a key. -/
def sget {α : Type} (m : List (Nat × α)) (d : α) (a : Nat) : α := (sfind m a).getD d

/-- Write to a store whose key `a` reads as `d` when unlisted: writing `d` removes the entry. -/
def sset {α : Type} [DecidableEq α] (m : List (Nat × α)) (d : α) (a : Nat) (x : α) : List (Nat × α) :=
  if x = d then sdel m a else sput m a x

/-- The keys of a store rise strictly from `lo` on. -/
def rising {α : Type} : Nat → List (Nat × α) → Bool
  | _, [] => true
  | lo, (k, _) :: m => decide (lo ≤ k) && rising (k + 1) m

/-- No entry of the store equals what its key reads as when unlisted. -/
def listed {α : Type} [DecidableEq α] (d : Nat → α) (m : List (Nat × α)) : Bool :=
  m.all fun e => decide (e.2 ≠ d e.1)

/-! ### Fields of a register -/

/-- Field of `w` bits whose lowest bit is `lo`, as a number (R2). -/
def fget (v : W32) (lo w : Nat) : Nat := (v >>> lo).toNat % 2 ^ w

/-- The mask of a field. -/
def fmask (lo w : Nat) : W32 := BitVec.ofNat 32 (2 ^ w - 1) <<< lo

/-- The register with that field set to `x` (the low `w` bits of `x`). -/
def fset (v : W32) (lo w x : Nat) : W32 :=
  (v &&& ~~~ fmask lo w) ||| (BitVec.ofNat 32 (x % 2 ^ w) <<< lo)

/-- A field read as two's complement. -/
def sgn (w x : Nat) : Int := if 2 * x < 2 ^ w then (x : Int) else (x : Int) - 2 ^ w

/-- Two's complement of an integer in `w` bits. -/
def uns (w : Nat) (x : Int) : Nat := (x % 2 ^ w).toNat

/-- A count of `w` bits raised by `n` and saturating. -/
def satAdd (w a n : Nat) : Nat := min (a + n) (2 ^ w - 1)

/-- Clamp to [lo, hi]. -/
def clampI (lo hi x : Int) : Int := if x < lo then lo else if hi < x then hi else x

/-- A complement pair of n bits matches (R355). -/
def pairOk (n v vn : Nat) : Bool := (v ^^^ vn) == 2 ^ n - 1

/-- The complement of the low n bits of v. -/
def compl (n v : Nat) : Nat := 2 ^ n - 1 - v % 2 ^ n

/-- Bytes of a number, least significant first (R1). -/
def leBytes : Nat → Nat → List Byte
  | 0, _ => []
  | n + 1, v => BitVec.ofNat 8 v :: leBytes n (v / 256)

/-- The number that bytes in ascending address order spell. -/
def leNat : List Byte → Nat
  | [] => 0
  | b :: bs => b.toNat + 256 * leNat bs

/-- Bytes of a number, most significant first. -/
def beBytes (n v : Nat) : List Byte := (leBytes n v).reverse

/-- The number that bytes in big-endian order spell. -/
def beNat (bs : List Byte) : Nat := leNat bs.reverse

/-- Bits `lo` upward of a packet slot: `n` bits. -/
def slotBits (p : Slot) (lo n : Nat) : Nat := (p.toNat / 2 ^ lo) % 2 ^ n

/-- The field of `n` bytes at byte offset `o` of a packet slot (R254). -/
def slotField (p : Slot) (o n : Nat) : Nat := slotBits p (8 * o) (8 * n)

/-- Bit i of a number. -/
def nbit (v i : Nat) : Bool := v.testBit i

/-- 1 for true. -/
def b2n (b : Bool) : Nat := if b then 1 else 0

/-- Round a quotient of integers half away from zero. -/
def divRound (a : Int) (b : Nat) : Int :=
  if 0 ≤ a then (2 * a + b) / (2 * b) else -((2 * (-a) + b) / (2 * b))

/-- Update one place of a vector. -/
def vmod {α : Type} {n : Nat} (v : Vector α n) (i : Fin n) (f : α → α) : Vector α n := v.set i (f v[i])

/-- Chop a list into pieces of `n`, at most `fuel` of them. -/
def chunks {α : Type} (n : Nat) : Nat → List α → List (List α)
  | 0, _ => []
  | fuel + 1, l => if l.isEmpty then [] else l.take n :: chunks n fuel (l.drop n)

end Sys2Proof.Machine
end

