-- ==== Sys2Proof/Machine/Codes.lean ====
section
/-! DEFINITION. The codes of the FZ9420: CRC-8 of cue words (R34), CRC-16 of address words (R72), the CRC-64 of guard
tags (R359), the field and Reed-Solomon codes of R84 as R284 and R83 use them, modulation decoding of headers (R76),
and turn(p) of R73 in binary64 arithmetic. -/

namespace Sys2Proof.Machine

/-! ### Cyclic redundancy checks -/

/-- One bit enters a w-bit CRC register whose polynomial is `poly`. -/
def crcBit (w poly reg : Nat) (b : Bool) : Nat :=
  let out := (reg / 2 ^ (w - 1)) % 2 == 1
  let r := (reg * 2) % 2 ^ w
  if out != b then r ^^^ poly else r

/-- The bits n-1 down to 0 of v enter, most significant first. -/
def crcBits (w poly : Nat) : Nat → Nat → Nat → Nat
  | 0, _, reg => reg
  | n + 1, v, reg => crcBits w poly n v (crcBit w poly reg (v.testBit n))

/-- CRC-8 of a cue word's bits 55:0 (R34). -/
def cueCheck (v : BitVec 64) : Nat := crcBits 8 0x07 56 (v.toNat % 2 ^ 56) 0

/-- CRC-16 over address bits 62:16 in recorded order (R72). -/
def addressCheck (v : BitVec 63) : Nat := crcBits 16 0x1021 47 (v.toNat / 2 ^ 16) 0xFFFF

/-- The CRC-64 of R359. -/
def crc64 (bs : List Byte) : Nat :=
  (bs.foldl (fun r b => crcBits 64 0x42F0_E1EB_A9EA_3693 8 b.toNat r) 0xFFFF_FFFF_FFFF_FFFF) ^^^ 0xFFFF_FFFF_FFFF_FFFF

/-! ### GF(2^8) (R84) -/

/-- Multiplication by the primitive element. -/
def gx (a : Nat) : Nat := if a < 128 then 2 * a else (2 * a) ^^^ 0x11D

/-- Multiplication. -/
def gmulAux : Nat → Nat → Nat → Nat
  | 0, _, _ => 0
  | n + 1, a, b => (if b % 2 == 1 then a else 0) ^^^ gmulAux n (gx a) (b / 2)

def gmul (a b : Nat) : Nat := gmulAux 8 a b

/-- The power α^i. -/
def galpha : Nat → Nat
  | 0 => 1
  | n + 1 => gx (galpha n)

def gpow (a : Nat) : Nat → Nat
  | 0 => 1
  | n + 1 => gmul a (gpow a n)

/-- The inverse: a^254. -/
def ginv (a : Nat) : Nat :=
  let a2 := gmul a a; let a4 := gmul a2 a2; let a8 := gmul a4 a4; let a16 := gmul a8 a8
  let a32 := gmul a16 a16; let a64 := gmul a32 a32; let a128 := gmul a64 a64
  gmul a128 (gmul a64 (gmul a32 (gmul a16 (gmul a8 (gmul a4 a2)))))

/-- Syndrome i of a word whose first symbol is the highest coefficient, by Horner's rule. -/
def syndrome (sy : List Nat) (i : Nat) : Nat := sy.foldl (fun acc c => gmul acc (galpha i) ^^^ c) 0

/-- The two check symbols of RS(10,8) for eight data bytes (R284). -/
def rsEncode8 (d : List Nat) : List Nat :=
  let s0 := syndrome (d ++ [0, 0]) 0
  let s1 := syndrome (d ++ [0, 0]) 1
  let c8 := gmul (s0 ^^^ s1) (ginv 3)
  [c8, s0 ^^^ c8]

/-- What decoding a codeword finds (R285). -/
inductive EccResult where
  | clean (data : List Nat)
  | corrected (data : List Nat) (symbol : Nat) (s0 s1 : Nat)
  | uncorrectable (s0 s1 : Nat)
  deriving DecidableEq, Repr

/-- Decode RS(10,8): the ten symbols, symbol 0 first (R285). -/
def rsDecode8 (sy : List Nat) : EccResult :=
  let s0 := syndrome sy 0
  let s1 := syndrome sy 1
  if s0 = 0 ∧ s1 = 0 then .clean (sy.take 8)
  else match (List.range 10).find? fun i => s0 != 0 && gmul s0 (galpha (9 - i)) == s1 with
    | some i => .corrected ((sy.set i (sy.getD i 0 ^^^ s0)).take 8) i s0 s1
    | none => .uncorrectable s0 s1

/-- Do the values of the four syndromes fit errors e, f at positions i, j of twelve? -/
def rs12Fits (s : List Nat) (i e j f : Nat) : Bool :=
  (List.range 4).all fun k =>
    gmul e (gpow (galpha (11 - i)) k) ^^^ gmul f (gpow (galpha (11 - j)) k) == s.getD k 0

/-- Solve for the two error values at positions i < j from syndromes 0 and 1. -/
def rs12Solve (s : List Nat) (i j : Nat) : Nat × Nat :=
  let xi := galpha (11 - i); let xj := galpha (11 - j)
  let s0 := s.getD 0 0; let s1 := s.getD 1 0
  let f := gmul (s1 ^^^ gmul s0 xi) (ginv (xi ^^^ xj))
  (s0 ^^^ f, f)

/-- Decode the RS(12,8) header: up to two byte errors are corrected; none when it fails to decode (R83). -/
def headerDecode (bs : List Nat) : Option (List Nat) :=
  let s := (List.range 4).map (syndrome bs)
  if s.all (· == 0) then some (bs.take 8)
  else
    let pairs := (List.range 12).flatMap fun j => (List.range j).map fun i => (i, j)
    match pairs.find? fun p => let ef := rs12Solve s p.1 p.2; rs12Fits s p.1 ef.1 p.2 ef.2 with
    | some (i, j) =>
      let ef := rs12Solve s i j
      let b1 := bs.set i (bs.getD i 0 ^^^ ef.1)
      some ((b1.set j (b1.getD j 0 ^^^ ef.2)).take 8)
    | none => none

/-! ### Positive binary64 numbers: value m * 2^e (R73) -/

structure F64 where
  m : Nat
  e : Int
  deriving DecidableEq, Repr

/-- Round the positive rational n/d to 53 bits, ties to even; `sticky` says that a smaller part was dropped. -/
def f64Round (n d : Nat) (e : Int) : F64 :=
  if n = 0 then ⟨0, 0⟩ else
  -- scale so that the quotient has at least 55 bits
  let up : Nat := 56 + d.log2 - n.log2
  let q := n * 2 ^ up / d
  let st := if n * 2 ^ up % d = 0 then 0 else 1
  let e1 := e - up
  let drop := q.log2 - 52
  let low := q % 2 ^ drop
  let m := q / 2 ^ drop
  let half := 2 ^ drop / 2
  let m := if half < low ∨ (low = half ∧ (st = 1 ∨ m % 2 = 1)) then m + 1 else m
  ⟨m, e1 + drop⟩

def f64Nat (n : Nat) : F64 := f64Round n 1 0
def f64Mul (a b : F64) : F64 := f64Round (a.m * b.m) 1 (a.e + b.e)
def f64Div (a b : F64) : F64 := f64Round a.m b.m (a.e - b.e)
def f64Add (a b : F64) : F64 :=
  let e := min a.e b.e
  f64Round (a.m * 2 ^ (a.e - e).toNat + b.m * 2 ^ (b.e - e).toNat) 1 e
/-- a - b for a ≥ b. -/
def f64Sub (a b : F64) : F64 :=
  let e := min a.e b.e
  f64Round (a.m * 2 ^ (a.e - e).toNat - b.m * 2 ^ (b.e - e).toNat) 1 e

/-- Integer square root, bit by bit from bit n - 1. -/
def isqrt : Nat → Nat → Nat → Nat
  | 0, _, r => r
  | n + 1, v, r => if (r + 2 ^ n) * (r + 2 ^ n) ≤ v then isqrt n v (r + 2 ^ n) else isqrt n v r

def f64Sqrt (a : F64) : F64 :=
  let k : Nat := if (a.e - 60) % 2 = 0 then 60 else 61
  let v := a.m * 2 ^ k
  let e := a.e - k
  let r := isqrt 60 v 0
  -- one more bit stands for the dropped remainder
  f64Round (2 * r + (if r * r = v then 0 else 1)) 1 (e / 2 - 1)

def f64Floor (a : F64) : Nat := if 0 ≤ a.e then a.m * 2 ^ a.e.toNat else a.m / 2 ^ (-a.e).toNat

/-- The argument of floor in turn(p) of R73, in binary64 in the order written. -/
def turnExact (p : Nat) : F64 :=
  let c192 := f64Round 192 100000 0
  let c3136 := f64Round 3136 1000000 0
  let pi : F64 := ⟨0x1921FB54442D18, -51⟩
  let x := f64Div (f64Mul (f64Mul c192 c3136) (f64Nat p)) pi
  f64Div (f64Sub (f64Sqrt (f64Add (f64Nat 484) x)) (f64Nat 22)) c192

/-- turn(p) of R73. -/
def turnOf (p : Nat) : Nat := f64Floor (turnExact p)

/-- Band-turns from band-turn 0 to a position, in 1/65,536 turn. -/
def turnFine (p : Nat) : Nat := let t := turnExact p; f64Floor ⟨t.m, t.e + 16⟩

end Sys2Proof.Machine
end

