-- ==== Sys2Proof/Config.lean ====
section
/-! DEFINITION. The free values: constants without a body, about which nothing can be proved. -/

namespace Sys2Proof

/-- The n-th free value drawn by a run: what the spec leaves open (notes/assumptions/2.md). -/
opaque Config.freeValue : Nat → Nat

/-- Which neighbour an inexact quotient num / den is rounded to where the spec states no rounding: an even value means
down, an odd one up (notes/assumptions/3.md). -/
opaque Config.roundBit : Int → Nat → Nat

/-- The quotient num / 0, where the spec states no result (notes/assumptions/3.md). -/
opaque Config.divZero : Int → Int

/-- What a value outside its number format becomes, where the spec states no result: format width and value
(notes/assumptions/3.md). -/
opaque Config.overflow : Nat → Int → Int

/-- Fraction bits of the servo sections' 40-bit arithmetic (R158; notes/assumptions/3.md). -/
opaque Config.servoFrac : Nat

/-- The CRC-12 of a multiblock's bytes in the sync-header stream (R94): the spec names the mode, not the polynomial
(notes/assumptions/68.md). -/
opaque Config.laneCrc : List Byte → BitVec 12

/-- The 8-tap interpolator at a phase in 1/64 bit over the eight newest samples (R99): its coefficients are not stated
(notes/assumptions/69.md). -/
opaque Config.interpolate : Nat → List Int → Int

/-- The magnitude of a channel-bit reliability for a difference of path metrics (R101; notes/assumptions/69.md). -/
opaque Config.metricScale : Nat → Nat

/-- The normalisation of the min-sum's magnitudes (R114; notes/assumptions/69.md). -/
opaque Config.minSumScale : Nat → Nat

/-- The power, in 10 µW, that the sum of a beat's laser forward monitor samples stands for (R134; notes/assumptions/77.md). -/
opaque Config.monitorPower : Int → Nat

/-- The s1.14 error that a distance in nm makes, on focus (0) or tracking (1) (R118; notes/assumptions/77.md). -/
opaque Config.nmError : Nat → Int → Int

/-- The temperature, in 1/1,000 °C, that the sum of a beat's AFE temperature samples stands for (R96, R131;
notes/assumptions/77.md). -/
opaque Config.afeTemperature : Int → Int

/-- Whether more PEAK makes the mark-formation ratio larger (R133; notes/assumptions/74.md). -/
opaque Config.ratioRises : Bool

/-- The code of an ADC channel for the quantity at it (mA, or 10 mV): the image declares the ratios (R183;
notes/assumptions/81.md). -/
opaque Config.adcCode : Nat → Int → Nat

/-- The speed in rpm of an auxiliary motor whose step lasted that many cycles: the spec gives no pole pairs (R207;
notes/assumptions/81.md). -/
opaque Config.auxRpm : Nat → Nat → Nat

end Sys2Proof
end

