-- ==== Sys2Proof/Machine/RegMap.lean ====
section
/-! DEFINITION. The register map: every register's offset, class, access masks and reset value, from the register
tables of the chapters and the index R419-R426. Offsets are BAR0 offsets. A bit in no mask is RO or reserved (R4). -/

namespace Sys2Proof.Machine

/-- Register classes (R10-R12). -/
inductive RegClass where
  | live | staged | cueOwned
  deriving DecidableEq, Repr

/-- One register or one array of registers: base offset, (stride, count) of each index with the largest stride first,
class, reset value, and the masks of its RW, W1C, WO and RC bits (R7). -/
structure RegRow where
  base : Nat
  dims : List (Nat × Nat)
  cls : RegClass
  reset : Nat
  rw : Nat
  w1c : Nat
  wo : Nat
  rc : Nat
  deriving DecidableEq, Repr

/-- Does the offset, taken from the row's base, name one of the row's registers? -/
def inDims : List (Nat × Nat) → Nat → Bool
  | [], r => r == 0
  | (st, n) :: ds, r => decide (r < st * n) && inDims ds (r % st)

/-- A row of live registers. -/
def lv (base : Nat) (dims : List (Nat × Nat)) (reset rw : Nat) (w1c wo rc : Nat := 0) : RegRow :=
  ⟨base, dims, .live, reset, rw, w1c, wo, rc⟩

/-- A row of staged registers. -/
def sg (base : Nat) (dims : List (Nat × Nat)) (reset rw : Nat) (w1c wo rc : Nat := 0) : RegRow :=
  ⟨base, dims, .staged, reset, rw, w1c, wo, rc⟩

/-- A row of cue-owned registers. -/
def co (base : Nat) (dims : List (Nat × Nat)) (reset rw : Nat) : RegRow :=
  ⟨base, dims, .cueOwned, reset, rw, 0, 0, 0⟩

/-- TOP (R24, R398, R420, R424). -/
def topRows : List RegRow := [
  lv 0x00 [] 0x9420_1D9A 0,                                   -- TOP_ID, default identity
  lv 0x04 [] 0xA1 0,                                          -- TOP_STEPPING
  lv 0x08 [] 0 0,                                             -- TOP_SUBSYS
  lv 0x10 [] 0 0 (w1c := 0x1_0200) (wo := 0x30),              -- TOP_MODE
  lv 0x14 [] 0 0 (w1c := 0x20) (wo := 0xF_0000),              -- TOP_LIFECYCLE
  lv 0x18 [(4, 2)] 0 0,                                       -- TOP_SERIAL_LO, _HI
  lv 0x100 [(0x10, 4)] 3 1,                                   -- TOP_Cn_CTL
  sg 0x104 [(0x10, 4)] 0 0xFFFF_FFFF,                         -- TOP_Cn_ENTRY_LO
  sg 0x108 [(0x10, 4)] 0 0xFFFF,                              -- TOP_Cn_ENTRY_HI
  lv 0x10C [(0x10, 4)] 0 0,                                   -- TOP_Cn_STAT
  lv 0x200 [] 0 0,                                            -- TOP_GPIO_IN
  lv 0x204 [(4, 2)] 0 0xFFFF,                                 -- TOP_GPIO_OUT, _DIR
  sg 0x20C [] 0 0xFFFF_FFFF,                                  -- TOP_GPIO_CAP_CFG
  lv 0x210 [] 0 0,                                            -- TOP_GPIO_CAP, popped by a read
  lv 0x300 [(0x20, 4)] 0x8_00F0 0xF_FFFE (wo := 1),           -- TOP_Hn_I2C_CTL
  lv 0x304 [(0x20, 4)] 0 0 (w1c := 0x1E),                     -- TOP_Hn_I2C_STAT
  lv 0x308 [(0x20, 4)] 0 0,                                   -- TOP_Hn_I2C_DATA, a FIFO port
  lv 0x30C [(0x20, 4)] 1 1]                                   -- TOP_Hn_LINES

/-- CUE (02_cue_sheet.md). -/
def cueRows : List RegRow := [
  lv 0x10_0000 [] 0 0,                                        -- CUE_STATUS
  lv 0x10_0004 [] 0 0,                                        -- CUE_POS
  lv 0x10_0008 [(4, 2)] 0 0,                                  -- CUE_ACT_LO, _HI
  lv 0x10_0010 [] 0 0,                                        -- CUE_FAULT_POS
  lv 0x10_0014 [] 0xFF00_0000 0 (w1c := 0x1_0000),            -- CUE_FAULT_WHAT
  lv 0x10_0020 [(4, 8)] 0 0,                                  -- CUE_EVENT_PEND0-7
  lv 0x10_0040 [] 0 0 (w1c := 0x200) (wo := 0x1FF),           -- CUE_EVENT_INJECT
  lv 0x10_0044 [] 0 0 (rc := 0xFFFF),                         -- CUE_OWNED_HIT
  lv 0x10_0048 [] 0 0,                                        -- CUE_OWNED_ADDR
  lv 0x10_004C [] 0 0 (w1c := 0x8000_0000),                   -- CUE_PARAM_REJECT
  lv 0x10_0050 [(4, 3)] 0 0,                                  -- CUE_IMAGE_BUILD_LO, _HI, CUE_IMAGE_VER
  lv 0x10_0060 [(4, 12)] 0x7FF 0 (wo := 0x8000_0000),         -- CUE_En_SLACK
  sg 0x10_00A0 [] 2048 0xFF_FFFF (w1c := 0x8000_0000),        -- CUE_BUD_CMD
  sg 0x10_00A4 [] 512 0xFF_FFFF (w1c := 0x8000_0000),         -- CUE_BUD_XRDY, 32 MiB
  sg 0x10_00A8 [] 576 0xFF_FFFF (w1c := 0x8000_0000),         -- CUE_BUD_HIN, 36 MiB
  sg 0x10_00AC [] 576 0xFF_FFFF (w1c := 0x8000_0000),         -- CUE_BUD_HOUT, 36 MiB
  sg 0x10_00B0 [] 208 0xFF_FFFF (w1c := 0x8000_0000),         -- CUE_BUD_FWD, 13 MiB
  sg 0x10_00B4 [] 256 0xFF_FFFF (w1c := 0x8000_0000),         -- CUE_BUD_FWDMA, 16 MiB
  sg 0x10_00B8 [] 224 0xFF_FFFF (w1c := 0x8000_0000),         -- CUE_BUD_LDPC, 14,336 decoder-slots
  lv 0x10_00C0 [(4, 7)] 0 0]                                  -- CUE_USED_CMD ... CUE_USED_LDPC

/-- FLT (R373). -/
def fltRows : List RegRow := [
  lv 0xE0_0000 [] 0 0,                                        -- FLT_BOARD_STAT
  lv 0xE0_0008 [] 0 0 (w1c := 0x80) (rc := 0xFF_FF00),        -- FLT_MISMATCH
  lv 0xE0_000C [] 0 0,                                        -- FLT_MISMATCH_ADDR
  lv 0xE0_0010 [] 0 0 (rc := 0xFFFF_FFFF),                    -- FLT_SRAM_STAT
  lv 0xE0_0014 [] 0 0 (w1c := 4) (rc := 0xFFFF_0000),         -- FLT_COPY_STAT
  lv 0xE0_0020 [(4, 8)] 0 0xFFFF_FFFF,                        -- FLT_POST_DATAd_LO, _HI
  lv 0xE0_0040 [] 0 0 (w1c := 0x1_0000) (wo := 0xFFFF),       -- FLT_POST
  lv 0xE0_0104 [(4, 30)] 0 0 (rc := 0xFFFF),                  -- FLT_GCNTc
  lv 0xE0_0400 [(4, 256)] 0 0 (rc := 0xFFFF)]                 -- FLT_EVCNTk

/-- CFG (R421). -/
def cfgRows : List RegRow := [
  lv 0x100_0000 [] 0 0 (w1c := 4),                            -- CFG_STAT
  lv 0x100_0004 [] 0 0xFF (wo := 0x8000_0000),                -- CFG_FLASH_CMD
  lv 0x100_0008 [] 0 0x3FF_FFFF,                              -- CFG_FLASH_ADDR
  lv 0x100_000C [] 0 0x1FFF,                                  -- CFG_FLASH_LEN
  lv 0x100_0010 [] 0 0 (w1c := 6),                            -- CFG_FLASH_STAT
  lv 0x100_0018 [] 0 0,                                       -- CFG_FLASH_FIFO, a FIFO port
  lv 0x100_001C [] 0 0,                                       -- CFG_FLASH_FIFO_STAT, computed at the read
  lv 0x100_0020 [] 0 0x7FF_FFFF]                              -- CFG_FLASH_SLEN

/-- BUF (R296). -/
def bufRows : List RegRow := [
  lv 0xA0_0000 [] 0x20_0004 0,                                -- BUF_STAT: WIPING 1, NB 32
  sg 0xA0_0004 [] 40233 0xFFFF,                               -- BUF_SCRUB_CFG
  lv 0xA0_0008 [(4, 1)] 0 0,                                  -- BUF_SCRUB_POS
  lv 0xA0_000C [] 0 0 (rc := 0xFFFF_FFFF),                    -- BUF_COUNTS
  lv 0xA0_0010 [(4, 2)] 0 0,                                  -- BUF_LAST_ADDR_LO, _HI
  lv 0xA0_0018 [] 0xF000_0000 0,                              -- BUF_LAST_WHERE
  lv 0xA0_001C [] 0 0,                                        -- BUF_LAST_KIND
  lv 0xA0_0020 [] 0 0 (wo := 0x1F_FFFF),                      -- BUF_RETIRE_PAGE
  lv 0xA0_0024 [] 0 0 (wo := 0x1F),                           -- BUF_RETIRE_BANK
  lv 0xA0_0028 [] 0 0 (w1c := 0x2_0800),                      -- BUF_RETIRE_STAT
  sg 0xA0_002C [(4, 2)] 0 0x1F_FFFF,                          -- BUF_FW_REGION_BASE, _SIZE
  lv 0xA0_0080 [(4, 32)] 0 0 (rc := 0xFF_FFFF),               -- BUF_BANKb_ERR
  lv 0xA0_1000 [(4, 1024)] 0 0]                               -- BUF_PAGELISTi

/-- SC (R320). -/
def scRows : List RegRow := [
  lv 0xB0_0000 [] 0 3,                                        -- SC_CTL
  lv 0xB0_0004 [] 0 0 (w1c := 0x8_0000),                      -- SC_STAT
  lv 0xB0_0008 [] 0 0x1F_FFFF (wo := 0x8000_0000),            -- SC_MAINT
  lv 0xB0_000C [] 0 0xFFFF_FFFF,                              -- SC_MAINT_ADDR_LO
  lv 0xB0_0010 [] 0 0xFFFF,                                   -- SC_MAINT_ADDR_HI
  lv 0xB0_0014 [] 0 0 (w1c := 6),                             -- SC_MAINT_STAT
  sg 0xB0_0018 [] 0x1034 0xFF7F,                              -- SC_PF_CFG
  lv 0xB0_001C [(4, 2)] 0 0 (rc := 0xFFFF_FFFF)]              -- SC_HIT_CNT, SC_MISS_CNT

/-- DMA (R321). -/
def dmaRows : List RegRow := [
  lv 0xC0_0000 [(0x40, 32)] 0 0xFFFF_FFFF,                    -- DMA_CHn_SRC_LO
  lv 0xC0_0004 [(0x40, 32)] 0 0xFFFF,                         -- DMA_CHn_SRC_HI
  lv 0xC0_0008 [(0x40, 32)] 0 0xFFFF_FFFF,                    -- DMA_CHn_DST_LO
  lv 0xC0_000C [(0x40, 32)] 0 0xFFFF,                         -- DMA_CHn_DST_HI
  lv 0xC0_0010 [(0x40, 32)] 0 0xFFFF_FFFF,                    -- DMA_CHn_COUNT
  lv 0xC0_0014 [(0x40, 32)] 0xC0 0xFF_FFFC (wo := 3),         -- DMA_CHn_CTL
  lv 0xC0_0018 [(0x40, 32)] 0 0 (w1c := 0x486),               -- DMA_CHn_STAT
  lv 0xC0_001C [(0x40, 32)] 0 0xFFFF_FFFF,                    -- DMA_CHn_LINK_LO
  lv 0xC0_0020 [(0x40, 32)] 0 0xFFFF,                         -- DMA_CHn_LINK_HI
  lv 0xC0_0024 [(0x40, 32)] 4096 0xFFFF,                      -- DMA_CHn_HOPS
  lv 0xC0_0028 [(0x40, 32), (4, 2)] 0 0,                      -- DMA_CHn_MOVED_LO, _HI
  sg 0xC0_1000 [] 0xAA_5555 0xFFFF_FFFF,                      -- DMA_OWNER0, the reference image's owners
  sg 0xC0_1004 [] 0 0xFFFF_FFFF,                              -- DMA_OWNER1
  lv 0xC0_1008 [] 0 0]                                        -- DMA_IRQ

/-- FMT (R92, R93). -/
def fmtRows : List RegRow := [
  lv 0x20_0100 [(0x10, 4), (4, 2)] 0 0,                       -- FMT_Hn_WADDR_LO, _HI
  lv 0x20_0108 [(0x10, 4)] 0x200 0 (w1c := 0x500) (rc := 0xFF)] -- FMT_Hn_WSTAT: LOST 1

/-- RCH (R122). -/
def rchRows : List RegRow := [
  lv 0x30_0000 [(0x2_0000, 4), (0x1000, 8)] 0 0 (w1c := 0xE0), -- RCH_Sj_STAT
  lv 0x30_0004 [(0x2_0000, 4), (0x1000, 8)] 0x4000 0,         -- RCH_Sj_GAIN
  lv 0x30_0008 [(0x2_0000, 4), (0x1000, 8), (4, 2)] 0 0,      -- RCH_Sj_BASE, _TIMING
  lv 0x30_002C [(0x2_0000, 4), (0x1000, 8)] 0x400 0,          -- RCH_Sj_EQ_TAP7
  lv 0x30_0010 [(0x2_0000, 4), (0x1000, 8), (4, 15)] 0 0,     -- RCH_Sj_EQ_TAP0-14
  lv 0x30_004C [(0x2_0000, 4), (0x1000, 8)] 0x108_2081 0,     -- RCH_Sj_TARGET (1, 2, 2, 2, 1)
  lv 0x30_0050 [(0x2_0000, 4), (0x1000, 8), (4, 2)] 0 0 (rc := 0xFFFF_FFFF), -- RCH_Sj_COUNTS, _DEFECTS
  sg 0x30_8000 [(0x2_0000, 4)] 0xE4 0xFFF,                    -- RCH_Hn_LANE_MAP
  lv 0x30_8004 [(0x2_0000, 4)] 0 0 (w1c := 0x1F0) (rc := 0xFFFF_0000), -- RCH_Hn_JESD_STAT
  sg 0x30_8008 [(0x2_0000, 4)] (14 + 12 * 2 ^ 5 + 16 * 2 ^ 10 + 15 * 2 ^ 15 + 6 * 2 ^ 20 + 13 * 2 ^ 25) 0x3FFF_FFFF,
  sg 0x30_800C [(0x2_0000, 4)] (8 + 10 * 2 ^ 4 + 4 * 2 ^ 8 + 4 * 2 ^ 12 + 32 * 2 ^ 16 + 64 * 2 ^ 24) 0xFFFF_FFFF,
  sg 0x30_8010 [(0x2_0000, 4)] (6 + 96 * 2 ^ 4 + 4 * 2 ^ 12) 0x7FFF, -- RCH_Hn_SYNC_CFG
  lv 0x30_8014 [(0x2_0000, 4)] 0 0,                           -- RCH_Hn_LADDER
  sg 0x38_0000 [] (10 + 40 * 2 ^ 8 + 6 * 2 ^ 16) 0x3F00,      -- RCH_LDPC_CFG
  lv 0x38_0004 [] 0 0 (rc := 0xFFFF_FFFF),                    -- RCH_LDPC_STAT
  sg 0x38_0008 [] (40 + 20 * 2 ^ 8 + 7 * 2 ^ 16) 0x7_FFFF,    -- RCH_LADDER_CFG
  sg 0x38_0010 [] 0 0xFFFF_FFFF,                              -- RCH_ZONE_BASE_LO
  sg 0x38_0014 [] 0 0xFFFF]                                   -- RCH_ZONE_BASE_HI

/-- WRP (R153). Complement pairs whose value comes from the image reset to 0 with its complement. -/
def wrpRows : List RegRow := [
  lv 0x40_0000 [(0x1000, 4)] 0 0x10 (w1c := 0xE0) (rc := 0xFF00), -- WRP_Hn_STAT
  lv 0x40_0004 [(0x1000, 4)] 0 0,                             -- WRP_Hn_CLK
  sg 0x40_0008 [(0x1000, 4)] 0 0xFFFF_FFFF,                   -- WRP_Hn_LEVEL_CFG
  sg 0x40_000C [(0x1000, 4)] 0xFFFF_0000 0xFFFF_FFFF,         -- WRP_Hn_BIAS
  lv 0x40_0100 [(0x1000, 4), (0x20, 8)] 0xFFFF_0000 0,        -- WRP_Hn_Sj_PEAK
  lv 0x40_0104 [(0x1000, 4), (0x20, 8)] 0 0,                  -- WRP_Hn_Sj_RPC
  lv 0x40_0108 [(0x1000, 4), (0x20, 8), (4, 6)] 0 0,          -- WRP_Hn_Sj_LEAD0-2, _TRAIL0-2
  sg 0x40_8000 [(0x100, 2)] 0x40 0xF1,                        -- WRP_SIDEx_CFG
  lv 0x40_8004 [(0x100, 2), (4, 2)] 0 0,                      -- WRP_SIDEx_LOG, _SPARE
  sg 0x40_F000 [] (600 + 2 * 2 ^ 12 + 1024 * 2 ^ 16 + 3 * 2 ^ 28) 0x3FFF_FFFF, -- WRP_VFY_CFG
  sg 0x40_F004 [] (50 + 100 * 2 ^ 16) 0xFFFF_FFFF,            -- WRP_COMMIT_CFG
  sg 0x40_F008 [] (20 + 41 * 2 ^ 8) 0x3_FFFF]                 -- WRP_OPC_CFG

/-- SRV (R182). -/
def srvRows : List RegRow := [
  sg 0x50_0000 [(0x1_0000, 4)] 0 3,                           -- SRV_Hn_FOC_CTL
  sg 0x50_0100 [(0x1_0000, 4)] (12 * 2 ^ 8 + 64 * 2 ^ 16) 0x3FF_1F03, -- SRV_Hn_TRK_CTL
  sg 0x50_0200 [(0x1_0000, 4), (0x100, 4)] 4 3,               -- SRV_Hn_SKW, RTL, TTL, SLD_CTL
  sg 0x50_0508 [(0x1_0000, 4)] 0 0xFFFF,                      -- SRV_Hn_SLD_LIMIT: LIMIT_NEG reserved
  sg 0x50_0004 [(0x1_0000, 4), (0x100, 6), (4, 3)] 0 0xFFFF_FFFF, -- SRV_Hn_L_GAIN, _LIMIT, _SLEW
  co 0x50_0010 [(0x1_0000, 4), (0x100, 6)] 0xFFFF_0000 0,     -- SRV_Hn_L_OFS
  lv 0x50_0014 [(0x1_0000, 4), (0x100, 6)] 0xFFFF_0000 0,     -- SRV_Hn_L_OUT
  lv 0x50_0018 [(0x1_0000, 4), (0x100, 6)] 0 0,               -- SRV_Hn_L_ERR
  sg 0x50_0020 [(0x1_0000, 4), (0x100, 6), (0x14, 4)] 0x10_0000 0xFF_FFFF, -- SRV_Hn_L_SECk_B0: 1.0
  sg 0x50_0024 [(0x1_0000, 4), (0x100, 6), (0x14, 4), (4, 4)] 0 0xFF_FFFF, -- _B1, _B2, _A1, _A2
  lv 0x50_0800 [(0x1_0000, 4)] 0 0 (w1c := 0x3_0080),         -- SRV_Hn_STAT
  sg 0x50_0804 [(0x1_0000, 4)] (8 + 10 * 2 ^ 4 + 8 * 2 ^ 8 + 64 * 2 ^ 24) 0xFF00_FFFF, -- SRV_Hn_HOLD_CFG
  lv 0x50_0808 [(0x1_0000, 4)] 0 0,                           -- SRV_Hn_SUM
  lv 0x50_080C [(0x1_0000, 4)] 0 0 (rc := 0xFFFF_FFFF),       -- SRV_Hn_HOLDS
  sg 0x50_0810 [(0x1_0000, 4)] (819 + 655 * 2 ^ 10 + 328 * 2 ^ 20) 0x3FFF_FFFF, -- SRV_Hn_LOCK_CFG
  sg 0x50_0814 [(0x1_0000, 4)] (44723 + 68 * 2 ^ 16 + 128 * 2 ^ 24) 0xFFFF_FFFF, -- SRV_Hn_SLED_CFG: USTEP_CODES 174.7
  sg 0x50_0818 [(0x1_0000, 4)] (64 + 20 * 2 ^ 8 + 32 * 2 ^ 16 + 3 * 2 ^ 24) 0xFFF_FFFF, -- SRV_Hn_JUMP_CFG
  lv 0x50_081C [(0x1_0000, 4), (4, 2)] 0 0,                   -- SRV_Hn_SEEK, _XING
  lv 0x50_0824 [(0x1_0000, 4)] 0 0 (wo := 1),                 -- SRV_Hn_CTL
  sg 0x50_0828 [(0x1_0000, 4)] (8 + 2 * 2 ^ 8 + 16 * 2 ^ 16 + 32 * 2 ^ 24) 0xFFFF_FFFF, -- SRV_Hn_SAB_CFG
  sg 0x50_082C [(0x2_0000, 2)] 0 0xFFFF,                      -- SRV_H0_ANGLE, SRV_H2_ANGLE
  sg 0x51_082C [(0x2_0000, 2)] 0x8000 0xFFFF,                 -- SRV_H1_ANGLE, SRV_H3_ANGLE: half a turn
  sg 0x50_0840 [(0x1_0000, 4), (4, 16)] 0xFFFF_0000 0xFFFF_FFFF, -- SRV_Hn_SAB_BASE0-15
  lv 0x50_0880 [(0x1_0000, 4), (4, 16)] 0 0]                  -- SRV_Hn_SAB_TRIM0-15

/-- HQ (R281) and the MSI-X table (R247). -/
def hqRows : List RegRow := [
  lv 0x90_0000 [(0x40, 16)] 0 0xFFFF_F000,                    -- HQ_RINGr_SQ_BASE_LO
  lv 0x90_0004 [(0x40, 16)] 0 0xFFFF_FFFF,                    -- HQ_RINGr_SQ_BASE_HI
  lv 0x90_0008 [(0x40, 16)] 0 0xFFFF_F000,                    -- HQ_RINGr_CQ_BASE_LO
  lv 0x90_000C [(0x40, 16)] 0 0xFFFF_FFFF,                    -- HQ_RINGr_CQ_BASE_HI
  lv 0x90_0010 [(0x40, 16)] 0 0xFF_FFFD (w1c := 2),           -- HQ_RINGr_CFG
  lv 0x90_0014 [(0x40, 16)] 0 0x1FFF_1FFF,                    -- HQ_RINGr_SIZE
  lv 0x90_0018 [(0x40, 16)] 0 0 (w1c := 0x2800_0000),         -- HQ_RINGr_STAT
  lv 0x90_001C [(0x40, 16)] 0 0 (w1c := 0x80),                -- HQ_RINGr_DEFER
  lv 0x91_0000 [(0x1000, 16), (4, 2)] 0 0xFFF,                -- HQ_RINGr_SQ_TAIL, _CQ_HEAD
  lv 0x92_0000 [(8, 64)] 0 0x1F_FFFF,                         -- HQ_STREAMs_BUDGET
  lv 0x92_0004 [(8, 64)] 0 0,                                 -- HQ_STREAMs_USE, computed at the read
  sg 0x93_0000 [(0x20, 32), (4, 3)] 0 0xFFFF_FFFF,            -- HQ_NSn_FIRST_LO, _HI, _COUNT
  sg 0x93_000C [(0x20, 32)] 0 3,                              -- HQ_NSn_CFG
  lv 0x93_0010 [(0x20, 32), (4, 2)] 0 0,                      -- HQ_NSn_APPEND_LO, _HI
  lv 0x94_0000 [] 0 0xF,                                      -- HQ_CTL
  lv 0x94_0004 [] 0 0 (rc := 0xFFFF_0000),                    -- HQ_STAT
  sg 0x94_0008 [] (2 + 5000 * 16) 0xF_FFFF,                   -- HQ_XRDY_CFG
  lv 0x9F_8000 [(0x10, 64)] 0 0xFFFF_FFFC,                    -- MSI-X table: message address
  lv 0x9F_8004 [(0x10, 64), (4, 2)] 0 0xFFFF_FFFF,            -- upper address, data
  lv 0x9F_800C [(0x10, 64)] 1 1,                              -- vector control: mask
  lv 0x9F_C000 [(4, 2)] 0 0]                                  -- pending-bit array

/-- ENS (R354). -/
def ensRows : List RegRow := [
  sg 0xD0_0000 [] 0 0x3FF_3FF3,                               -- ENS_CFG
  lv 0xD0_0004 [] 0 0 (rc := 0xFF00),                         -- ENS_STAT
  lv 0xD0_0008 [] 0 3,                                        -- ENS_RWIN_BASE
  lv 0xD0_000C [] 0 0,                                        -- ENS_EPOCH
  sg 0xD0_0010 [] (100 + 3 * 2 ^ 8 + 1000 * 2 ^ 16) 0xFFF_0FFF, -- ENS_HB_CFG
  sg 0xD0_0014 [] (256 + 32 * 2 ^ 12 + 16 * 2 ^ 24) 0x1F0F_F1FF, -- ENS_LINK_CFG
  lv 0xD0_0018 [] 0 0x1F_FFFF,                                -- ENS_FWD_BUDGET
  lv 0xD0_001C [] 0 0,                                        -- ENS_FWD_USE, computed at the read
  sg 0xD0_0020 [] 0 0xFFFF_FFFF,                              -- ENS_DIR_BASE_LO
  sg 0xD0_0024 [] 0 0xFFFF,                                   -- ENS_DIR_BASE_HI
  lv 0xD0_0028 [] 0 0 (wo := 1),                              -- ENS_DIR_CTL
  lv 0xD0_002C [] 0 0 (w1c := 2) (wo := 1),                   -- ENS_MGR_CTL
  lv 0xD0_0030 [] 0 0 (rc := 0xFFFF_FFFF),                    -- ENS_COUNTS
  sg 0xD0_0040 [(0x20, 2)] 2 7,                               -- ENS_PORTp_CFG
  lv 0xD0_0044 [(0x20, 2)] 0 0 (rc := 0xFFFF_0000),           -- ENS_PORTp_STAT
  sg 0xD0_0048 [(0x20, 2)] 0 0xFFFF_FFFF,                     -- ENS_PORTp_MAC_LO
  sg 0xD0_004C [(0x20, 2)] 0 0xFFFF,                          -- ENS_PORTp_MAC_HI
  lv 0xD0_0080 [] 0 0x0FFF_FFFF (wo := 0x8000_0000),          -- ENS_MDIO_CMD
  lv 0xD0_0084 [] 0 0,                                        -- ENS_MDIO_STAT
  sg 0xD0_0090 [] 0xD 0xF,                                    -- ENS_PTP_CFG: LOG_SYNC -3
  lv 0xD0_0094 [(4, 3)] 0 0,                                  -- ENS_PTP_NS, _SEC_LO, _SEC_HI, computed at the read
  lv 0xD0_00A0 [] 0 0xFFFF_FFFF]                              -- ENS_PTP_OFS

/-- The reference speed curve: point k (R194). -/
def curvePoint (k : Nat) : Nat :=
  if k = 0 then 2400 * 2 ^ 16 else if k = 1 then 16 + 3600 * 2 ^ 16 else if k = 2 then 64 + 10800 * 2 ^ 16
  else 62 + k + 10800 * 2 ^ 16

/-- SPN (R209). -/
def spnRows : List RegRow := [
  lv 0x60_0000 [] 0 0 (w1c := 0x1_0700),                      -- SPN_STAT
  lv 0x60_0004 [] 0 2 (wo := 1),                              -- SPN_CTL
  lv 0x60_0008 [] 0 0,                                        -- SPN_SPEED
  co 0x60_000C [] 0xFFFF_0000 0,                              -- SPN_SPEED_CMD
  lv 0x60_0010 [] 0 0,                                        -- SPN_DEMAND
  sg 0x60_0014 [] (128 + 8 * 2 ^ 8) 0xFFFF,                   -- SPN_DEMAND_CFG
  sg 0x60_0018 [] (16 + 4 * 2 ^ 10 + 800 * 2 ^ 20) 0xFFFF_FFFF, -- SPN_CURVE_CFG
  sg 0x60_001C [] 0xFFFF 0xFFFF_FFFF,                         -- SPN_QUIET
  sg 0x60_0020 [] (4000 + 4000 * 2 ^ 16) 0xFFFF_FFFF,         -- SPN_RAMP
  lv 0x60_0024 [] 0 0,                                        -- SPN_VBUS
  sg 0x60_0028 [] (3600 + 4000 * 2 ^ 16) 0xFFFF_FFFF,         -- SPN_VBUS_LIMIT
  sg 0x60_002C [] (640 + 620 * 2 ^ 10 + 10 * 2 ^ 20) 0xFFF_FFFF, -- SPN_CHOP_CFG
  sg 0x60_0030 [] 0 0x33F_F7FF,                               -- SPN_PWM_CFG
  sg 0x60_0034 [(4, 3)] 0 0xFFFF_FFFF,                        -- SPN_ILOOP, _SLOOP, _ILIM
  lv 0x60_0040 [] 0 0,                                        -- SPN_IDQ
  sg 0x60_0044 [] 0 0xFFFF_FFFF,                              -- SPN_MOTOR
  sg 0x60_0048 [] (1500 + 40 * 2 ^ 16 + 2 * 2 ^ 24) 0xFFFF_FFFF, -- SPN_OBS_CFG
  lv 0x60_004C [] 0 0,                                        -- SPN_OBS
  sg 0x60_0050 [] (20 + 600 * 2 ^ 8 + 150 * 2 ^ 20) 0xFFFF_FFFF, -- SPN_START_CFG
  sg 0x60_0054 [] (1200 + 50 * 2 ^ 12 + 2000 * 2 ^ 20) 0xFFFF_FFFF, -- SPN_RECATCH_CFG
  lv 0x60_1000 [(0x100, 2)] 0 0xFFFF_0003,                    -- SPN_Am_CTL
  lv 0x60_1004 [] 0 0 (w1c := 0xF0) (rc := 0xFF00),           -- SPN_A0_STAT
  lv 0x60_1104 [] 0 0 (w1c := 0x70) (rc := 0xFF00),           -- SPN_A1_STAT: DONE reserved
  lv 0x60_1008 [(0x100, 2)] 0 0,                              -- SPN_Am_SPEED
  sg 0x60_100C [(0x100, 2)] (16 + 100 * 2 ^ 6) 0xFFFF_FFFF,   -- SPN_Am_CFG
  sg 0x60_1010 [] 0 0xFFFF_FFFF,                              -- SPN_A0_LIMIT
  sg 0x60_1110 [] 0 0xFF_FFFF,                                -- SPN_A1_LIMIT: HOLD_MS reserved
  lv 0x60_1014 [] 0 0xFF00_0000,                              -- SPN_A0_POS
  lv 0x60_1018 [] 0 0xFF_FFFF,                                -- SPN_A0_TARGET
  lv 0x60_1114 [(4, 2)] 0 0,                                  -- SPN_A1_POS, _TARGET: reserved
  lv 0x60_2000 [(4, 16)] 0 0] ++                              -- SPN_ADCk
  (List.range 32).map fun k => sg (0x60_0100 + 4 * k) [] (curvePoint k) 0xFFFF_03FF -- SPN_CURVEk

/-- AXS (R232). -/
def axsRows : List RegRow := [
  lv 0x70_0000 [(0x100, 8)] 0 0 (wo := 0x1F),                 -- AXS_Xn_CTL
  lv 0x70_0004 [(0x100, 8)] 8 0 (w1c := 0xB_1F00) (rc := 0xFF00_0000), -- AXS_Xn_STAT
  lv 0x70_0008 [(0x100, 8)] 0 0,                              -- AXS_Xn_POS
  lv 0x70_000C [(0x100, 8)] 0 0xFFFF_FFFF,                    -- AXS_Xn_TARGET
  lv 0x70_0010 [(0x100, 8)] 0xFFFF_FFFF 0xFFFF_FFFF,          -- AXS_Xn_TARGET_N
  lv 0x70_0014 [(0x100, 8)] 0 0xFFFF_FFFF,                    -- AXS_Xn_MOVE
  lv 0x70_0018 [(0x100, 8)] 0 0x1FF_FFFF,                     -- AXS_Xn_VMAX
  lv 0x70_001C [(0x100, 8), (4, 3)] 0 0xFFFF_FFFF,            -- AXS_Xn_ACCEL, _DECEL, _JERK
  sg 0x70_0028 [(0x100, 8)] 0x8000_0000 0xFFFF_FFFF,          -- AXS_Xn_VLIM_LO
  sg 0x70_002C [(0x100, 8)] 0x7FFF_FFFF 0xFFFF_FFFF,          -- AXS_Xn_VLIM_HI
  sg 0x70_0030 [(0x100, 8)] (120 + 100 * 2 ^ 8 + 4 * 2 ^ 16) 0xF_FFFF, -- AXS_Xn_CHOP
  sg 0x70_0034 [(0x100, 8)] 0 0xFF_FFFF,                      -- AXS_Xn_CURRENT
  sg 0x70_0038 [(0x100, 8)] (20 + 10 * 2 ^ 8 + 3 * 2 ^ 16) 0x3F_FFFF, -- AXS_Xn_HOME_CFG
  sg 0x70_003C [(0x100, 8), (4, 3)] 0 0xFFFF_FFFF,            -- AXS_Xn_HOME_VEL, _HOME_DIST, _HOME_POS
  sg 0x70_0048 [(0x100, 4)] 0 0xFFFF_FFFF,                    -- AXS_X0-3_PARK
  sg 0x70_0448 [(0x100, 4)] 0 0,                              -- AXS_X4-7_PARK: reserved
  sg 0x70_004C [(0x100, 4)] 0x4000 0xFF07,                    -- AXS_X0-3_STBY
  sg 0x70_044C [(0x100, 4)] 0x4000 0xFF03,                    -- AXS_X4-7_STBY: RET_EN reserved
  sg 0x70_0050 [(0x100, 4)] 0 0xFFFF_FFFF,                    -- AXS_X0-3_REF
  lv 0x70_0054 [(0x100, 8)] 0 0,                              -- AXS_Xn_INDEX
  lv 0x70_0058 [(0x100, 8)] 0 0 (rc := 0xFF_0000),            -- AXS_Xn_SW
  lv 0x70_005C [(0x100, 8)] 0 0]                              -- AXS_Xn_REBASE

/-- CAL (R246). -/
def calRows : List RegRow := [
  lv 0x80_0100 [(0x1_0000, 4), (0x1000, 8), (4, 2)] 16 0,     -- LLR_CUR, _TGT: scale 1.0
  lv 0x80_0000 [(0x1_0000, 4), (0x1000, 8), (0x10, 43), (4, 2)] 0 0, -- CAL_Hn_Sj_Ek_CUR, _TGT
  lv 0x80_0008 [(0x1_0000, 4), (0x1000, 8), (0x10, 43)] 0 0 (w1c := 0x4_0000) (rc := 0xFFFF), -- CAL_Hn_Sj_Ek_CNT
  lv 0x80_8000 [(0x1_0000, 4), (0x10, 5), (4, 2)] 0 0,        -- CAL_Hn_OFSk_CUR, _TGT
  lv 0x80_8008 [(0x1_0000, 4), (0x10, 5)] 0 0 (w1c := 0x4_0000) (rc := 0xFFFF), -- CAL_Hn_OFSk_CNT
  lv 0x88_0000 [] 0 1 (w1c := 0x10) (wo := 2),                -- CAL_CTL
  sg 0x88_0010 [] (3 + 2 * 2 ^ 8 + 2 ^ 16 + 24 * 2 ^ 24) 0xFFFF_FF03, -- CAL_CLASS0_CFG
  sg 0x88_0014 [] (2 + 2 ^ 8 + 4 * 2 ^ 16) 0xFFFF_FF03,       -- CAL_CLASS1_CFG
  sg 0x88_0018 [] (2 + 4 * 2 ^ 8 + 2 ^ 16) 0xFFFF_FF03,       -- CAL_CLASS2_CFG
  sg 0x88_001C [] (2 + 2 ^ 8 + 2 ^ 16) 0xFFFF_FF03,           -- CAL_CLASS3_CFG
  sg 0x88_0020 [(4, 2)] (2 + 2 ^ 8 + 16 * 2 ^ 16) 0xFFFF_FF03, -- CAL_CLASS4, 5_CFG
  sg 0x88_0028 [(4, 2)] (2 + 8 * 2 ^ 8 + 2 ^ 16) 0xFFFF_FF03, -- CAL_CLASS6, 7_CFG
  sg 0x88_0030 [(4, 3)] (2 + 4 * 2 ^ 8 + 2 ^ 16) 0xFFFF_FF03, -- CAL_CLASS8-10_CFG
  sg 0x88_0040 [] (16 + 4 * 2 ^ 8 + 64 * 2 ^ 16 + 96 * 2 ^ 24) 0xFFFF_0FFF, -- CAL_MEAS_CFG
  sg 0x88_0044 [] (8 + 16 * 2 ^ 16) 0xFF_03FF,                -- CAL_SRV_CFG
  lv 0x88_0048 [] 32 0]                                       -- CAL_IDLE

/-- PWR (R398). -/
def pwrRows : List RegRow := [
  lv 0xF0_0000 [] 1 0 (w1c := 0x400),                         -- PWR_STAT
  lv 0xF0_0004 [] 0 2 (wo := 1),                              -- PWR_CTL
  sg 0xF0_0008 [] (100 * 2 ^ 4) 0xF_FFF1,                     -- PWR_DOZE_CFG
  lv 0xF0_000C [] 0 0xFFFF_FFFF,                              -- PWR_ALARM
  lv 0xF0_0010 [(4, 2)] 0 0,                                  -- PWR_RESETS, PWR_BOOT
  sg 0xF0_0018 [] (100 + 110 * 2 ^ 8 + 85 * 2 ^ 16) 0xFFF_FFFF, -- PWR_THERM_CFG
  sg 0xF0_001C [] 5400 0xFFFF_FFFF,                           -- PWR_THERM_ACT
  lv 0xF0_0020 [] 0 0 (rc := 0xFF00),                         -- PWR_TEMP
  lv 0xF0_0024 [] 0 0 (w1c := 0x200),                         -- PWR_DISCARD
  lv 0xF0_0028 [] 0 0]                                        -- PWR_CLK_STAT

/-- The rows of one block (R419). -/
def blockRows : Nat → List RegRow
  | 0 => topRows
  | 1 => cueRows
  | 14 => fltRows
  | 16 => cfgRows
  | 10 => bufRows
  | 11 => scRows
  | 12 => dmaRows
  | 2 => fmtRows
  | 3 => rchRows
  | 4 => wrpRows
  | 5 => srvRows
  | 9 => hqRows
  | 13 => ensRows
  | 6 => spnRows
  | 7 => axsRows
  | 8 => calRows
  | 15 => pwrRows
  | _ => []

/-- The row that names a register, if any (R416). -/
def regRow (off : Nat) : Option RegRow :=
  (blockRows (off / 0x10_0000)).find? fun r => decide (r.base ≤ off) && inDims r.dims (off - r.base)

/-- What a register reads as when nothing has been written to it: its reset value. -/
def regReset (off : Nat) : W32 :=
  match regRow off with
  | some r => BitVec.ofNat 32 r.reset
  | none => 0

end Sys2Proof.Machine
end

