-- ==== Sys2Proof/Machine/State.lean ====
section
/-! DEFINITION. The state of the FZ9420: every register (a sparse store over BAR0 offsets), the queues, buffers, modes
and pins of each block, the memories, and the queue of waiting commands. Plain data. -/

namespace Sys2Proof.Machine

/-! ### Cue fabric (02_cue_sheet.md) -/

/-- A chain header of an image (R42). -/
structure ChainHdr where
  event : Fin 256
  prio : Nat
  length : Nat
  engines : Nat
  maxwait : Nat
  compat : BitVec 256
  deriving DecidableEq, Repr, Inhabited

/-- An event latched or pending (R43), with what its call-board entry will say (R367). -/
structure PendEvent where
  line : Fin 256
  source : Nat
  d0 : Nat
  d1 : Nat
  d2 : Nat
  d3 : Nat
  act : Nat
  pos : Nat
  waited : Nat
  deriving DecidableEq, Repr

/-- A running chain (R43, R49). -/
structure RunChain where
  ev : PendEvent
  gl : Bool
  startAct : Nat
  startBeat : Nat
  length : Nat
  elapsed : Nat
  deriving DecidableEq, Repr

/-- What the fabric holds of a cue image (R38, R42, R51, R53, R60, R64). -/
structure CueImage where
  build : Nat
  version : Nat
  headTypes : Nat
  ddrGib : Nat
  stateLayout : Nat
  main : List ChainHdr
  gl : List ChainHdr
  injectable : BitVec 256
  budgets : List Nat
  /-- Beats of the ghost-light ramp (R57), and reserved idle beats per act and head (R235). -/
  glRamp : Nat
  resIdle : Nat
  /-- Declared ranges: offset, lowest, highest. -/
  ranges : List (Nat × Nat × Nat)
  slack : List Nat
  deriving DecidableEq, Repr, Inhabited

/-- The image of an empty cue store, with the reference budgets of R38. -/
def CueImage.empty : CueImage :=
  { build := 0, version := 0, headTypes := 0, ddrGib := 0, stateLayout := 0, main := [], gl := [], injectable := 0,
    budgets := [2048, 512, 576, 576, 208, 256, 224], glRamp := 800, resIdle := 32,
    ranges := [], slack := [] }

/-- The first schedule fault of a beat, waiting for the beat boundary (R55, R57). -/
structure FaultRec where
  engine : Nat
  cause : Nat
  chain : Nat
  slot : Nat
  deriving DecidableEq, Repr

/-- The cue fabric's state beside its registers. -/
structure Cue where
  act : Nat
  beat : Fin 1024
  slot : Fin 10
  banks : Vector CueImage 2
  /-- Image accepted by FW_ACTIVATE, waiting for its act boundary (R62), and the slot it came from. -/
  swap : Option (CueImage × Nat)
  running : List RunChain
  pending : List PendEvent
  fault : Option FaultRec
  /-- The accepted request that waits: 1 PERFORMANCE, 2 REHEARSAL. -/
  request : Option Nat
  /-- A call-board entry for a cue-owned write was made in this act (R65). -/
  ownedEntry : Bool
  /-- Core done signals of the windows (R35). -/
  coreDone : Vector Bool 4
  /-- Beats since ghost-light entry (f + 1 counts 1); 0 outside GHOST_LIGHT. -/
  glBeat : Nat
  /-- Engines halted by R56. -/
  halted : BitVec 12
  /-- Budget use in this act, in bytes, entries or decoder-slots, and budgets found exhausted. -/
  used : Vector Nat 7
  hit : Vector Bool 7
  /-- Cue-owned registers written by hand in this beat: what a read returns until the next beat boundary (R12, R63). -/
  byHand : List (Nat × W32)
  /-- The work of this act's boundary has been done (R63). -/
  actDone : Bool
  deriving DecidableEq, Repr

/-! ### Call board (14_fault_handling.md) -/

/-- One call-board entry (R367). -/
structure Entry where
  seq : Nat
  code : Nat
  source : Nat
  fatal : Bool
  merged : Bool
  inGl : Bool
  act : Nat
  pos : Nat
  count : Nat
  timeNs : Nat
  timeSec : Nat
  d0 : Nat
  d1 : Nat
  d2 : Nat
  d3 : Nat
  deriving DecidableEq, Repr

/-- A mismatch that the COMPLEMENT_MISMATCH chain has yet to record (R357). -/
structure Mismatch where
  engine : Nat
  hardware : Bool
  off : Nat
  key : Nat
  count : Nat
  value : Nat
  kept : Nat
  writer : Nat
  act : Nat
  pos : Nat
  deriving DecidableEq, Repr

/-- A copy of the call board to flash (R372): reason and the entries taken, oldest first. -/
structure BoardCopy where
  reason : Nat
  entries : List Entry
  timeSec : Nat
  deriving DecidableEq, Repr

structure Flt where
  /-- Entries held, newest first, at most 4,096. -/
  board : List Entry
  next : Nat
  /-- Consecutive mismatches of each hardware pair (key, count). -/
  repeats : List (Nat × Nat)
  waiting : List Mismatch
  copy : Option BoardCopy
  copyPending : Option Nat
  deriving DecidableEq, Repr

/-! ### Flash controller, side-band ports (16_config_and_registers.md) -/

/-- Operations of the flash controller, in the order of R418. -/
inductive FlashOp where
  /-- The discard record's bytes. -/
  | discard (bytes : List Byte)
  /-- A boot record with this life-cycle state and boot slot. -/
  | bootRecord (life slot : Nat)
  | boardCopy
  | retirement
  /-- One 4 KiB unit of an FW_STAGE command: the command's order, and the unit's offset in it. -/
  | fwStage (order unit : Nat)
  | cfg (op : Fin 6) (addr len : Nat)
  deriving DecidableEq, Repr

/-- The flash controller: the operation in progress and those waiting. -/
structure Cfg where
  busy : Option FlashOp
  waiting : List FlashOp
  rx : List W32
  tx : List W32
  /-- Words of a READ_FIFO not yet read from flash (R425). -/
  rxLeft : Nat
  rxAddr : Nat
  /-- CFG_FLASH_BUF; an unlisted byte is 0. -/
  buf : List (Nat × Byte)
  /-- The IDENTITY and POLICY sections in force; none before an image is loaded (R409, R412). -/
  identity : Option (List Byte)
  policy : Option (List Byte)
  deriving DecidableEq, Repr

/-- A head's I²C controller (R424) and type reads (R423). -/
structure I2c where
  tx : List Byte
  rx : List Byte
  held : Bool
  missed : Nat
  deriving DecidableEq, Repr

structure Top where
  i2c : Vector I2c 4
  /-- Capture entries, oldest first: levels and beat. -/
  cap : List (BitVec 16 × Fin 1024)
  /-- JTAG debug access port's sticky error bit (R20). -/
  jtagErr : Bool
  /-- _HI latches: key is 2^26 times the master's number plus the _LO offset. -/
  latches : List (Nat × W32)
  deriving DecidableEq, Repr

/-- What a sequenced frame carries (R325). -/
inductive Payload where
  | packets (slots : List (List Byte))
  /-- Window offset and, with it, the requester's QUARTER (R15). -/
  | readReq (tag off len quarter : Nat)
  | readResp (tag : Nat) (data : List Byte)
  | writeReq (tag off : Nat) (data : List Byte) (quarter : Nat)
  | writeResp (tag : Nat)
  | nak (tag err : Nat)
  | directory (d : DirFrame)
  deriving DecidableEq, Repr

/-! ### What the part sends -/

/-- What leaves the part: answers to masters and everything put on a link or a pin. -/
inductive Output where
  /-- A read answered with its bytes. -/
  | data (m : Master) (bytes : List Byte)
  /-- A precise access fault of a control core (R20, R289). -/
  | accessFault (m : Master) (store : Bool)
  | completerAbort (m : Master)
  /-- A DMA channel's access ended with this error code. -/
  | dmaError (ch : Chan) (code : Nat)
  /-- PCIe memory requests to host memory (R17). -/
  | hostRead (addr len : Nat)
  | hostWrite (addr : Nat) (bytes : List Byte)
  /-- A posted write discarded without an answer, or a JTAG access answered with zero. -/
  | discarded (m : Master)
  /-- An interrupt to a control core. -/
  | coreIrq (c : Nat) (ch : Nat)
  /-- Actuator code blocks of a beat: SEQ, then type and code of each (R164). -/
  | codes (h : Head) (seq : Nat) (blocks : List (Nat × Int))
  /-- The RETRACT block with its SEQ (R164). -/
  | retract (h : Head) (seq : Nat)
  /-- A control block on a head's write-and-actuate lanes: ALIGN, CLOCK, POWER or EDGE (R126). -/
  | control (h : Head) (block : Nat)
  /-- The SYSREF pulse of an act (R32). -/
  | sysref (h : Head)
  /-- Valid frames stop, or start, on a head's lanes. -/
  | lanes (h : Head) (valid : Bool)
  /-- A place is written, as far as its gate was open: the eight tracks' channel bits from bit 640 on (R81, R82), and the
  symbol blocks that carry them (R123, R126). -/
  | written (h : Head) (p : Place) (tracks : List (List Bool)) (blocks : List Nat)
  /-- Data for a host buffer described by a descriptor list: list address, entries, bytes of the buffer that come before
  these, bytes (R255, R269). -/
  | hostList (addr entries skip : Nat) (bytes : List Byte)
  /-- An MSI-X message (R252). -/
  | msi (addr data : Nat)
  /-- A sequenced Sceral frame: port, destination, SEQ, RETX, acknowledgement carried, EPOCH, content (R324). -/
  | frame (port : Nat) (dst seq : Nat) (retx : Bool) (ack : Option Nat) (epoch : Nat) (content : Payload)
  /-- An ACK packet on the active path: destination, GAP, REPEAT, ACK, EXPECTED (R328). -/
  | ackPacket (dst : Nat) (gap repeated : Bool) (ack expected : Nat)
  /-- A HEARTBEAT on a port (R330). -/
  | heartbeat (port : Nat) (hb : HeartbeatPkt)
  /-- A PTP message on a port: 1 Sync, 2 Follow_Up, 3 Delay_Req, 4 Delay_Resp; its time (R353). -/
  | ptp (port kind : Nat) (time : Int)
  /-- The spindle inverter's outputs for a PWM period: whether the enable output is active, and for each phase the cycles
  at which its two outputs change, with their levels from then on, high side first (R186). -/
  | inverter (enable : Bool) (phases : List (List (Nat × Bool × Bool)))
  /-- An auxiliary channel's drive for a period: the duty of each phase in 1/65,536, none where it floats (R205). -/
  | auxDrive (a : Fin 2) (duties : List (Option Nat))
  /-- An MDIO frame (R322). -/
  | mdio (op prtad devad data : Nat)
  /-- The disc is ejected (R280). -/
  | eject
  /-- PME_TO_Ack (R380). -/
  | pmeAck
  /-- WAKE# asserted (R378). -/
  | wakePin
  /-- PWR_EN_MAIN and PWR_EN_DDR (R374). -/
  | supplies (main ddr : Bool)
  /-- A configuration request answered: with Retry Status, or completed with the presented identity (R393). -/
  | configRetry
  | configDone (id : Nat)
  /-- A head's reset line (R424). -/
  | headReset (h : Head) (asserted : Bool)
  /-- Bytes of an I²C transfer to a head: 7-bit address, bytes sent, bytes to read (R424). -/
  | i2c (h : Head) (addr : Nat) (sent : List Byte) (reads : Nat)
  deriving DecidableEq, Repr

/-- The buffer controller's state beside its registers and its memory (11_buffer_memory.md). -/
structure Buf where
  /-- Retired banks (R293). -/
  retired : BitVec 32
  /-- The retired-page list in order of listing: page, and whether it is RETIRED (else PENDING) (R292). -/
  pages : List (Nat × Bool)
  /-- The last 64 lines that made corrected entries, newest first (R291). -/
  recent : List Nat
  /-- The bank whose retirement is in progress (R293). -/
  retiring : Option (Fin 32)
  /-- The SRAM word the scrub reads next (R362). -/
  sramPos : Nat
  deriving DecidableEq, Repr

/-- A DMA channel beside its registers (12_stage_cache_dma.md). -/
structure DmaCh where
  /-- Elements of the segment still to read, and the addresses of the next one. -/
  left : Nat
  src : Nat
  dst : Nat
  /-- Bytes of writes issued whose responses have not returned. -/
  inFlight : Nat
  /-- The error that stops the channel once its writes have answered (R314). -/
  failing : Option Nat
  /-- A link fetch is outstanding (R316). -/
  linking : Bool
  /-- Address at the stop (R371). -/
  stopAt : Nat
  /-- Source bytes that host memory or a remote device has delivered and the channel has not taken; bytes asked for
  there and not delivered. -/
  far : List Byte
  asked : Nat
  /-- The beat a link fetch was sent in. -/
  linkAt : Nat
  /-- Elements of the burst in progress that are still to move (R315). -/
  burst : Nat
  deriving DecidableEq, Repr

/-! ### Heads: wobble address, read channels, servo, write path (03 to 06) -/

/-- The wobble address of a head as it is carried forward (R72, R92, R93). -/
structure Wobble where
  /-- A valid word has been decoded since lock. -/
  seen : Bool
  /-- The word number carried forward: that of the next word. -/
  next : Nat
  /-- Wobbles counted since that word began, in units of 1/1,350,000,000 wobble (R92). -/
  count : Nat
  /-- Frequency measured from the head's wobble, in Hz (R99). -/
  freq : Nat
  layer : Layer
  side : Side
  /-- Words discarded in a row. -/
  discards : Nat
  /-- The number the last ignored valid word would be followed by. -/
  odd : Option Nat
  deriving DecidableEq, Repr

/-- The sample path of a spot (R98-R103). Positions count channel bits from the first bit of the place. -/
structure SpotPath where
  /-- The last eight RF samples without wobble, newest first (R98, R99). -/
  raw : List Int
  /-- The wobble carrier of the last sample (R98). -/
  carrier : Int
  /-- Oscillator of R99: the part of a channel bit that has passed, in 1/1.35e15 bit. -/
  nco : Nat
  /-- Position of the next channel bit. -/
  pos : Nat
  /-- Samples at the bit rate before and after the input scaling, and equaliser outputs, newest first. -/
  bits : List Int
  xs : List Int
  ys : List Int
  /-- Equaliser output less ideal output, and ideal output, at a depth of 48 bits, newest first (R102). -/
  es : List (Int × Int)
  /-- Channel-bit reliabilities of the place from its first bit on: positive where 0 is likelier (R101). -/
  soft : List Int
  /-- Low-pass of the offset-corrected samples (R103). -/
  low : Int
  /-- Consecutive bits for which dropout, bright, baseline, metric and lane CRC have held; bits for which none has. -/
  runs : Vector Nat 5
  clear : Nat
  /-- Consecutive bits at a range limit: gain, offset, taps 0 to 14 from 2 on, and the timing trim (R108). -/
  limits : Vector Nat 18
  /-- Consecutive frames in LOCK in which the metric criterion has held; it has held in this frame. -/
  metricFrames : Nat
  metricHere : Bool
  deriving DecidableEq, Repr

/-- A frame as its sync window left it (R110-R113): its first bit, the type of its sync (R109), its segments'
selectors, its header's decode, and its marks. -/
structure FrameMark where
  pos : Int
  first : Bool
  sels : List Nat
  decoded : Bool
  erased : Bool
  flywheel : Bool
  ambig : Bool
  deriving DecidableEq, Repr

/-- A spot's window of known bits (R236): how many, the sums of e² at CUR and PROBE away from it, the shadow
equaliser's taps. -/
structure CalWin where
  bits : Nat
  e0 : Nat
  ePlus : Nat
  eMinus : Nat
  shadow : List Int
  deriving DecidableEq, Repr

/-- One spot's read channel and power beside its registers (R98-R113, R130-R133). -/
structure SpotState where
  chan : SpotPath
  /-- Frame whose sync window comes next, and its predicted position in the place. -/
  frame : Nat
  predicted : Int
  /-- The frames of the place so far (R110). -/
  frames : List (Nat × FrameMark)
  /-- First bit of the marked span, and whether dropout opened it (R103, R104). -/
  span : Option (Int × Bool)
  /-- Marked spans of the place that have ended: first and last bit (R104). -/
  spans : List (Int × Int)
  /-- A zone load that takes effect at the next sync or VFO (R107). -/
  load : Option ZoneTrigger
  win : CalWin
  /-- Longest marked span of the place being read (R136). -/
  longest : Nat
  /-- Frames of the place read as flywheel. -/
  flywheels : Nat
  /-- Noise reference and dropout threshold of the zone entry in use (R106). -/
  noise : Nat
  dropTh : Nat
  /-- OPC results by layer: power in the inner and outer zone, 10 µW, and mark-formation ratio (R130, R131). -/
  opc : List (Nat × (Nat × Nat × Nat))
  /-- An OPC result that waits for the next place the head writes (R241). -/
  peakNew : Option Nat
  /-- Act in which an OPC result was last sent (R241). -/
  peakAct : Option Nat
  deriving DecidableEq, Repr

/-- A place being read, with its recovery ladder (R114-R121). -/
structure ReadJob where
  place : Place
  why : ReadPurpose
  /-- Rows accepted so far, their payloads, and the bits corrected in each row that has decoded. -/
  accepted : BitVec 72
  rows : List (Nat × List Byte)
  corrected : List (Nat × Nat)
  /-- Messages of the rows' codeword contexts, by row (R114, R115). -/
  msgs : List (Nat × List Int)
  progressive : Nat
  /-- The closing iteration has run. -/
  closed : Bool
  /-- Ladder step 1 to 5, 0 none; re-reads done in it; outer decoding comes next. -/
  step : Nat
  reread : Nat
  outer : Bool
  /-- The re-read waits for the place to pass (R118). -/
  waiting : Bool
  /-- Its command was stopped: the ladder ends after the step (R274). -/
  last : Bool
  /-- The head whose read it is: at step 5 the other head re-reads (R118, R119). -/
  owner : Head
  /-- Channel LLRs of the rows in recovery, as their last read left them. -/
  llrs : List (Nat × List Int)
  /-- Iterations run on each row since its last read. -/
  iters : List (Nat × Nat)
  deriving DecidableEq, Repr

/-- How a place read ended. -/
inductive ReadEnd where
  | blank
  | passed (step : Nat)
  | unrecovered (failed : BitVec 72)
  deriving DecidableEq, Repr

/-- What a read of a place for a command has brought into the buffer: how it ended, and the accepted rows. -/
structure Found where
  place : Place
  how : ReadEnd
  rows : List (Nat × List Byte)
  /-- The RB is being reallocated under R120. -/
  recovered : Bool
  deriving DecidableEq, Repr

/-- A biquad section's stored inputs and outputs (R158). -/
structure SecState where
  x1 : Int
  x2 : Int
  y1 : Int
  y2 : Int
  deriving DecidableEq, Repr

/-- A servo loop beside its registers (R157-R159, R167). -/
structure LoopState where
  secs : Vector SecState 4
  /-- The states before the last advance, and the inputs of the last two beats (R167). -/
  before : Vector SecState 4
  last : Int
  prev : Int
  /-- The states are those before the last advance: that beat's input failed, and they advance with the previous beat's
  input first (R167). -/
  again : Bool
  /-- The last matching offset (R356). -/
  ofs : Int
  deriving DecidableEq, Repr

/-- A seek in progress (R177, R178): target, how many attempts, beat at which the attempt started. -/
structure SeekState where
  layer : Layer
  turn : Nat
  attempt : Nat
  start : Nat
  /-- Of a coarse move: 0 the tracking code ramps to centre, 1 the sled moves, 2 the head settles, 3 done. -/
  stage : Nat
  /-- Beats in this stage, and the tracking code the ramp began at. -/
  timer : Nat
  code : Int
  deriving DecidableEq, Repr

/-- A jump in progress (R174, R175): over tracks, or over layers. -/
structure JumpState where
  layers : Bool
  /-- Tracks to go, outward positive; or the target layer less the present one. -/
  goal : Int
  /-- Of a fine jump: 0 it accelerates, 1 coasts, 2 brakes. Of a layer jump: 0 kick, 1 crossing, 2 brake, 3 settle. -/
  stage : Nat
  /-- Beats in this stage, and in the jump. -/
  timer : Nat
  total : Nat
  /-- FE S-curves counted. -/
  count : Nat
  /-- Sum of the SUM samples of the settle beats. -/
  sum : Nat
  /-- The layer the jump began on. -/
  first : Nat
  deriving DecidableEq, Repr

/-- A hold (R169, R170): beats it has lasted, whether its OFF_TRACK has been raised, its first qualifying sample, counted
in samples since the fabric started, and whether its eighth end sample has come: the loops run again. -/
structure Hold where
  beats : Nat
  raised : Bool
  first : Nat
  ended : Bool
  deriving DecidableEq, Repr

/-- What the act has gathered for the spherical trim (R162): the sum and number of unfrozen gain samples, the spots in LOCK
that gave them, and whether the pair is suspended. -/
structure SabAct where
  sum : Nat
  n : Nat
  seen : BitVec 8
  off : Bool
  deriving DecidableEq, Repr

/-- The OPC runs a head owes (R131): none, the zone nearer its write radius, both zones, or one zone named (outer or not). -/
inductive OpcNeed where
  | none
  | nearer
  | both
  | zone (outer : Bool)
  deriving DecidableEq, Repr

/-- A place being written (R129). -/
structure WriteJob where
  place : Place
  /-- The home place of the RB in it; none for record and OPC places. -/
  home : Option Place
  /-- The payloads of its 64 data rows, its header type, and RPL. -/
  rows : List (List Nat)
  type : Nat
  rpl : Bool
  /-- Entry KIND and places tried, of a replacement. -/
  kind : Nat
  attempts : Nat
  deriving DecidableEq, Repr

/-- A head. -/
structure HeadState where
  wobble : Wobble
  spots : Vector SpotState 8
  /-- CRC-12 failures in a row on each physical lane (R94). -/
  crcRun : Vector Nat 4
  /-- Blocks each physical lane has carried since the act boundary (R95). -/
  laneBlock : Vector Nat 4
  job : Option ReadJob
  /-- RBs in the recovery ladder beside the place being read, oldest first (R115, R118). -/
  recover : List ReadJob
  lastRead : Option (Place × ReadEnd)
  /-- FOC, TRK, SKW, RTL, TTL. -/
  loops : Vector LoopState 5
  /-- SLD: low-passed tracking code and its section's state (R163). -/
  sled : SecState
  sledLp : Int
  /-- Microsteps the sled axis issues in this beat (R163). -/
  sledSteps : Int
  /-- Centre trim in units of 2^-20 of 1/16,384 (R161). -/
  trim : Int
  /-- Focus and tracking have not been opened: their loops run where EN is set. -/
  focusClosed : Bool
  trackClosed : Bool
  /-- Skew and tilt are held by the OFF_TRACK chain or a layer jump (R172, R175). -/
  tiltHeld : Bool
  hold : Option Hold
  /-- The qualifying samples that the last group ended with: the first, and how many; and its samples at SUM_END (R169). -/
  quals : Nat × Nat
  ends : Nat
  /-- Beat of the last group presented; this beat's has come. -/
  groupBeat : Nat
  grouped : Bool
  /-- TE's sign beyond its hysteresis band, and FE's sign in the last group (R172, R173, R175). -/
  crossSign : Bool
  feSign : Bool
  jump : Option JumpState
  /-- Consecutive beats toward setting and toward clearing FOC_LOCK, TRK_LOCK, SKW_LOCK (R168). -/
  good : Vector Nat 3
  bad : Vector Nat 3
  bandOk : Bool
  /-- Sum of SUM_AVG over the beats of this act in FOC_LOCK without a hold, and their number (R168). -/
  sumAcc : Nat
  sumN : Nat
  /-- Beats in a row the tracking code has stood at a limit (R170). -/
  limitBeats : Nat
  /-- Spherical dither: second act of the pair, and G+ of the first: a sum and its number of samples (R162). -/
  dither2 : Bool
  gPlus : Option (Nat × Nat)
  sab : SabAct
  /-- Acts left in which a jump suspends dither: the one it ended in, and the next (R162). -/
  afterJump : Nat
  /-- The spherical code last shipped. -/
  sabCode : Int
  seek : Option SeekState
  focusFails : Nat
  /-- A focus search in progress: beats since it began (R172). -/
  search : Option Nat
  /-- Offsets of ladder step 4 applied to focus and tracking, in nm (R118). -/
  ladderOfs : Int × Int
  /-- The read the head was serving when OFF_TRACK struck (R172). -/
  resume : Option ReadJob
  writing : Option WriteJob
  /-- The write gate is to be removed at the next beat boundary. -/
  gateOff : Bool
  /-- OPC run: its place, and whether the outer zone; failures in a row (R130, R132). -/
  opcRun : Option (Place × Bool)
  opcFails : Nat
  opcDue : OpcNeed
  /-- AFE temperature last sampled, and at the last OPC on each layer, in 1/1,000 °C (R131). -/
  temp : Int
  opcTemps : List (Nat × Int)
  /-- Beats of free head time in this act (R235). -/
  freeBeats : Nat
  /-- Consecutive beats in which the laser monitor has been off by more than 15 % (R134). -/
  laserBad : Nat
  /-- Acts in which LASER_FAULT was set (R134). -/
  laserActs : List Nat
  /-- Valid frames are sent on the write-and-actuate lanes. -/
  lanes : Bool
  lasers : Bool
  /-- Codes shipped when the ghost-light ramp began: FOC, TRK (R57). -/
  rampFrom : Option (Int × Int)
  /-- The last group's input was advanced in this beat and its CRC may still fail (R167). -/
  advanced : Bool
  /-- HEAD_FAULT Hn is being or has been answered. -/
  faulted : Bool
  deriving DecidableEq, Repr

/-! ### The format engine's sides: place map, log, reallocation (05_write_path.md) -/

/-- An RB waiting for verification (R135-R138): where it was written, its home, who wrote it, places tried; whether it was
written in unverified mode, so that its entry and its commit do not wait for the verdict (R142, R148). -/
structure VerifyItem where
  place : Place
  home : Place
  writer : Head
  attempts : Nat
  kind : Nat
  early : Bool
  deriving DecidableEq, Repr

/-- An RB marked for replacement (R137, R140): home place, entry KIND, places tried, spare chosen. -/
structure ReplItem where
  home : Place
  kind : Nat
  attempts : Nat
  spare : Option Place
  deriving DecidableEq, Repr

/-- A record of the disc-information log on its way (R146-R148). -/
structure LogRec where
  /-- 1 MOUNT, 2 COMMIT, 3 SNAPSHOT (R146). -/
  type : Nat
  clean : Bool
  index : Nat
  committed : List Nat
  consumed : List Nat
  realloc : List Nat
  /-- The horizon it names (R150). -/
  horizon : List Nat
  /-- Part of a SNAPSHOT, 0 to 6 (R147). -/
  part : Nat
  /-- The head that wrote it last (R145). -/
  writer : Head
  /-- The record is to be written at the next log place: it is new, or its place failed verification or was abandoned
  (R145). -/
  failed : Bool
  /-- Its place has been written and awaits its verdict. -/
  sent : Bool
  deriving DecidableEq, Repr

structure SideState where
  mounted : Bool
  /-- Place map: layer times 166,992 plus RB number; 1 committed, 2 consumed and not committed; unlisted blank. -/
  map : List (Nat × Nat)
  /-- Rows of a home place that hold data on the medium. -/
  rows : List (Nat × BitVec 64)
  /-- Places read for commands, whose rows are in the buffer. -/
  found : List Found
  /-- Rows whose reads end with UNRECOVERED_READ until the next mount. -/
  lostRows : List (Nat × BitVec 64)
  /-- Next free RB of each spare area: layer times 2, plus 1 for the outer area. -/
  spareNext : List (Nat × Nat)
  /-- OPC places used in each zone, numbered alike. -/
  opcUsed : List (Nat × Nat)
  verifyQ : List VerifyItem
  replQ : List ReplItem
  takeover : Bool
  /-- The writing head of a verified side starts no further home place (R137). -/
  stopHome : Bool
  /-- Horizon: places the part may write before the next record. -/
  horizon : List Nat
  sequence : Nat
  snapSeq : Option Nat
  /-- Places, consumed places and table entries that the next record names. -/
  toCommit : List Nat
  toConsume : List Nat
  toRealloc : List Nat
  recsSinceSnap : Nat
  entriesSinceSnap : Nat
  recFlight : Option LogRec
  /-- A FLUSH, FUA write, CURTAIN or UNLOAD waits for a record; the record is to be CLEAN. -/
  recWanted : Bool
  cleanWanted : Bool
  /-- Beat of the last FLUSH or FUA record. -/
  lastRec : Option Nat
  /-- Uncommitted places on the medium and the beat each reached it. -/
  reached : List (Nat × Nat)
  discId : BitVec 64
  deriving DecidableEq, Repr

/-! ### Host queues (10_host_queueing.md) -/

/-- One LBA of write data with its guard tag (R86, R268). -/
structure Rec where
  data : List Byte
  crc : BitVec 64
  lba : BitVec 32
  lbaN : BitVec 32
  deriving DecidableEq, Repr

/-- An acknowledged row in the buffer (R265): its medium LBA, who wrote it, its place once its gate has opened. -/
structure Row where
  mlba : Nat
  body : Rec
  src : CmdSrc
  nsid : Nat
  lba : Nat
  stream : Nat
  /-- Fetch orders of the writes it stands for; itself and those it superseded. -/
  writes : List Nat
  /-- Acknowledgement order of the first of them. -/
  order : Nat
  atomic : Bool
  place : Option Place
  /-- Its buffer space is released (R137, R138). -/
  released : Bool
  /-- A record that covers it has passed (R148). -/
  committed : Bool
  /-- Its range of R386, numbered in order of opening. -/
  range : Nat
  deriving DecidableEq, Repr

/-- An unanswered offer (R262). -/
structure Offer where
  id : Nat
  ofs : Nat
  count : Nat
  /-- The beat it was posted in. -/
  since : Nat
  deriving DecidableEq, Repr

/-- A sub-command of a forwarded command (R343): its ensemble range, extent, column and copy, the member and local
range that serve it, its tag there, its forwarding address, and 0 not sent, 1 sent, 2 succeeded, 3 failed. -/
structure Sub where
  lba : Nat
  count : Nat
  extent : Nat
  column : Nat
  copy : Nat
  dev : Nat
  nsid : Nat
  loc : Nat
  tag : BitVec 16
  region : Nat
  state : Nat
  status : Nat
  degraded : Bool
  unwritten : Bool
  deriving DecidableEq, Repr

/-- A command fetched and not completed. -/
structure Cmd where
  src : CmdSrc
  tag : BitVec 16
  slot : Slot
  /-- Fetch order. -/
  order : Nat
  started : Bool
  /-- A WRITE or FW_STAGE whose first checks are done: offers may be posted. -/
  ready : Bool
  /-- LBAs offered so far, and the next OFFER_ID. -/
  offered : Nat
  nextOffer : Nat
  offers : List Offer
  /-- Data received, by LBA offset. -/
  got : List (Nat × Rec)
  acked : Bool
  /-- FW_STAGE: units programmed. -/
  units : Nat
  subs : List Sub
  /-- QUEUE_RESET: orders of the commands it waits for. -/
  waitFor : List Nat
  /-- No STATUS is to be sent (R350, an entry device that reset). -/
  silent : Bool
  /-- Places read once more after a fault of their copy in the buffer (R289). -/
  again : List Place
  deriving DecidableEq, Repr

/-- A completion entry before PHASE and SQ_HEAD are set (R255). -/
inductive Post where
  | status (tag : BitVec 16) (st res info done nsid aux : Nat) (degraded unwritten more : Bool)
  | ready (tag : BitVec 16) (offer ofs count bytes : Nat)
  | event (code d0 d1 : Nat)
  deriving DecidableEq, Repr

/-- A deferred error (R258, R273). -/
structure Defer where
  seq : Nat
  src : CmdSrc
  nsid : Nat
  lba : Nat
  count : Nat
  status : Nat
  reported : Bool
  overflow : Bool
  timeSec : Nat
  deriving DecidableEq, Repr

/-- A ring pair beside its registers (R249-R253). -/
structure Ring where
  cqTail : Nat
  phase : Bool
  /-- Posts held while the completion ring is full, oldest first. -/
  held : List Post
  /-- Posts since the last interrupt. -/
  unsignalled : Nat
  /-- The beat of the first of them. -/
  unsigSince : Nat
  /-- Deferred errors owed, oldest first. -/
  defers : List Defer
  /-- No fetch until the next SQ_TAIL write (R447). -/
  stopped : Bool
  deriving DecidableEq, Repr

/-- A curtain in progress (R384): the order of the CURTAIN command that started it, if one did, whether a warm reset
follows, and the beat it began. -/
structure Curtain where
  cmd : Option Nat
  warm : Bool
  start : Nat
  /-- Rows discarded so far. -/
  discarded : List Row
  /-- The commit phase has ended; the final records are to follow. -/
  final : Bool
  deriving DecidableEq, Repr

/-- A forwarded write that E remembers (R349). -/
structure FwdRec where
  dev : Nat
  nsid : Nat
  loc : Nat
  count : Nat
  src : CmdSrc
  ensNsid : Nat
  ensLba : Nat
  deriving DecidableEq, Repr

/-- The command admitter and the queues. -/
structure Hq where
  rings : Vector Ring 16
  /-- Commands in fetch order. -/
  cmds : List Cmd
  /-- DATA_DESCRIPTOR and ABORT entries fetched and not yet acted on. -/
  entries : List (CmdSrc × Slot)
  /-- Acknowledged rows, in the order of acknowledgement. -/
  rows : List Row
  order : Nat
  lastRing : RingId
  deferLog : List Defer
  deferSeq : Nat
  ranges : Nat
  curtain : Option Curtain
  /-- A curtain has completed and no write has been acknowledged since (R380). -/
  curtained : Bool
  /-- The FW_ACTIVATE in progress: its order. -/
  activate : Option Nat
  fwd : List FwdRec
  /-- The drive holds a disc (R412). -/
  disc : Bool
  /-- UNLOAD has set the spindle target to 0 until the next LOAD (R280). -/
  unloaded : Bool
  ejected : Bool
  deriving DecidableEq, Repr

/-! ### The Sceral link (13_ensemble.md) -/

/-- A sequenced frame that is not acknowledged: its SEQ, the beat it was last sent in, and its payload. -/
structure Sent where
  seq : Nat
  sentIn : Nat
  load : Payload
  deriving DecidableEq, Repr

/-- Delivery to and from one peer (R326-R329). -/
structure Peer where
  txNext : Nat
  /-- Frames sent and not acknowledged, oldest first; and those waiting for the window. -/
  unacked : List Sent
  queue : List Payload
  rxNext : Nat
  /-- Frames accepted since the last acknowledgement, and the beat of the first of them; the beat of the last ACK with
  GAP. -/
  since : Nat
  firstIn : Nat
  gapSent : Option Nat
  /-- DIRECTORY frames of the epoch being received. -/
  parts : List DirRecord
  deriving DecidableEq, Repr

/-- What is known of a member from its heartbeats, its misses as counted here, and the beats of its last heartbeat on
either port. -/
structure Heard where
  epoch : Nat
  missA : Nat
  missB : Nat
  lastA : Option Nat
  lastB : Option Nat
  manager : Bool
  deriving DecidableEq, Repr

/-- A remote access this device has issued: its tag, who issued it, the device, and whether it writes. -/
structure RemoteOp where
  tag : Nat
  m : Master
  dev : Nat
  write : Bool
  off : Nat
  len : Nat
  deriving DecidableEq, Repr

/-- The PCIe function (R247, R393): identity has been read and the link is up, Bus Master Enable, ASPM L1 with L1.2. -/
structure Pcie where
  ready : Bool
  busMaster : Bool
  l12 : Bool
  deriving DecidableEq, Repr

structure Ens where
  peers : List (Nat × Peer)
  heard : List (Nat × Heard)
  remote : List RemoteOp
  nextTag : Nat
  hbCount : Nat
  /-- The beats of the last periodic heartbeat and of the last Sync. -/
  hbSent : Option Nat
  syncSent : Option Nat
  /-- The plane that is down or retraining, its clean count running: per port 0 up, 1 down, 2 retraining. -/
  portState : Vector Nat 2
  /-- Per port, the beat from which the clean time of R334 runs. -/
  cleanFrom : Vector Nat 2
  /-- The PATH_LOST chain's four-fold RTO is in force (R333). -/
  slowRto : Bool
  /-- A directory pull in progress: members asked and not answered, and the best epoch per table entry so far. -/
  pulling : List Nat
  /-- The beat of the pull. -/
  pullAt : Nat
  pullBest : List ((Fin 4 × Nat) × (Nat × Nat))
  /-- Members that have not acknowledged the distribution of the epoch. -/
  distributing : List Nat
  /-- Member-state changes of the manager waiting for the next epoch. -/
  changes : List (Fin 4 × Nat)
  /-- Local namespaces that the directory names in member entries (R338). -/
  memberNs : List Nat
  mdio : Option W32
  /-- PTP: send times noted for delay measurement. -/
  ptpT1 : Int
  ptpT2 : Int
  deriving DecidableEq, Repr

/-! ### Spindle and auxiliary motors (07_spindle_drive.md) -/

/-- The current loops and the speed loop (R188, R191). -/
structure CurrentLoops where
  /-- Integrators of the d and q axes in 1/256 mV; of the speed loop in 1/256 mA. -/
  intD : Int
  intQ : Int
  intW : Int
  /-- The q-axis reference in mA. -/
  iqRef : Int
  /-- Voltage vector (α, β) in mV in force, and the one computed for the next period. -/
  volts : Int × Int
  nextVolts : Int × Int
  deriving DecidableEq, Repr

/-- The back-EMF observer and its PLL (R190). -/
structure Observer where
  /-- Estimated current in mA and back-EMF in mV, both (α, β). -/
  est : Int × Int
  emf : Int × Int
  /-- Electrical angle in 2^-32 turn; speed in 2^-32 turn a period. -/
  theta : Nat
  omega : Int
  /-- Consecutive periods with the residual above OBS_TH (R202), below it, and with the PLL speed within 10 % of the ramp
  (R192). -/
  lost : Nat
  good : Nat
  near : Nat
  deriving DecidableEq, Repr

/-- The spindle drive beside its registers. -/
structure Spn where
  /-- Set-point in 1/10,000 rpm (R197). -/
  setpt : Nat
  /-- Last matching set-point (R356). -/
  kept : Nat
  /-- Start: 0 none, 1 align, 2 open-loop ramp, 3 off for 2 s after a failed start, 4 re-catch of a repeat (R192). -/
  phase : Nat
  /-- Open-loop ramp speed in 1/10,000 rpm. -/
  ramp : Nat
  startFails : Nat
  /-- Why the inverter is off: 0 it is not, 1 CUT, 2 undervoltage, 3 start abandoned, 4 loss, 5 chopper stuck on. -/
  off : Nat
  /-- Rotor too slow to re-catch: outputs inactive for STILL_MS (R203). -/
  still : Bool
  /-- The chopper output is kept inactive until reset (R201). -/
  chopBad : Bool
  /-- Compare values of U, V, W in force and for the next period (R186). -/
  compare : Vector Nat 3
  nextCompare : Vector Nat 3
  /-- The six outputs and the enable are driven. -/
  driven : Bool
  /-- Consecutive speed-loop periods within 0.5 % of the target (R197). -/
  near : Nat
  /-- Terminal voltages VU, VV, VW of the last re-catch sample in 10 mV, and the zero crossings found, newest first: place
  in the order of forward rotation, and beat (R202). -/
  lines : Option (Int × Int × Int)
  crossings : List (Nat × Nat)
  /-- The beat of the last re-catch sample; three crossings were found out of order; a line voltage reached VT_MIN. -/
  sampled : Option Nat
  muddled : Bool
  above : Bool
  /-- Beat since which all terminal voltages have been below 0.5 V (R203), and all line voltages below VT_MIN (R192). -/
  lowSince : Option Nat
  stillSince : Option Nat
  /-- Beat in which the phase, the off time or the attempt that runs began; in which the ramp reached HANDOVER; and in
  which RUN began (R192, R202, R203). -/
  since : Nat
  /-- Beat since which the bus has stood where a recovery wants it (R199). -/
  busSince : Option Nat
  /-- Consecutive bus samples of an open and of a stuck-on chopper; beat since which it has been ineffective (R201). -/
  openRun : Nat
  stuckRun : Nat
  weakSince : Option Nat
  /-- Beats of the last sample at the carrier's peak and at its 0. -/
  peakBeat : Option Nat
  /-- The beat of the last profile tick of the axes. -/
  tickBeat : Option Nat
  zeroBeat : Option Nat
  loops : CurrentLoops
  obs : Observer
  /-- Angle of the open-loop vector in 2^-32 turn (R192). -/
  openAngle : Nat
  /-- Which of its round-robin channels each converter takes next (R184). -/
  adcNext : Vector Nat 4
  /-- The last sample completed a pass of every converter (R184, R315). -/
  adcPass : Bool
  /-- Beat since which STATE has been STOPPED (R377). -/
  stoppedSince : Option Nat
  deriving DecidableEq, Repr

/-- A commutation ramp: its first cycle, its length in cycles, the step it leaves (R205). -/
structure AuxRamp where
  start : Nat
  len : Nat
  step : Nat
  deriving DecidableEq, Repr

/-- An auxiliary channel (R204-R208). -/
structure AuxState where
  /-- Off after OVERCURRENT, STALL or HALL_FAULT until EN is written 0 and then 1. -/
  latched : Bool
  /-- A fault's EN = 0 has been written. -/
  cleared : Bool
  /-- A0 moves to its target; A0 holds at it. -/
  moving : Bool
  holding : Bool
  /-- Cycle of the last Hall edge and length of the last step, in cue-fabric cycles. -/
  lastEdge : Nat
  stepLen : Nat
  /-- Cycle since which there has been neither a Hall edge nor a duty of 0 (R207). -/
  quietSince : Nat
  /-- Beat in which the hold at the target began (R208). -/
  holdSince : Nat
  /-- The step whose phases are driven, and the ramp to the next (R205). -/
  driveStep : Nat
  ramp : Option AuxRamp
  /-- Currents of phases U, V, W as last known, in mA (R206). -/
  currents : Vector Int 3
  /-- Beat of the last PWM period. -/
  period : Option Nat
  deriving DecidableEq, Repr
/-! ### Stepper axes (08_sled_and_axes.md) -/

/-- Homing in progress (R226): 0 the halt before it, 1 CLEAR, 2 SEEK, 3 BRAKE, 4 BACKOFF, 5 the stop of a failure. -/
structure Homing where
  stage : Nat
  /-- Position at the start of the stage; the latched position, and the beat it was latched in. -/
  start : Int
  latch : Int
  latchBeat : Option Nat
  /-- The qualified release has come. -/
  released : Bool
  why : Nat
  deriving DecidableEq, Repr

/-- An axis beside its registers. -/
structure AxisState where
  /-- Position p and speed v in 2^-24 microsteps (per beat), acceleration a in 2^-32 microsteps per beat² (R215). -/
  p : Int
  v : Nat
  a : Int
  /-- 0 idle, 1 accel, 2 decel. -/
  phase : Nat
  target : Int
  /-- Speed limit of a homing state in place of VMAX. -/
  cap : Option Nat
  /-- DECEL latched for the move, and the register value it was last compared with (R220). -/
  decel : Nat
  decelSeen : Option Nat
  /-- Target to go on to after a stop, and whether that stop is an overshoot (R219, R220). -/
  back : Option Int
  overshoot : Bool
  home : Option Homing
  /-- Bridges: 0 COAST, 1 chopping at IRUN, 2 at IHOLD, 3 SHORT (R210, R228). -/
  bridge : Nat
  /-- Chopper phase of windings A and B: 0 COAST, 1 on-phase, 2 off-time, 3 SHORT (R212); the cycle it began in. -/
  wind : Vector Nat 2
  windAt : Vector Nat 2
  /-- R214, per winding: the DAC code has reached 32 in the present on-phase; consecutive on-phases without a trip at such
  a code; consecutive trips at the first cycle after BLANK. -/
  strong : Vector Bool 2
  noTrip : Vector Nat 2
  early : Vector Nat 2
  /-- A ramp of the winding currents over 1 ms: the beat it began in, and whether it rises (R229). -/
  fade : Option (Nat × Bool)
  /-- Step pulses planned for the next beat: the cycle and the direction of each (R215, R216). -/
  plan : List (Nat × Int)
  /-- Step pulses of the last 300 µs, newest first: cycle and direction (R225). -/
  trail : List (Nat × Int)
  /-- HOLD_DELAY runs. -/
  holding : Bool
  /-- Coupling (R221): microsteps requested, issued so far, beats of the act used. -/
  cpl : Option (Int × Int × Nat)
  /-- Index and position in the house domain (R229). -/
  retained : Option (Nat × Int)
  /-- Ghost-light parking (R231): 0 not begun, 1 under way, 2 parked or counted as parked. -/
  park : Nat
  deriving DecidableEq, Repr

/-! ### Calibration (09_live_calibration.md) -/

/-- A dither cycle of a head (R240): the offset's number, its centre, its position (1 at c + S, 2 at c, 3 at c - S,
4 at c again, 5 going back), the act it started in, and the measurements so far: known bits, and the sum of their e². -/
structure Dither where
  offset : Nat
  centre : Int
  stage : Nat
  start : Nat
  ePlus : Option (Nat × Nat)
  e0 : Option (Nat × Nat)
  eMinus : Option (Nat × Nat)
  deriving DecidableEq, Repr

/-- The calibration engine beside its registers. Coefficients are numbered head times 1024, plus 64 for each spot and
its entry, or plus 512 and the head offset. -/
structure Cal where
  /-- Act of each coefficient's last step (R237). -/
  stepped : List (Nat × Nat)
  dither : Vector (Option Dither) 4
  /-- The offset whose turn is next (R240). -/
  turn : Vector Nat 4
  /-- Known bits that each head has read in free head time of this act, and the sum of their e² (R240). -/
  meas : Vector (Nat × Nat) 4
  deriving DecidableEq, Repr

/-! ### Power, reset and boot (15_power_reset_boot.md) -/

/-- The house domain and what a reset waits for, beside the registers. -/
structure Pwr where
  /-- A device reset follows, with this RESET_CAUSE, once what goes before it has ended (R381). -/
  resetDue : Option Nat
  /-- CAUSE of the discard record under R382 that has begun. -/
  stopping : Option Nat
  /-- PERST#, PFAIL_N asserted. -/
  perst : Bool
  pfail : Bool
  /-- PWR_EN_MAIN, PWR_EN_DDR; PGOOD_MAIN, PGOOD_DDR; WAKE#. -/
  enMain : Bool
  enDdr : Bool
  goodMain : Bool
  goodDdr : Bool
  wake : Bool
  /-- The link is in L2/L3 Ready (R380). -/
  l23 : Bool
  /-- Outputs are forced inactive until a device reset (R363, R382, R436). -/
  forced : Bool
  /-- The clock monitor's retained cause and count (R363, R371). -/
  monitor : Option (Nat × Nat)
  /-- The fan set-point before THERMAL_HIGH, and the beat since which every reading has been cool (R396). -/
  fanBefore : Option Nat
  coolSince : Option Nat
  /-- The state a life-cycle change goes to (R395). -/
  life : Option Nat
  /-- Readings at or above their threshold at the last check: bit 0 TJ and HIGH, bit 1 TJ and CRIT, bit 2 + k TEMPk
  (R396). -/
  hot : BitVec 6
  /-- The crystal has held frequency for 1 s: the alarm counts on it (R374). -/
  crystal : Bool
  /-- A discard record was written since the last device reset: what the flash shows as NEW (R398). -/
  newRecord : Bool
  /-- What start-up has still to do by the image's policy: bit 0 request PERFORMANCE, bit 1 run LOAD (R412). -/
  auto : BitVec 2
  /-- P3 HOUSE is to be entered at the next act boundary (R376, R380). -/
  toP3 : Bool
  deriving DecidableEq, Repr

/-- Everything but the memories and the queue of commands. -/
structure Dev where
  /-- Register values in force: offset and value, no entry equal to the reset value. -/
  regs : List (Nat × W32)
  /-- Staged values written since the last act boundary (R11). -/
  shadows : List (Nat × W32)
  /-- Writer codes of the masters that wrote the shadows. -/
  stagers : List (Nat × Nat)
  /-- Live registers as the engines sampled them at the last beat boundary (R63). -/
  sampled : List (Nat × W32)
  cue : Cue
  flt : Flt
  cfg : Cfg
  top : Top
  /-- Ensemble time: nanoseconds and seconds (R353). -/
  ns : Nat
  sec : Nat
  buf : Buf
  dma : Vector DmaCh 32
  /-- The last channel of each byte budget that was served (R311), by budget number. -/
  dmaTurn : Vector (Fin 32) 7
  heads : Vector HeadState 4
  sides : Vector SideState 2
  /-- The reallocation table: entry index, value and stored complement; unlisted entries are empty (R141). -/
  alloc : List (Nat × (BitVec 64 × BitVec 64))
  hq : Hq
  ens : Ens
  pcie : Pcie
  spn : Spn
  aux : Vector AuxState 2
  axes : Vector AxisState 8
  cal : Cal
  pwr : Pwr
  /-- Everything sent so far, newest first. -/
  sent : List Output
  /-- The model's own: how many free values have been drawn. -/
  draws : Nat
  deriving DecidableEq, Repr

/-- A line of the stage cache (R297, R301). -/
structure CLine where
  tag : Nat
  dirty : Bool
  data : List Byte
  presence : BitVec 4
  deriving DecidableEq, Repr

/-- A merge-buffer entry (R286): its line, and its bytes newest first: place in the line, byte, writer code. -/
structure MergeEntry where
  line : Nat
  bytes : List (Fin 64 × Byte × Nat)
  deriving DecidableEq, Repr

/-- An access through an alias that waits for a bank (R300): the DRAM offset it has still to do. -/
structure WaitAcc where
  m : Master
  cached : Bool
  fetch : Bool
  off : Nat
  /-- Bytes still to read; or the bytes still to write. -/
  readLeft : Nat
  toWrite : List Byte
  got : List Byte
  deriving DecidableEq, Repr

/-- A fill outstanding in a bank: its line, the requester code it runs for, whether it is a prefetch. -/
structure Fill where
  line : Nat
  req : Nat
  prefetch : Bool
  deriving DecidableEq, Repr

/-- A prefetch tracker (R302). -/
structure Tracker where
  req : Nat
  last : Nat
  stride : Int
  count : Nat
  deriving DecidableEq, Repr

/-- A maintenance operation: OP, BY, SET, WAY and the DRAM offset (R303). -/
structure Maint where
  op : Nat
  how : Nat
  set : Nat
  way : Nat
  off : Nat
  deriving DecidableEq, Repr

/-- The memories: configuration flash, DRAM and scratch SRAM as stored code symbols, and the buffer's merge buffer and
stage cache before the DRAM. -/
structure Mem where
  /-- Flash bytes; an unlisted byte is erased, 0xFF. -/
  flash : List Host.Cell
  /-- DRAM symbols by physical codeword times 10 plus symbol; unlisted ones read 0 (R284, R295). -/
  dram : List Host.Cell
  /-- Scratch SRAM symbols by word times 10 plus symbol; unlisted ones read 0 (R362, R295). -/
  sram : List Host.Cell
  /-- Merge entries, the one written longest ago first. -/
  merge : List MergeEntry
  /-- Lines by set times 16 plus way. -/
  lines : List (Nat × CLine)
  /-- Tree bits of each set; unlisted sets hold 0. -/
  plru : List (Nat × BitVec 15)
  fills : Vector (Option Fill) 4
  /-- Accesses waiting for each bank, first in first out. -/
  waits : Vector (List WaitAcc) 4
  /-- Prefetch trackers, most recently used first. -/
  trackers : List Tracker
  /-- The maintenance operation that runs (R304). -/
  maint : Option Maint
  deriving DecidableEq, Repr

/-- The machine. -/
structure State where
  dev : Dev
  mem : Mem
  /-- Waiting commands, first in, first out. -/
  pending : List Instr
  deriving DecidableEq, Repr

/-- No command stops with a fault: every access the spec calls absent is answered by R20. -/
inductive Fault where
  /-- Raised by no meaning of this model; safe. -/
  | none
  deriving DecidableEq, Repr

/-- Reasons a command is refused. -/
inductive Refusal where
  /-- Raised only by Dispatch for a row without a meaning; safe (the run stops). -/
  | notModelled (mnemonic : String)
  deriving DecidableEq, Repr

/-! ### Reset -/

def Cue.reset : Cue :=
  { act := 0, beat := 0, slot := 0, banks := Vector.replicate 2 CueImage.empty, swap := none, running := [],
    pending := [], fault := none, request := none, ownedEntry := false, coreDone := Vector.replicate 4 false,
    glBeat := 0, halted := 0, used := Vector.replicate 7 0, hit := Vector.replicate 7 false,
    byHand := [], actDone := false }

def Flt.reset : Flt :=
  { board := [], next := 0, repeats := [], waiting := [], copy := none, copyPending := none }

def Cfg.reset : Cfg :=
  { busy := none, waiting := [], rx := [], tx := [], rxLeft := 0, rxAddr := 0, buf := [], identity := none, policy := none }

def Top.reset : Top :=
  { i2c := Vector.replicate 4 { tx := [], rx := [], held := false, missed := 0 },
    cap := [], jtagErr := false, latches := [] }

def Mem.reset : Mem :=
  { flash := [], dram := [], sram := [], merge := [], lines := [], plru := [], fills := Vector.replicate 4 none,
    waits := Vector.replicate 4 [], trackers := [], maint := none }

def Buf.reset : Buf := { retired := 0, pages := [], recent := [], retiring := none, sramPos := 0 }

def DmaCh.reset : DmaCh :=
  { left := 0, src := 0, dst := 0, inFlight := 0, failing := none, linking := false, stopAt := 0,
    far := [], asked := 0, linkAt := 0, burst := 0 }

def Wobble.reset : Wobble :=
  { seen := false, next := 0, count := 0, freq := 0, layer := 0, side := 0, discards := 0, odd := none }

def SpotPath.reset : SpotPath :=
  { raw := [], carrier := 0, nco := 0, pos := 0, bits := [], xs := [], ys := [], es := [], soft := [], low := 0,
    runs := Vector.replicate 5 0, clear := 0, limits := Vector.replicate 18 0, metricFrames := 0, metricHere := false }

def CalWin.reset : CalWin := { bits := 0, e0 := 0, ePlus := 0, eMinus := 0, shadow := [] }

def SpotState.reset : SpotState :=
  { chan := .reset, frame := 0, predicted := 2048, frames := [], span := none, spans := [], load := none, win := .reset, longest := 0, flywheels := 0, noise := 0, dropTh := 0, opc := [],
    peakNew := none, peakAct := none }

def SecState.zero : SecState := { x1 := 0, x2 := 0, y1 := 0, y2 := 0 }

def LoopState.reset : LoopState :=
  { secs := Vector.replicate 4 .zero, before := Vector.replicate 4 .zero, last := 0, prev := 0, again := false, ofs := 0 }

def SabAct.reset : SabAct := { sum := 0, n := 0, seen := 0, off := false }

def HeadState.reset : HeadState :=
  { wobble := .reset, spots := Vector.replicate 8 .reset, crcRun := Vector.replicate 4 0, laneBlock := Vector.replicate 4 0,
    job := none, recover := [], lastRead := none, loops := Vector.replicate 5 .reset, sled := .zero, sledLp := 0, sledSteps := 0, trim := 0,
    focusClosed := true, trackClosed := true, tiltHeld := false, hold := none, quals := (0, 0), ends := 0, groupBeat := 0,
    grouped := false, crossSign := false, feSign := false, jump := none, good := Vector.replicate 3 0,
    bad := Vector.replicate 3 0, bandOk := false, sumAcc := 0, sumN := 0, limitBeats := 0, dither2 := false,
    gPlus := none, sab := .reset, afterJump := 0, sabCode := 0, seek := none, focusFails := 0, search := none, ladderOfs := (0, 0), resume := none,
    writing := none, gateOff := false,
    opcRun := none, opcFails := 0, opcDue := .none, temp := 0, opcTemps := [], freeBeats := 0, laserBad := 0, laserActs := [], lanes := false, lasers := false,
    rampFrom := none, advanced := false, faulted := false }

def SideState.reset : SideState :=
  { mounted := false, map := [], rows := [], found := [], lostRows := [], spareNext := [], opcUsed := [], verifyQ := [],
    replQ := [], takeover := false, stopHome := false, horizon := [], sequence := 0, snapSeq := none,
    toCommit := [], toConsume := [], toRealloc := [], recsSinceSnap := 0, entriesSinceSnap := 0, recFlight := none,
    recWanted := false, cleanWanted := false, lastRec := none, reached := [], discId := 0 }

def Ring.reset : Ring :=
  { cqTail := 0, phase := true, held := [], unsignalled := 0, unsigSince := 0, defers := [], stopped := false }

def Hq.reset : Hq :=
  { rings := Vector.replicate 16 .reset, cmds := [], entries := [], rows := [], order := 0, lastRing := 15,
    deferLog := [], deferSeq := 0, ranges := 0, curtain := none, curtained := false, activate := none, fwd := [],
    disc := false, unloaded := false, ejected := false }

def Peer.reset : Peer :=
  { txNext := 0, unacked := [], queue := [], rxNext := 0, since := 0, firstIn := 0, gapSent := none, parts := [] }

def Ens.reset : Ens :=
  { peers := [], heard := [], remote := [], nextTag := 0, hbCount := 0, hbSent := none, syncSent := none,
    portState := #v[1, 1], cleanFrom := #v[0, 0], slowRto := false, pulling := [], pullAt := 0, pullBest := [],
    distributing := [], changes := [], memberNs := [], mdio := none, ptpT1 := 0, ptpT2 := 0 }

def Spn.reset : Spn :=
  { setpt := 0, kept := 0, phase := 0, ramp := 0, startFails := 0, off := 0, still := false, chopBad := false,
    compare := Vector.replicate 3 0, nextCompare := Vector.replicate 3 0, driven := false, near := 0, lines := none,
    crossings := [], sampled := none, muddled := false, above := false, lowSince := none, stillSince := none, since := 0,
    busSince := none, openRun := 0, stuckRun := 0, weakSince := none, peakBeat := none, tickBeat := none, zeroBeat := none,
    loops := { intD := 0, intQ := 0, intW := 0, iqRef := 0, volts := (0, 0), nextVolts := (0, 0) },
    obs := { est := (0, 0), emf := (0, 0), theta := 0, omega := 0, lost := 0, good := 0, near := 0 },
    openAngle := 0, adcNext := Vector.replicate 4 0, adcPass := false, stoppedSince := some 0 }

def AuxState.reset : AuxState :=
  { latched := false, cleared := false, moving := false, holding := false, lastEdge := 0, stepLen := 0, quietSince := 0,
    holdSince := 0, driveStep := 0, ramp := none, currents := Vector.replicate 3 0, period := none }

def AxisState.reset : AxisState :=
  { p := 0, v := 0, a := 0, phase := 0, target := 0, cap := none, decel := 1, decelSeen := none, back := none,
    overshoot := false, home := none, bridge := 0, wind := Vector.replicate 2 0, windAt := Vector.replicate 2 0,
    strong := Vector.replicate 2 false, noTrip := Vector.replicate 2 0, early := Vector.replicate 2 0, fade := none,
    plan := [], trail := [], holding := false, cpl := none, retained := none, park := 0 }

def Cal.reset : Cal := { stepped := [], dither := Vector.replicate 4 none, turn := Vector.replicate 4 0, meas := Vector.replicate 4 (0, 0) }

def Pwr.reset : Pwr :=
  { resetDue := some 0, stopping := none, perst := false, pfail := false, enMain := true, enDdr := true, goodMain := true,
    goodDdr := true, wake := false, l23 := false, forced := false, monitor := none, fanBefore := none,
    coolSince := none, life := none, hot := 0, crystal := false, newRecord := false, auto := 0, toP3 := false }

/-- Every register at its reset value, every queue empty (R381, and the Reset columns). -/
def Dev.reset : Dev :=
  { regs := [], shadows := [], stagers := [], sampled := [], cue := .reset, flt := .reset, cfg := .reset, top := .reset,
    ns := 0, sec := 0,
    buf := .reset, dma := Vector.replicate 32 .reset, dmaTurn := Vector.replicate 7 31,
    heads := Vector.replicate 4 .reset, sides := Vector.replicate 2 .reset, alloc := [],
    hq := .reset, ens := .reset,
    pcie := { ready := false, busMaster := false, l12 := false },
    spn := .reset, aux := Vector.replicate 2 .reset,
    axes := Vector.replicate 8 .reset,
    cal := .reset, pwr := .reset,
    sent := [], draws := 0 }

/-- The machine right after reset; nothing waits. -/
def State.reset : State := { dev := .reset, mem := .reset, pending := [] }

end Sys2Proof.Machine
end

