-- ==== Sys2Proof/Machine/Ops.lean ====
section
/-! DEFINITION. The named operations every meaning is built from: reading and writing registers and their fields, the
call board, raising events, the run mode, and drawing a free value. -/

namespace Sys2Proof.Machine

/-! ### Offsets of TOP, CUE, FLT and CFG registers (R373, R420, R421, R424, R426) -/

abbrev rTopMode : Nat := 0x10
abbrev rCoreCtl (c : Core) : Nat := 0x100 + 0x10 * c.val
abbrev rCoreStat (c : Core) : Nat := 0x10C + 0x10 * c.val
abbrev rGpioIn : Nat := 0x200
abbrev rGpioCapCfg : Nat := 0x20C
abbrev rGpioCap : Nat := 0x210
abbrev rI2cCtl (h : Head) : Nat := 0x300 + 0x20 * h.val
abbrev rI2cStat (h : Head) : Nat := 0x304 + 0x20 * h.val
abbrev rI2cData (h : Head) : Nat := 0x308 + 0x20 * h.val
abbrev rHeadLines (h : Head) : Nat := 0x30C + 0x20 * h.val
abbrev rCueStatus : Nat := 0x10_0000
abbrev rCuePos : Nat := 0x10_0004
abbrev rCueActLo : Nat := 0x10_0008
abbrev rCueFaultPos : Nat := 0x10_0010
abbrev rCueFaultWhat : Nat := 0x10_0014
abbrev rCuePend (n : Fin 8) : Nat := 0x10_0020 + 4 * n.val
abbrev rCueInject : Nat := 0x10_0040
abbrev rOwnedHit : Nat := 0x10_0044
abbrev rOwnedAddr : Nat := 0x10_0048
abbrev rParamReject : Nat := 0x10_004C
abbrev rImageBuildLo : Nat := 0x10_0050
abbrev rImageVer : Nat := 0x10_0058
abbrev rSlack (n : Fin 12) : Nat := 0x10_0060 + 4 * n.val
abbrev rBudget (k : Fin 7) : Nat := 0x10_00A0 + 4 * k.val
abbrev rUsed (k : Fin 7) : Nat := 0x10_00C0 + 4 * k.val
abbrev rBoardStat : Nat := 0xE0_0000
abbrev rMismatch : Nat := 0xE0_0008
abbrev rMismatchAddr : Nat := 0xE0_000C
abbrev rSramStat : Nat := 0xE0_0010
abbrev rCopyStat : Nat := 0xE0_0014
abbrev rPostData (d : Fin 4) : Nat := 0xE0_0020 + 8 * d.val
abbrev rFltPost : Nat := 0xE0_0040
abbrev rGcnt (c : Nat) : Nat := 0xE0_0100 + 4 * c
abbrev rEvcnt (k : Fin 256) : Nat := 0xE0_0400 + 4 * k.val
abbrev rCfgStat : Nat := 0x100_0000
abbrev rFlashCmd : Nat := 0x100_0004
abbrev rFlashAddr : Nat := 0x100_0008
abbrev rFlashLen : Nat := 0x100_000C
abbrev rFlashStat : Nat := 0x100_0010
abbrev rFlashFifo : Nat := 0x100_0018
abbrev rFlashFifoStat : Nat := 0x100_001C
abbrev rFlashSlen : Nat := 0x100_0020

/-! ### Registers -/

/-- The value in force of the register at offset a. -/
def Dev.rd (d : Dev) (a : Nat) : W32 := sget d.regs (regReset a) a

/-- Set the value in force. -/
def Dev.wr (d : Dev) (a : Nat) (v : W32) : Dev := { d with regs := sset d.regs (regReset a) a v }

/-- The value the engines use in this beat (R63). -/
def Dev.smp (d : Dev) (a : Nat) : W32 := sget d.sampled (regReset a) a

/-- A field in force, as a number. -/
def Dev.fld (d : Dev) (a lo w : Nat) : Nat := fget (d.rd a) lo w

/-- Set a field. -/
def Dev.setF (d : Dev) (a lo w x : Nat) : Dev := d.wr a (fset (d.rd a) lo w x)

/-- One bit in force. -/
def Dev.flag (d : Dev) (a i : Nat) : Bool := d.fld a i 1 == 1

/-- Set one bit. -/
def Dev.setB (d : Dev) (a i : Nat) (b : Bool) : Dev := d.setF a i 1 (b2n b)

/-- Raise a counting field by n, saturating. -/
def Dev.bump (d : Dev) (a lo w : Nat) (n : Nat := 1) : Dev := d.setF a lo w (satAdd w (d.fld a lo w) n)

/-- A field in force read as two's complement. -/
def Dev.sfld (d : Dev) (a lo w : Nat) : Int := sgn w (d.fld a lo w)

/-- A field as the engines sampled it. -/
def Dev.smpF (d : Dev) (a lo w : Nat) : Nat := fget (d.smp a) lo w

/-- What a staged register reads back: its shadow until the act boundary, else the value in force (R11). -/
def Dev.shadow (d : Dev) (a : Nat) : W32 := (sfind d.shadows a).getD (d.rd a)

/-! ### Free values and output -/

/-- The next free value. -/
def Dev.fresh (d : Dev) : Nat := Config.freeValue d.draws

/-- The state after a free value is drawn. -/
def Dev.drawn (d : Dev) : Dev := { d with draws := d.draws + 1 }

/-- Draw a free value below n. -/
def Dev.draw (d : Dev) (n : Nat) : Dev × Nat := (d.drawn, d.fresh % n)

/-- Send something. -/
def Dev.emit (d : Dev) (o : Output) : Dev := { d with sent := o :: d.sent }

/-- Send a list of things, in order. -/
def Dev.emits (d : Dev) (os : List Output) : Dev := { d with sent := os.reverse ++ d.sent }

/-- Apply a change once for each element of a list, in order. -/
def Dev.each {α : Type} (d : Dev) (l : List α) (f : Dev → α → Dev) : Dev := l.foldl f d

/-- Do a change only if the condition holds. -/
def Dev.onlyIf (d : Dev) (b : Bool) (f : Dev → Dev) : Dev := if b then f d else d

/-- A quotient of integers that the spec states without its rounding: exact where it is whole, else one of the two
neighbours; free where the divisor is 0. -/
def quot (a : Int) (b : Nat) : Int :=
  if b = 0 then Config.divZero a
  else if a % b = 0 then a / b
  else a / b + (Config.roundBit a b % 2 : Nat)

/-- A value in a two's-complement format of w bits: itself where it fits, free otherwise. -/
def fits (w : Nat) (x : Int) : Int :=
  if -(2 ^ (w - 1)) ≤ x ∧ x < 2 ^ (w - 1) then x else Config.overflow w x

/-- A quotient rounded to either neighbour, freely each time: an accumulator whose fraction bits are not stated. -/
def Dev.near (d : Dev) (a : Int) (b : Nat) : Dev × Int :=
  if a % (b : Int) = 0 then (d, a / b) else (d.drawn, a / b + (d.fresh % 2 : Nat))

/-- The sum of integers. -/
def sumInts (l : List Int) : Int := l.foldl (· + ·) 0

/-- The next free value as a signed number of w bits. -/
def Dev.freshInt (d : Dev) (w : Nat) : Int := sgn w (d.fresh % 2 ^ w)

/-! ### Mode, time and position -/

/-- MODE: 0 REHEARSAL, 1 PERFORMANCE, 2 GHOST_LIGHT (R24). -/
def Dev.mode (d : Dev) : Nat := d.fld rTopMode 0 2
def Dev.rehearsal (d : Dev) : Bool := d.mode == 0
def Dev.performance (d : Dev) : Bool := d.mode == 1
def Dev.ghostLight (d : Dev) : Bool := d.mode == 2

/-- The cue fabric runs: CUE_STATUS.RUNNING, in power states P0 and P1 (R28, R376). -/
def Dev.fabric (d : Dev) : Bool := d.flag rCueStatus 0 && decide (d.fld 0xF0_0000 0 2 ≤ 1)

/-- Service has been stopped until a device reset: a discard record's steps have begun, or the outputs are forced
(R363, R382, R436). -/
def Dev.stopped (d : Dev) : Bool := d.pwr.stopping.isSome || d.pwr.forced

def Dev.safeStopped (d : Dev) : Bool := d.flag rCueStatus 3

/-- The engine has been halted by a schedule fault (R56). -/
def Dev.engineHalted (d : Dev) (n : Fin 12) : Bool := d.cue.halted.getLsbD n.val

/-- The motor outputs are inactive whatever the drives would do: safe stop (R59), or forced (R363, R382, R436). -/
def Dev.outputsHeld (d : Dev) : Bool := d.safeStopped || d.pwr.forced

/-- POS of R367: beat in [9:0], slot in [15:12]. -/
def Dev.pos (d : Dev) : Nat := d.cue.beat.val + d.cue.slot.val * 4096

/-- Beats since the fabric started. -/
def Dev.beats (d : Dev) : Nat := d.cue.act * 1024 + d.cue.beat.val

/-- The image in force (the active cue-store bank). -/
def Dev.image (d : Dev) : CueImage := if d.flag rCueStatus 1 then d.cue.banks[1] else d.cue.banks[0]

/-- The chain table in force (R47). -/
def Dev.chains (d : Dev) : List ChainHdr := if d.ghostLight then d.image.gl else d.image.main

/-- The chain of an event line in the table in force. -/
def Dev.chainOf (d : Dev) (line : Fin 256) : Option ChainHdr := d.chains.find? fun c => c.event == line

/-! ### The call board (R366-R368, R372) -/

/-- Master codes: CUE_OWNED_HIT.WRITER with BUF_LAST_KIND.REQUESTER's additions. -/
def writerCode : Master → Nat
  | .jtag => 0x00
  | .host => 0x01
  | .core c => 2 + c.val
  | .dma ch => 0x20 + ch.val
  | .peer _ => 0x80
  | .admitter => 0x06
  | .format => 0x07

/-- The newest entry of this act with this CODE and SOURCE (R368). -/
def Dev.boardTwin (d : Dev) (code source : Nat) : Option Entry :=
  d.flt.board.find? fun e => e.act == d.cue.act && e.code == code && e.source == source

/-- A new entry, overwriting the one 4,096 before it (R366). -/
def Dev.postNew (d : Dev) (code source act pos : Nat) (fatal inGl : Bool) (d0 d1 d2 d3 : Nat) : Dev :=
  let e : Entry := { seq := d.flt.next, code, source, fatal, merged := false, inGl, act, pos, count := 1,
                     timeNs := d.ns, timeSec := d.sec, d0, d1, d2, d3 }
  { d with flt.board := (e :: d.flt.board).take 4096, flt.next := (d.flt.next + 1) % 2 ^ 32 }

/-- Make a call-board entry for an occurrence at a given act and position, merged under R368. -/
def Dev.postAt (d : Dev) (code source act pos : Nat) (fatal inGl : Bool) (d0 d1 d2 d3 : Nat) : Dev :=
  match d.boardTwin code source with
  | some t =>
    if t.d0 = d0 then
      { d with flt.board := d.flt.board.map fun e =>
          if e.seq = t.seq then { e with count := satAdd 16 e.count 1, merged := true } else e }
    else d.postNew code source act pos fatal inGl d0 d1 d2 d3
  | none => d.postNew code source act pos fatal inGl d0 d1 d2 d3
/-- An entry for something detected now. -/
def Dev.post (d : Dev) (code source : Nat) (d0 d1 d2 d3 : Nat) : Dev :=
  d.postAt code source d.cue.act d.pos false d.ghostLight d0 d1 d2 d3

/-- Start a copy of the 256 newest entries, or let it pend (R372). -/
def Dev.copyBoard (d : Dev) (reason : Nat) : Dev :=
  match d.flt.copy with
  | some _ =>
    ({ d with flt.copyPending := some (d.flt.copyPending.getD reason) }).setB rCopyStat 1 true
  | none =>
    ({ d with flt.copy := some { reason, entries := (d.flt.board.take 256).reverse, timeSec := d.sec },
              cfg.waiting := d.cfg.waiting ++ [FlashOp.boardCopy] }).setB rCopyStat 0 true

/-- A trigger of R372: its entry carries FATAL, and the copy starts. -/
def Dev.postFatal (d : Dev) (code source : Nat) (d0 d1 d2 d3 : Nat) : Dev :=
  (d.postAt code source d.cue.act d.pos true d.ghostLight d0 d1 d2 d3).copyBoard code

/-- One detection of a fault class (R363). -/
def Dev.gcnt (d : Dev) (c : Nat) : Dev := d.bump (rGcnt c) 0 16

/-! ### Events (R43, R46, R368) -/

/-- The event's chain is running. -/
def Dev.chainRuns (d : Dev) (line : Fin 256) : Bool := d.cue.running.any fun c => c.ev.line == line

/-- Raise an event line: it counts (R368); it is latched unless it is latched already or its own chain runs (R46). -/
def Dev.raise (d : Dev) (line : Fin 256) (source d0 d1 d2 d3 : Nat) : Dev :=
  let d := d.bump (rEvcnt line) 0 16
  if !d.fabric || d.chainRuns line || d.cue.pending.any (fun e => e.line == line) then d
  else { d with cue.pending := d.cue.pending ++
          [{ line, source, d0, d1, d2, d3, act := d.cue.act, pos := d.pos, waited := 0 }] }

/-! ### Schedule faults (R54-R56, R59) -/

/-- Record a schedule fault in CUE_FAULT_POS and CUE_FAULT_WHAT, or count it in OTHERS (R55). A fault found once the
ghost-light sheet runs, while VALID still holds the first record, also counts: the rule names only those before
(notes/assumptions/23.md). -/
def Dev.recordFault (d : Dev) (engine cause chain : Nat) (inGl : Bool) : Dev :=
  if d.flag rCueFaultWhat 16 then d.bump rCueFaultWhat 8 8
  else
    (d.wr rCueFaultPos (BitVec.ofNat 32 (d.cue.beat.val + d.cue.slot.val * 2 ^ 12 + d.cue.act % 2 ^ 16 * 2 ^ 16))).wr
      rCueFaultWhat (BitVec.ofNat 32 (engine + cause * 16 + 2 ^ 16 + b2n inGl * 2 ^ 17 + chain * 2 ^ 24))

/-- An admission budget is exhausted: its HIT bit will show it (R37, R41). -/
def Dev.hitBudget (d : Dev) (k : Fin 7) : Dev := { d with cue.hit := d.cue.hit.set k true }

/-- Refuse a mode request with a reason (R25, R26). -/
def Dev.refuseMode (d : Dev) (why : Nat) : Dev := (d.setF rTopMode 12 4 why).setB rTopMode 9 true

end Sys2Proof.Machine
end

