-- ==== Sys2Proof/Machine/BufMem.lean ====
section
/-! DEFINITION. The buffer DRAM and the scratch SRAM: where a byte lies, reading and writing through the code, the
merge buffer, and the records of R291 and R362 (11_buffer_memory.md, 14_fault_handling.md). -/

namespace Sys2Proof.Machine

abbrev rBufStat : Nat := 0xA0_0000
abbrev rScrubCfg : Nat := 0xA0_0004
abbrev rScrubPos : Nat := 0xA0_0008
abbrev rBufCounts : Nat := 0xA0_000C
abbrev rBufLastLo : Nat := 0xA0_0010
abbrev rBufLastHi : Nat := 0xA0_0014
abbrev rBufWhere : Nat := 0xA0_0018
abbrev rBufKind : Nat := 0xA0_001C
abbrev rRetireStat : Nat := 0xA0_0028
abbrev rFwBase : Nat := 0xA0_002C
abbrev rFwSize : Nat := 0xA0_0030
abbrev rBankErr (b : Nat) : Nat := 0xA0_0080 + 4 * b

def State.onDev (s : State) (f : Dev → Dev) : State := { s with dev := f s.dev }
def State.onMem (s : State) (f : Mem → Mem) : State := { s with mem := f s.mem }

/-! ### Capacity and places (R14, R283) -/

/-- Banks not retired, in ascending order. -/
def Dev.bankmap (d : Dev) : List Nat := (List.range 32).filter fun b => !d.buf.retired.getLsbD b

def Dev.nb (d : Dev) : Nat := d.bankmap.length

/-- Installed bytes: 32, 64 or 128 GiB. -/
def Dev.installedBytes (d : Dev) : Nat := 32 * 2 ^ 30 * 2 ^ (d.fld rBufStat 0 2)

/-- Bytes mapped (R14, R283). -/
def Dev.mappedBytes (d : Dev) : Nat := d.installedBytes / 32 * d.nb

/-- A page lies in the firmware region (R296). -/
def Dev.fwPage (d : Dev) (p : Nat) : Bool :=
  decide (d.fld rFwBase 0 21 ≤ p) && decide (p < d.fld rFwBase 0 21 + d.fld rFwSize 0 21)

/-- Bytes the buffer allocator may use: the mapped ones without the firmware region and the listed pages (R292). -/
def Dev.allocBytes (d : Dev) : Nat :=
  d.mappedBytes - 65536 * (d.fld rFwSize 0 21 + (d.buf.pages.filter fun p => !d.fwPage p.1).length)

/-- A page is RETIRED and so unmapped for masters (R292). -/
def Dev.pageRetired (d : Dev) (off : Nat) : Bool := d.buf.pages.any fun p => p.1 == off / 65536 && p.2

/-- A master may reach this DRAM offset: aliases mapped, below the mapped capacity, page not retired (R14, R292). -/
def Dev.dramMapped (d : Dev) (off : Nat) : Bool :=
  d.flag rBufStat 3 && decide (off < d.mappedBytes) && !d.pageRetired off

/-- The physical place of a line: subchannel, bank, row, column line (R283). -/
structure Loc where
  sub : Nat
  bank : Nat
  row : Nat
  col : Nat
  deriving DecidableEq, Repr

/-- Where the line of a DRAM offset lies (R283). -/
def Dev.locate (d : Dev) (off : Nat) : Loc :=
  let line := off / 64
  let m := line / 4
  let n := m / 64
  { sub := line % 4, bank := d.bankmap.getD (n % d.nb) 0, row := n / d.nb, col := m % 64 }

/-- Key of the first stored symbol of the codeword that holds DRAM offset `off`. -/
def Dev.dramKey (d : Dev) (off : Nat) : Nat :=
  let l := d.locate off
  ((((l.sub * 32 + l.bank) * 262144 + l.row) * 64 + l.col) * 8 + off / 8 % 8) * 10

/-- The DRAM offset of the codeword that a stored symbol belongs to, the inverse of `dramKey`; none in a bank that no
offset reaches (R283). -/
def Dev.dramOffset (d : Dev) (key : Nat) : Option Nat :=
  let w := key / 10
  let line := w / 8
  let r := line / 64
  let place := d.bankmap.findIdx fun b => b == r / 262144 % 32
  if place < d.nb then
    some ((((r % 262144 * d.nb + place) * 64 + line % 64) * 4 + r / 262144 / 32) * 64 + w % 8 * 8)
  else none

/-- Keys of upset symbols at or above this belong to the scratch SRAM. -/
def sramUpsetBase : Nat := 2 ^ 48

/-- Symbols that have changed in the memories (faults of the cells). -/
def Mem.upset (m : Mem) (us : List (Nat × Byte)) : Mem :=
  us.foldl (fun m u =>
    if u.1 < sramUpsetBase then { m with dram := sset m.dram 0 u.1 (sget m.dram 0 u.1 ^^^ u.2) }
    else { m with sram := sset m.sram 0 (u.1 - sramUpsetBase) (sget m.sram 0 (u.1 - sramUpsetBase) ^^^ u.2) }) m

/-- The ten symbols stored from a key on. -/
def symbolsAt (m : List Host.Cell) (key : Nat) : List Nat :=
  (List.range 10).map fun i => (sget m (0 : Byte) (key + i)).toNat

/-- Store a codeword of ten symbols. -/
def storeSymbols (m : List Host.Cell) (key : Nat) (sy : List Nat) : List Host.Cell :=
  (List.range 10).foldl (fun m i => sset m (0 : Byte) (key + i) (BitVec.ofNat 8 (sy.getD i 0))) m

/-- Encode and store eight data bytes at a key. -/
def storeWord (m : List Host.Cell) (key : Nat) (bytes : List Byte) : List Host.Cell :=
  let d := bytes.map BitVec.toNat
  storeSymbols m key (d ++ rsEncode8 d)

def toBytes (l : List Nat) : List Byte := l.map (BitVec.ofNat 8)

/-! ### Error records (R289, R291) -/

/-- BUF_LAST_WHERE of a codeword; SYMBOL is 0xF when uncorrectable. -/
def whereWord (l : Loc) (cw symbol : Nat) : Nat :=
  l.sub / 2 + l.sub % 2 * 2 + l.bank * 4 + l.row % 2 ^ 18 * 2 ^ 7 + cw * 2 ^ 25 + symbol * 2 ^ 28

/-- BUF_LAST_* of an event. -/
def Dev.bufLast (d : Dev) (off kind req wh s0 s1 : Nat) : Dev :=
  (((d.wr rBufLastLo (BitVec.ofNat 32 (off / 8 * 8))).wr rBufLastHi (BitVec.ofNat 32 (off / 2 ^ 32))).wr
    rBufWhere (BitVec.ofNat 32 wh)).wr rBufKind (BitVec.ofNat 32 (kind + req % 256 * 2 ^ 8 + s0 * 2 ^ 16 + s1 * 2 ^ 24))

/-- A corrected event (R285, R291). -/
def Dev.bufCorrected (d : Dev) (off req symbol s0 s1 : Nat) : Dev :=
  let l := d.locate off
  let wh := whereWord l (off / 8 % 8) symbol
  let d := (((d.bufLast off 0 req wh s0 s1).bump rBufCounts 0 16).bump (rBankErr l.bank) 0 16).gcnt 0x04
  if d.buf.recent.contains (off / 64) then d
  else
    let d := d.post 0x0110 0x10 (off / 8 * 8) wh req (s0 + s1 * 256)
    { d with buf.recent := (off / 64 :: d.buf.recent).take 64 }

/-- An uncorrectable event: BUFFER_UNCORRECTABLE and its record (R289, R291). -/
def Dev.bufUncorrectable (d : Dev) (off req s0 s1 : Nat) : Dev :=
  let l := d.locate off
  let wh := whereWord l (off / 8 % 8) 0xF
  let d := (((d.bufLast off 1 req wh s0 s1).bump rBufCounts 16 8).bump (rBankErr l.bank) 16 8).gcnt 0x05
  (d.post 0x0111 0x10 (off / 8 * 8) wh req (s0 + s1 * 256)).raise 31 0x10 (off / 8 * 8) wh req (s0 + s1 * 256)

/-- An RMW_LOST event (R290, R291). -/
def Dev.bufRmwLost (d : Dev) (off writer s0 s1 : Nat) : Dev :=
  let l := d.locate off
  let wh := whereWord l (off / 8 % 8) 0xF
  let d := ((d.bufLast off 2 writer wh s0 s1).bump rBufCounts 24 8).bump (rBankErr l.bank) 16 8
  d.post 0x0112 0x10 (off / 8 * 8) wh writer 0

/-! ### Reading codewords, the merge buffer (R285-R287, R290) -/

/-- Merge one codeword's new bytes into the stored one: a read-modify-write, or a plain write when all eight are new. -/
def State.rmwCodeword (s : State) (off : Nat) (news : List (Fin 64 × Byte × Nat)) : State :=
  let cw := off / 8 % 8
  let mine := news.filter fun n => n.1.val / 8 == cw
  match mine with
  | [] => s
  | newest :: _ =>
    let key := s.dev.dramKey off
    let put (s : State) (old : List Byte) : State :=
      let word := (List.range 8).map fun i =>
        match mine.find? fun n => n.1.val % 8 == i with
        | some n => n.2.1
        | none => old.getD i 0
      s.onMem fun m => { m with dram := storeWord m.dram key word }
    if mine.length = 8 then put s []
    else match rsDecode8 (symbolsAt s.mem.dram key) with
      | .clean b => put s (toBytes b)
      | .corrected b i s0 s1 => put (s.onDev fun d => d.bufCorrected off newest.2.2 i s0 s1) (toBytes b)
      | .uncorrectable s0 s1 => s.onDev fun d => d.bufRmwLost off newest.2.2 s0 s1

/-- Flush a merge entry (R287). -/
def State.flushEntry (s : State) (e : MergeEntry) : State :=
  let s := s.onMem fun m => { m with merge := m.merge.filter fun x => x.line != e.line }
  (List.range 8).foldl (fun s w => s.rmwCodeword (e.line * 64 + 8 * w) e.bytes) s

/-- Flush the entry that holds a line, if any. -/
def State.flushLine (s : State) (line : Nat) : State :=
  match s.mem.merge.find? fun e => e.line == line with
  | some e => s.flushEntry e
  | none => s

/-- Read the codeword at an 8-aligned DRAM offset; none when it is uncorrectable (R285, R289). -/
def State.readCodeword (s : State) (off req : Nat) : State × Option (List Byte) :=
  let key := s.dev.dramKey off
  match rsDecode8 (symbolsAt s.mem.dram key) with
  | .clean b => (s, some (toBytes b))
  | .corrected b i s0 s1 =>
    let s := if s.dev.pageRetired off then s
      else (s.onMem fun m => { m with dram := storeWord m.dram key (toBytes b) }).onDev fun d =>
        d.bufCorrected off req i s0 s1
    (s, some (toBytes b))
  | .uncorrectable s0 s1 => (s.onDev fun d => d.bufUncorrectable off req s0 s1, none)

/-- Read n codewords from an 8-aligned offset on; none as soon as one is uncorrectable. -/
def State.readCodewords (s : State) (req : Nat) : Nat → Nat → State × Option (List Byte)
  | 0, _ => (s, some [])
  | n + 1, off =>
    let (s, a) := s.flushLine (off / 64) |>.readCodeword off req
    match a with
    | none => (s, none)
    | some a =>
      let (s, b) := s.readCodewords req n (off + 8)
      (s, b.map (a ++ ·))

/-- The buffer controller reads `len` bytes at a DRAM offset. -/
def State.bufRead (s : State) (off len req : Nat) : State × Option (List Byte) :=
  if len = 0 then (s, some []) else
  let first := off / 8
  let (s, r) := s.readCodewords req ((off + len - 1) / 8 + 1 - first) (first * 8)
  (s, r.map fun bs => (bs.drop (off - first * 8)).take len)

/-- Add a byte to an entry: it becomes the newest one of its place. -/
def addByte (bs : List (Fin 64 × Byte × Nat)) (i : Fin 64) (b : Byte) (w : Nat) : List (Fin 64 × Byte × Nat) :=
  (i, b, w) :: bs.filter fun x => x.1 != i

/-- Put narrow bytes of one line into the merge buffer (R286, R287). -/
def State.mergeWrite (s : State) (off : Nat) (bytes : List Byte) (writer : Nat) : State :=
  let line := off / 64
  let old := (s.mem.merge.find? fun e => e.line == line)
  -- a new line takes the place of the oldest entry when none is free
  let s := if old.isNone && decide (32 ≤ s.mem.merge.length) then
      match s.mem.merge.head? with
      | some e => s.flushEntry e
      | none => s
    else s
  let start := match old with | some e => e.bytes | none => []
  let news := (bytes.zipIdx).foldl (fun acc p =>
    addByte acc ⟨(off + p.2) % 64, Nat.mod_lt _ (by decide)⟩ p.1 writer) start
  let e : MergeEntry := { line, bytes := news }
  let s := s.onMem fun m => { m with merge := (m.merge.filter fun x => x.line != line) ++ [e] }
  if news.length = 64 then s.flushEntry e else s

/-- Write whole codewords (R286). A merge entry of the line is flushed first, so that writes keep their order. -/
def State.writeCodewords (s : State) : Nat → Nat → List Byte → State
  | 0, _, _ => s
  | n + 1, off, bytes =>
    let s := s.flushLine (off / 64)
    let key := s.dev.dramKey off
    (s.onMem fun m => { m with dram := storeWord m.dram key (bytes.take 8) }).writeCodewords n (off + 8) (bytes.drop 8)

/-- Split a narrow write at line boundaries. -/
def State.mergeLines (s : State) (writer : Nat) : Nat → Nat → List Byte → State
  | 0, _, _ => s
  | n + 1, off, bytes =>
    if bytes.isEmpty then s
    else
      let k := 64 - off % 64
      (s.mergeWrite off (bytes.take k) writer).mergeLines writer n (off + k) (bytes.drop k)

/-- The buffer controller writes bytes at a DRAM offset (R286). -/
def State.bufWrite (s : State) (off : Nat) (bytes : List Byte) (writer : Nat) : State :=
  if off % 8 = 0 ∧ bytes.length % 8 = 0 then s.writeCodewords (bytes.length / 8) off bytes
  else s.mergeLines writer (bytes.length / 64 + 2) off bytes

/-! ### Scratch SRAM (R362) -/

/-- Read the 64-bit SRAM word w; none when it is uncorrectable. -/
def State.sramWord (s : State) (w req : Nat) : State × Option (List Byte) :=
  match rsDecode8 (symbolsAt s.mem.sram (w * 10)) with
  | .clean b => (s, some (toBytes b))
  | .corrected b _ _ _ =>
    ((s.onMem fun m => { m with sram := storeWord m.sram (w * 10) (toBytes b) }).onDev fun d =>
      (d.bump rSramStat 0 16).gcnt 0x06, some (toBytes b))
  | .uncorrectable s0 s1 =>
    (s.onDev fun d => (((d.bump rSramStat 16 8).gcnt 0x07).post 0x0111 0x16 (8 * w) 0 req (s0 + s1 * 256)).raise
      31 0x16 (8 * w) 0 req (s0 + s1 * 256), none)

/-- Read n SRAM words. -/
def State.sramWords (s : State) (req : Nat) : Nat → Nat → State × Option (List Byte)
  | 0, _ => (s, some [])
  | n + 1, w =>
    let (s, a) := s.sramWord w req
    match a with
    | none => (s, none)
    | some a =>
      let (s, b) := s.sramWords req n (w + 1)
      (s, b.map (a ++ ·))

/-- Read bytes of the SRAM. -/
def State.sramRead (s : State) (off len req : Nat) : State × Option (List Byte) :=
  if len = 0 then (s, some []) else
  let first := off / 8
  let (s, r) := s.sramWords req ((off + len - 1) / 8 + 1 - first) first
  (s, r.map fun bs => (bs.drop (off - first * 8)).take len)

/-- Write bytes inside one SRAM word: whole words directly, else an internal read-modify-write. -/
def State.sramPut (s : State) (off : Nat) (bytes : List Byte) (writer : Nat) : State :=
  let w := off / 8
  let put (s : State) (word : List Byte) : State := s.onMem fun m => { m with sram := storeWord m.sram (w * 10) word }
  let merge (old : List Byte) : List Byte := old.take (off % 8) ++ bytes ++ old.drop (off % 8 + bytes.length)
  if bytes.length = 8 then put s bytes
  else match rsDecode8 (symbolsAt s.mem.sram (w * 10)) with
    | .clean b => put s (merge (toBytes b))
    | .corrected b _ _ _ => put (s.onDev fun d => (d.bump rSramStat 0 16).gcnt 0x06) (merge (toBytes b))
    | .uncorrectable _ _ => s.onDev fun d => ((d.bump rSramStat 24 8).gcnt 0x07).post 0x0113 0x16 (8 * w) writer 0 0

/-- Write bytes of the SRAM, word by word. -/
def State.sramWrite (s : State) (writer : Nat) : Nat → Nat → List Byte → State
  | 0, _, _ => s
  | n + 1, off, bytes =>
    if bytes.isEmpty then s
    else
      let k := 8 - off % 8
      (s.sramPut off (bytes.take k) writer).sramWrite writer n (off + k) (bytes.drop k)

/-! ### MERGE_FLUSH, SCRUB_LINE, SRAM_SCRUB -/

/-- 256 cycles have passed since the last write of the entry written longest ago: it is flushed (R287). -/
def execMergeFlush (upsets : List (Nat × Byte)) (s : State) : Host.Outcome State Fault Refusal :=
  let s := s.onMem fun m => m.upset upsets
  .next (match s.mem.merge.head? with
    | some e => s.flushEntry e
    | none => s)

/-- Patrol scrub reads the next mapped line and corrects it; retired pages are skipped (R288). -/
def execScrubLine (upsets : List (Nat × Byte)) (s : State) : Host.Outcome State Fault Refusal :=
  let s := s.onMem fun m => m.upset upsets
  let d := s.dev
  if d.fld rScrubCfg 0 16 = 0 ∨ d.flag rBufStat 2 ∨ !d.flag rBufStat 3 ∨ !d.fabric then .next s
  else
    let line := d.fld rScrubPos 0 31
    let s := if d.pageRetired (line * 64) then s
      else (List.range 8).foldl (fun s w => (s.flushLine line |>.readCodeword (line * 64 + 8 * w) 0x08).1) s
    .next (s.onDev fun d => d.setF rScrubPos 0 31 (if line + 1 < d.mappedBytes / 64 then line + 1 else 0))

/-- The SRAM scrub reads and corrects the next of 1,048,576 words (R362). -/
def execSramScrub (upsets : List (Nat × Byte)) (s : State) : Host.Outcome State Fault Refusal :=
  let s := s.onMem fun m => m.upset upsets
  let s := (s.sramWord s.dev.buf.sramPos 0x08).1
  .next (s.onDev fun d => { d with buf.sramPos := (d.buf.sramPos + 1) % 1048576 })

end Sys2Proof.Machine
end

