-- ==== Sys2Proof/Machine/Cache.lean ====
section
/-! DEFINITION. The stage cache: lookup, replacement, fills, prefetch, maintenance and disable (12_stage_cache_dma.md),
and accesses through the two DRAM aliases (R19, R20, R289). -/

namespace Sys2Proof.Machine

abbrev rScCtl : Nat := 0xB0_0000
abbrev rScStat : Nat := 0xB0_0004
abbrev rScMaint : Nat := 0xB0_0008
abbrev rScMaintLo : Nat := 0xB0_000C
abbrev rScMaintHi : Nat := 0xB0_0010
abbrev rScMaintStat : Nat := 0xB0_0014
abbrev rPfCfg : Nat := 0xB0_0018
abbrev rScHit : Nat := 0xB0_001C
abbrev rScMiss : Nat := 0xB0_0020
abbrev rDmaStat (ch : Chan) : Nat := 0xC0_0018 + 0x40 * ch.val

/-- SC_STAT.STATE: 0 DISABLED, 1 ENABLED, 2 DRAINING. -/
def Dev.scState (d : Dev) : Nat := d.fld rScStat 0 2

/-! ### Sets, ways and replacement (R297, R298) -/

def scSet (off : Nat) : Nat := off / 64 % 4096
def scTag (off : Nat) : Nat := off / 262144
def scBank (off : Nat) : Fin 4 := ⟨off / 64 % 4, Nat.mod_lt _ (by decide)⟩

/-- The way that holds the line of a DRAM offset. -/
def Mem.way (m : Mem) (off : Nat) : Option Nat :=
  (List.range 16).find? fun w => match sfind m.lines (scSet off * 16 + w) with
    | some l => l.tag == scTag off
    | none => false

/-- Tree pseudo-LRU: make every node on the way's path point away from it. -/
def plruTouch (t : BitVec 15) (way : Nat) : BitVec 15 :=
  let step (p : BitVec 15 × Nat) (lvl : Nat) : BitVec 15 × Nat :=
    let b := way.testBit (3 - lvl)
    let bit := BitVec.ofNat 15 (2 ^ p.2)
    (if b then p.1 &&& ~~~ bit else p.1 ||| bit, 2 * p.2 + 1 + b2n b)
  ((List.range 4).foldl step (t, 0)).1

/-- Tree pseudo-LRU: the way the nodes point to. -/
def plruVictim (t : BitVec 15) : Nat :=
  ((List.range 4).foldl (fun p _ => let b := t.getLsbD p.2; (2 * p.1 + b2n b, 2 * p.2 + 1 + b2n b)) (0, 0)).1

def Mem.touch (m : Mem) (set way : Nat) : Mem :=
  { m with plru := sset m.plru 0 set (plruTouch (sget m.plru 0 set) way) }

/-- The DRAM offset of the line held at a key. -/
def lineOff (key : Nat) (l : CLine) : Nat := (l.tag * 4096 + key / 16) * 64

/-- Write a dirty line back as a whole line (R286); the line stays as it is in the cache. -/
def State.writeBack (s : State) (key : Nat) : State :=
  match sfind s.mem.lines key with
  | some l => if l.dirty then s.bufWrite (lineOff key l) l.data 0x00 else s
  | none => s

/-- Drop a line, in every L1 as well (R301). -/
def Mem.dropLine (m : Mem) (key : Nat) : Mem := { m with lines := sdel m.lines key }

/-- Mark a line clean. -/
def Mem.cleanLine (m : Mem) (key : Nat) : Mem :=
  match sfind m.lines key with
  | some l => { m with lines := sput m.lines key { l with dirty := false } }
  | none => m

/-- The way a new line of the set takes: an invalid one first, else the pseudo-LRU victim. -/
def Mem.victimWay (m : Mem) (set : Nat) : Nat :=
  match (List.range 16).find? fun w => (sfind m.lines (set * 16 + w)).isNone with
  | some w => w
  | none => plruVictim (sget m.plru 0 set)

/-- Place a line, writing back a dirty victim (R299). -/
def State.place (s : State) (off : Nat) (data : List Byte) (dirty : Bool) : State :=
  let set := scSet off
  let way := s.mem.victimWay set
  let key := set * 16 + way
  (s.writeBack key).onMem fun m =>
    ({ m with lines := sput m.lines key { tag := scTag off, dirty, data, presence := 0 } }).touch set way

/-- Fetch a whole line into the cache; false when it is uncorrectable, and then no line is allocated (R289, R299). -/
def State.fillLine (s : State) (line req : Nat) : State × Bool :=
  let (s, r) := s.bufRead (line * 64) 64 req
  match r with
  | some data => (s.place (line * 64) data false, true)
  | none => (s, false)

/-- The control core whose requester code this is. -/
def coreOf (m : Master) : Option Core := match m with | .core c => some c | _ => none

/-- Presence after a read by `m`: its own bit joins; after a write every other core's bit goes (R301). -/
def presenceAfter (p : BitVec 4) (m : Master) (write : Bool) : BitVec 4 :=
  let own : BitVec 4 := match coreOf m with | some c => BitVec.ofNat 4 (2 ^ c.val) | none => 0
  if write then p &&& own else p ||| own

/-- Serve a read from a line held at a key. -/
def State.lineRead (s : State) (m : Master) (key off len : Nat) : State × List Byte :=
  match sfind s.mem.lines key with
  | some l =>
    let l' := { l with presence := presenceAfter l.presence m false }
    (s.onMem fun mm => ({ mm with lines := sput mm.lines key l' }).touch (key / 16) (key % 16),
      (l.data.drop (off % 64)).take len)
  | none => (s, [])

/-- Write into a line held at a key; it becomes dirty. -/
def State.lineWrite (s : State) (m : Master) (key off : Nat) (bytes : List Byte) : State :=
  match sfind s.mem.lines key with
  | some l =>
    let l' := { l with dirty := true, presence := presenceAfter l.presence m true,
                       data := l.data.take (off % 64) ++ bytes ++ l.data.drop (off % 64 + bytes.length) }
    s.onMem fun mm => ({ mm with lines := sput mm.lines key l' }).touch (key / 16) (key % 16)
  | none => s

/-! ### Prefetch (R302) -/

/-- The tracker of a requester after an access to a line. -/
def trackerStep (t : Option Tracker) (req line maxStride : Nat) : Tracker :=
  match t with
  | none => { req, last := line, stride := 0, count := 0 }
  | some t =>
    let st : Int := (line : Int) - t.last
    if st = 0 then t
    else if st.natAbs > maxStride then { t with last := line, stride := 0, count := 0 }
    else if st = t.stride then { t with last := line, count := t.count + 1 }
    else { t with last := line, stride := st, count := 1 }

/-- Issue prefetch fills for the lines ahead that are absent, where their bank is idle. -/
def State.prefetchAhead (s : State) (line : Nat) (stride : Int) (depth : Nat) : State :=
  (List.range depth).foldl (fun s k =>
    let l : Int := line + stride * (k + 1)
    if l < 0 then s
    else
      let l := l.toNat
      let b := scBank (l * 64)
      if !s.dev.dramMapped (l * 64) || (s.mem.way (l * 64)).isSome || (s.mem.fills[b]).isSome then s
      else s.onMem fun m => { m with fills := m.fills.set b (some { line := l, req := 0x09, prefetch := true }) }) s

/-- A demand access through the cached alias trains its requester's tracker. -/
def State.train (s : State) (req line : Nat) : State :=
  let d := s.dev
  if d.scState ≠ 1 ∨ !d.flag rScCtl 1 then s
  else
    let t := trackerStep (s.mem.trackers.find? fun t => t.req == req) req line (d.fld rPfCfg 8 8)
    let s := s.onMem fun m => { m with trackers := (t :: m.trackers.filter fun x => x.req != req).take 16 }
    if t.count ≥ d.fld rPfCfg 4 3 ∧ t.stride ≠ 0 then s.prefetchAhead line t.stride (d.fld rPfCfg 0 4) else s

/-! ### Answers (R20, R289) -/

/-- Stop a DMA channel with an error code once its writes have answered (R314, R318). -/
def Dev.dmaFail (d : Dev) (ch : Chan) (code : Nat) : Dev :=
  if d.flag (rDmaStat ch) 0 then { d with dma := vmod d.dma ch fun c => { c with failing := some code } } else d

/-- An access to an unmapped address: a call-board entry, and the requester's answer (R20). A peer's NAK is sent by
what serves its request. -/
def Dev.unmapped (d : Dev) (m : Master) (addr : Nat) (write : Bool) : Dev :=
  let d := d.post 0x0100 0x17 addr (writerCode m) (b2n write) 0
  match m with
  | .core c => d.emit (.accessFault (.core c) write)
  | .dma ch => (d.dmaFail ch 3).emit (.dmaError ch 3)
  | .host => if write then d.emit (.discarded .host) else d.emit (.completerAbort .host)
  | .peer _ => d
  | .jtag => { d.emit (if write then .discarded .jtag else .data .jtag [0, 0, 0, 0]) with top.jtagErr := true }
  | .admitter => d.emit (.discarded .admitter)
  | .format => d.emit (.discarded .format)

/-- A read that met an uncorrectable codeword: the requester's answer (R289). -/
def Dev.uncorrectable (d : Dev) (m : Master) : Dev :=
  match m with
  | .core c => d.emit (.accessFault (.core c) false)
  | .dma ch => (d.dmaFail ch 4).emit (.dmaError ch 4)
  | .host => d.emit (.completerAbort .host)
  | .peer _ => d
  | .jtag => { d.emit (.data .jtag [0, 0, 0, 0]) with top.jtagErr := true }
  | .admitter => d.emit (.discarded .admitter)
  | .format => d.emit (.discarded .format)

/-! ### Accesses through the aliases -/

/-- What one piece of an access, inside one line, meets. -/
inductive PieceRes where
  | read (bytes : List Byte)
  | written
  | uncorrectable
  | miss
  deriving DecidableEq, Repr

/-- Do one piece of an access against cache and buffer; a miss that allocates is answered `miss` (R19, R299, R306). -/
def State.piece (s : State) (m : Master) (cached : Bool) (off len : Nat) (wr : Option (List Byte)) :
    State × PieceRes :=
  let st := s.dev.scState
  let direct (s : State) : State × PieceRes := match wr with
    | some bs => (s.bufWrite off bs (writerCode m), .written)
    | none => match s.bufRead off len (writerCode m) with
      | (s, some bs) => (s, .read bs)
      | (s, none) => (s, .uncorrectable)
  if st = 0 then direct s
  else match s.mem.way off with
    | some w =>
      let s := s.onDev fun d => d.bump rScHit 0 32
      let key := scSet off * 16 + w
      match wr with
      | some bs => (s.lineWrite m key off bs, .written)
      | none => let (s, bs) := s.lineRead m key off len; (s, .read bs)
    | none =>
      let s := s.onDev fun d => d.bump rScMiss 0 32
      if cached && st == 1 then (s, .miss) else direct s

/-- The base of the alias an access came through. -/
def aliasBase (cached : Bool) : Nat := if cached then 0x20_0000_0000 else 0x40_0000_0000

/-- Serve the piece that a fill was fetched for, from its line. -/
def State.serveFilled (s : State) (a : WaitAcc) (len : Nat) : State × WaitAcc :=
  match s.mem.way a.off with
  | none => (s, a)
  | some w =>
    let key := scSet a.off * 16 + w
    if a.toWrite.isEmpty then
      let (s, bs) := s.lineRead a.m key a.off len
      (s, { a with off := a.off + len, readLeft := a.readLeft - len, got := a.got ++ bs })
    else (s.lineWrite a.m key a.off (a.toWrite.take len),
          { a with off := a.off + len, toWrite := a.toWrite.drop len })

/-- Bytes of the access inside its first line. -/
def WaitAcc.pieceLen (a : WaitAcc) : Nat :=
  min (64 - a.off % 64) (if a.toWrite.isEmpty then a.readLeft else a.toWrite.length)

/-- Carry an access on, line by line, until it is answered or waits for a bank (R299, R300). -/
def State.runAcc : Nat → State → WaitAcc → State
  | 0, s, _ => s
  | fuel + 1, s, a =>
    let write := !a.toWrite.isEmpty
    if a.readLeft = 0 ∧ !write then
      if a.got.isEmpty then s else s.onDev fun d => d.emit (.data a.m a.got)
    else if !s.dev.dramMapped a.off then s.onDev fun d => d.unmapped a.m (aliasBase a.cached + a.off) write
    else
      let b := scBank a.off
      if s.dev.scState ≠ 0 ∧ (s.mem.fills[b]).isSome then
        s.onMem fun m => { m with waits := vmod m.waits b fun l => l ++ [a] }
      else
        let len := a.pieceLen
        let (s, r) := s.piece a.m a.cached a.off len (if write then some (a.toWrite.take len) else none)
        let s := if a.cached then s.train (writerCode a.m) (a.off / 64) else s
        match r with
        | .read bs => s.runAcc fuel { a with off := a.off + len, readLeft := a.readLeft - len, got := a.got ++ bs }
        | .written => s.runAcc fuel { a with off := a.off + len, toWrite := a.toWrite.drop len }
        | .uncorrectable => s.onDev fun d => d.uncorrectable a.m
        | .miss => s.onMem fun m =>
            { m with fills := m.fills.set b (some { line := a.off / 64, req := writerCode a.m, prefetch := false }),
                     waits := vmod m.waits b fun l => l ++ [a] }

/-- Lines an access can touch, and one step for its answer. -/
def WaitAcc.fuel (a : WaitAcc) : Nat := (a.readLeft + a.toWrite.length) / 64 + 3

/-- The accesses that waited for a bank go on in order. -/
def State.resume (s : State) (b : Fin 4) : State :=
  let ws := s.mem.waits[b]
  let s := s.onMem fun m => { m with waits := m.waits.set b [] }
  ws.foldl (fun s a => s.runAcc a.fuel a) s

/-- The fill outstanding in a bank completes: its line is placed, the access that caused it is served, and the bank
resumes service (R300). -/
def State.finishFill (s : State) (b : Fin 4) : State :=
  match s.mem.fills[b] with
  | none => s
  | some f =>
    let (s, ok) := s.fillLine f.line f.req
    let s := s.onMem fun m => { m with fills := m.fills.set b none }
    if f.prefetch then s.resume b
    else
      let ws := s.mem.waits[b]
      let s := s.onMem fun m => { m with waits := m.waits.set b [] }
      match ws with
      | [] => s
      | a :: rest =>
        let s := if ok then let (s, a) := s.serveFilled a a.pieceLen; s.runAcc a.fuel a
          else s.onDev fun d => d.uncorrectable a.m
        rest.foldl (fun s a => s.runAcc a.fuel a) s

/-- A stage-cache fill completes and its bank resumes service. -/
def execCacheFillDone (bank : Fin 4) (upsets : List (Nat × Byte)) (s : State) : Host.Outcome State Fault Refusal :=
  .next ((s.onMem fun m => m.upset upsets).finishFill bank)

/-- An access made whole at once (DMA bursts, remote accesses, the admitter and format engine): a bank's outstanding
fill completes first, and a miss that allocates is filled in place. Bytes for a read, [] for a write; an error code:
3 unmapped, 4 uncorrectable. -/
def State.accNow : Nat → State → Master → Bool → Nat → Nat → List Byte → State × Except Nat (List Byte)
  | 0, s, _, _, _, _, _ => (s, .ok [])
  | fuel + 1, s, m, cached, off, readLeft, toWrite =>
    let write := !toWrite.isEmpty
    if readLeft = 0 ∧ !write then (s, .ok [])
    else if !s.dev.dramMapped off then (s, .error 3)
    else
      let s := if s.dev.scState ≠ 0 then s.finishFill (scBank off) else s
      let len := min (64 - off % 64) (if write then toWrite.length else readLeft)
      let wr := if write then some (toWrite.take len) else none
      let (s, r) := s.piece m cached off len wr
      let s := if cached then s.train (writerCode m) (off / 64) else s
      let (s, r) := match r with
        | .miss =>
          let (s, ok) := s.fillLine (off / 64) (writerCode m)
          if ok then
            match s.mem.way off with
            | some w =>
              let key := scSet off * 16 + w
              match wr with
              | some bs => (s.lineWrite m key off bs, PieceRes.written)
              | none => let (s, bs) := s.lineRead m key off len; (s, .read bs)
            | none => (s, .uncorrectable)
          else (s, .uncorrectable)
        | r => (s, r)
      match r with
      | .read bs =>
        let (s, rest) := s.accNow fuel m cached (off + len) (readLeft - len) []
        (s, rest.map (bs ++ ·))
      | .written => s.accNow fuel m cached (off + len) 0 (toWrite.drop len)
      | _ => (s, .error 4)

/-- Bytes at an internal address in scratch SRAM or in a DRAM alias, read whole; an error code otherwise: 3 unmapped,
4 uncorrectable (R13, R298). -/
def State.readInternal (s : State) (m : Master) (addr len : Nat) : State × Except Nat (List Byte) :=
  if 0x800_0000 ≤ addr ∧ addr + len ≤ 0x880_0000 then
    match s.sramRead (addr - 0x800_0000) len (writerCode m) with
    | (s, some bs) => (s, .ok bs)
    | (s, none) => (s, .error 4)
  else if 0x200_0000 ≤ addr ∧ addr + len ≤ 0x280_0000 then
    match s.sramRead (addr - 0x200_0000) len (writerCode m) with
    | (s, some bs) => (s, .ok bs)
    | (s, none) => (s, .error 4)
  else if 0x20_0000_0000 ≤ addr ∧ addr < 0x40_0000_0000 then
    s.accNow (len / 64 + 3) m true (addr - 0x20_0000_0000) len []
  else if 0x40_0000_0000 ≤ addr ∧ addr < 0x60_0000_0000 then
    s.accNow (len / 64 + 3) m false (addr - 0x40_0000_0000) len []
  else (s, .error 3)

/-- Write bytes at an internal address in scratch SRAM or in a DRAM alias. -/
def State.writeInternal (s : State) (m : Master) (addr : Nat) (bytes : List Byte) : State × Except Nat Unit :=
  let len := bytes.length
  let done (r : State × Except Nat (List Byte)) : State × Except Nat Unit := (r.1, r.2.map fun _ => ())
  if 0x800_0000 ≤ addr ∧ addr + len ≤ 0x880_0000 then
    (s.sramWrite (writerCode m) (len / 8 + 2) (addr - 0x800_0000) bytes, .ok ())
  else if 0x200_0000 ≤ addr ∧ addr + len ≤ 0x280_0000 then
    (s.sramWrite (writerCode m) (len / 8 + 2) (addr - 0x200_0000) bytes, .ok ())
  else if 0x20_0000_0000 ≤ addr ∧ addr < 0x40_0000_0000 then
    done (s.accNow (len / 64 + 3) m true (addr - 0x20_0000_0000) 0 bytes)
  else if 0x40_0000_0000 ≤ addr ∧ addr < 0x60_0000_0000 then
    done (s.accNow (len / 64 + 3) m false (addr - 0x40_0000_0000) 0 bytes)
  else (s, .error 3)

/-! ### Maintenance (R303-R305) -/

/-- A write of SC_MAINT: its fields are held, and GO is answered by its tests in the order of R304. -/
def State.maintWrite (s : State) (v : W32) : State :=
  let d := s.dev
  let keep (s : State) : State := s.onDev fun d => d.wr rScMaint (v &&& 0x1F_FFFF)
  if !v.getLsbD 31 then keep s
  else
    let op := fget v 0 3; let how := fget v 3 2
    let addr := (d.rd rScMaintLo).toNat + d.fld rScMaintHi 0 16 * 2 ^ 32
    let off := if 0x40_0000_0000 ≤ addr then addr - 0x40_0000_0000 else addr - 0x20_0000_0000
    let inAlias := decide (0x20_0000_0000 ≤ addr ∧ addr < 0x60_0000_0000) && decide (off < d.mappedBytes) &&
      d.flag rBufStat 3
    let why : Nat :=
      if d.flag rScMaintStat 0 then 3
      else if op = 0 then 0
      else if op ≥ 5 ∨ how = 3 ∨ (op = 4 ∧ how ≠ 0) then 6
      else if op ≠ 4 ∧ d.performance then 1
      else if how = 0 ∧ !inAlias then 2
      else if op = 4 ∧ addr % 64 ≠ 0 then 4
      else if op = 4 ∧ d.scState ≠ 1 then 5
      else 0
    if why ≠ 0 then s.onDev fun d => (d.setB rScMaintStat 2 true).setF rScMaintStat 4 4 why
    else if op = 0 ∨ d.scState ≠ 1 then (keep s).onDev fun d => d.setB rScMaintStat 1 true
    else ((keep s).onDev fun d => d.setB rScMaintStat 0 true).onMem fun m =>
      { m with maint := some { op, how, set := fget v 5 12, way := fget v 17 4, off } }

/-- The keys of the lines an operation acts on. -/
def Mem.maintKeys (m : Mem) (o : Maint) : List Nat :=
  match o.how with
  | 0 => match m.way o.off with | some w => [scSet o.off * 16 + w] | none => []
  | 1 => if (sfind m.lines (o.set * 16 + o.way)).isSome then [o.set * 16 + o.way] else []
  | _ => m.lines.map (·.1)

/-- CLEAN, INVALIDATE or CLEAN_INVALIDATE on one line. -/
def State.maintLine (s : State) (op key : Nat) : State :=
  let s := if op ≠ 2 then (s.writeBack key).onMem fun m => m.cleanLine key else s
  if op ≠ 1 then s.onMem fun m => m.dropLine key else s

/-- ZERO_LINE: the line is allocated without a fetch, zeroed and dirty. -/
def State.zeroLine (s : State) (off : Nat) : State :=
  let zeros := List.replicate 64 (0 : Byte)
  match s.mem.way off with
  | some w =>
    let key := scSet off * 16 + w
    s.onMem fun m => match sfind m.lines key with
      | some l => ({ m with lines := sput m.lines key { l with dirty := true, data := zeros, presence := 0 } }).touch
          (scSet off) w
      | none => m
  | none => s.place off zeros true

/-- The fill an operation has to wait for (R305). -/
def Mem.maintBlocked (m : Mem) (o : Maint) : Bool :=
  match o.how with
  | 0 => (m.fills[scBank o.off]).any fun f => f.line == o.off / 64
  | 1 => (m.fills[(⟨o.set % 4, Nat.mod_lt _ (by decide)⟩ : Fin 4)]).any fun f =>
      scSet (f.line * 64) == o.set && m.victimWay o.set == o.way
  | _ => m.fills.toList.any Option.isSome

/-- The maintenance operation that runs completes, once no fill it waits for is outstanding (R304, R305). -/
def execMaintDone (s : State) : Host.Outcome State Fault Refusal :=
  .next (match s.mem.maint with
    | none => s
    | some o =>
      if s.mem.maintBlocked o then s
      else
        let s := if o.op = 4 then s.zeroLine o.off
          else (s.mem.maintKeys o).foldl (fun s k => s.maintLine o.op k) s
        (s.onMem fun m => { m with maint := none }).onDev fun d =>
          (d.setB rScMaintStat 0 false).setB rScMaintStat 1 true)

/-- SC_MAINT.GO with OP 0. -/
def execMaintNone (_m : Master) (v : W32) (s : State) : Host.Outcome State Fault Refusal :=
  .next (s.maintWrite (fset (fset v 0 3 0) 31 1 1))
/-- SC_MAINT.GO with OP CLEAN. -/
def execMaintClean (_m : Master) (v : W32) (s : State) : Host.Outcome State Fault Refusal :=
  .next (s.maintWrite (fset (fset v 0 3 1) 31 1 1))
/-- SC_MAINT.GO with OP INVALIDATE. -/
def execMaintInvalidate (_m : Master) (v : W32) (s : State) : Host.Outcome State Fault Refusal :=
  .next (s.maintWrite (fset (fset v 0 3 2) 31 1 1))
/-- SC_MAINT.GO with OP CLEAN_INVALIDATE. -/
def execMaintCleanInvalidate (_m : Master) (v : W32) (s : State) : Host.Outcome State Fault Refusal :=
  .next (s.maintWrite (fset (fset v 0 3 3) 31 1 1))
/-- SC_MAINT.GO with OP ZERO_LINE. -/
def execMaintZeroLine (_m : Master) (v : W32) (s : State) : Host.Outcome State Fault Refusal :=
  .next (s.maintWrite (fset (fset v 0 3 4) 31 1 1))

/-! ### Enable and disable (R306) -/

/-- A write of SC_CTL. -/
def State.scCtlWrite (s : State) (v : W32) : State :=
  let st := s.dev.scState
  if v.getLsbD 0 then
    if st = 2 then s.onDev fun d => d.setB rScStat 19 true
    else if st = 0 then
      (s.onMem fun m => { m with lines := [] }).onDev fun d => (d.wr rScCtl (v &&& 3)).setF rScStat 0 2 1
    else s.onDev fun d => d.wr rScCtl (v &&& 3)
  else s.onDev fun d => (d.wr rScCtl (v &&& 3)).setF rScStat 0 2 (if st = 0 then 0 else 2)

/-- SC_CTL.EN = 0 starts the drain. -/
def execScDisable (_m : Master) (v : W32) (s : State) : Host.Outcome State Fault Refusal :=
  .next (s.scCtlWrite (fset v 0 1 0))

/-- SC_CTL.EN = 1 enables a disabled cache, or is refused during a drain. -/
def execScEnable (_m : Master) (v : W32) (s : State) : Host.Outcome State Fault Refusal :=
  .next (s.scCtlWrite (fset v 0 1 1))

/-- The drain completes, after every outstanding fill and the maintenance operation that ran: dirty lines are written
back, every line is invalid, STATE is DISABLED. -/
def execDrainEnd (s : State) : Host.Outcome State Fault Refusal :=
  .next (if s.dev.scState ≠ 2 ∨ s.mem.maint.isSome ∨ s.mem.fills.toList.any Option.isSome then s
    else
      let s := (s.mem.lines.map (·.1)).foldl (fun s k => s.writeBack k) s
      (s.onMem fun m => { m with lines := [] }).onDev fun d => d.setF rScStat 0 2 0)

end Sys2Proof.Machine
end

