-- ==== Sys2Proof/Machine/BufAdmin.lean ====
section
/-! DEFINITION. Retiring pages and banks, and the wipe (R292-R295). -/

namespace Sys2Proof.Machine

/-- REFUSED and WHY of a retirement write. -/
def Dev.refuseRetire (d : Dev) (why : Nat) : Dev := (d.setB rRetireStat 11 true).setF rRetireStat 12 4 why

/-- LISTED follows the list. -/
def Dev.setPages (d : Dev) (l : List (Nat × Bool)) : Dev :=
  ({ d with buf.pages := l }).setF rRetireStat 0 11 l.length

/-- A page becomes RETIRED: unmapped, recorded, and named on the call board (R292, R294, R371). -/
def Dev.retirePageNow (d : Dev) (p : Nat) : Dev :=
  let d := d.setPages (d.buf.pages.map fun (e : Nat × Bool) => if e.1 = p then (p, true) else e)
  ({ d with cfg.waiting := d.cfg.waiting ++ [FlashOp.retirement] }).post 0x0114 0x10 p 2 d.buf.retired.toNat 0

/-- A write of BUF_RETIRE_PAGE (R292, R293). -/
def Dev.retirePage (d : Dev) (p : Nat) : Dev :=
  if d.flag rRetireStat 16 then d.refuseRetire 7
  else if d.buf.pages.any fun e => e.1 == p then d
  else if d.mappedBytes ≤ 65536 * p then d.refuseRetire 2
  else if 1024 ≤ d.buf.pages.length then d.refuseRetire 1
  else
    let d := (d.setPages (d.buf.pages ++ [(p, false)])).post 0x0114 0x10 p 1 d.buf.retired.toNat 0
    if d.fwPage p then d.retirePageNow p else d

def execRetirePage (_m : Master) (page : BitVec 21) (s : State) : Host.Outcome State Fault Refusal :=
  .next (s.onDev fun d => d.retirePage page.toNat)

/-- No allocation holds any of a PENDING page: it becomes RETIRED. -/
def execPageRetired (page : BitVec 21) (s : State) : Host.Outcome State Fault Refusal :=
  .next (s.onDev fun d =>
    if d.buf.pages.any fun e => e.1 == page.toNat && !e.2 then d.retirePageNow page.toNat else d)

/-- Buffer is held: by a stream, or by acknowledged writes (R293, R395). -/
def Dev.bufferHeld (d : Dev) : Bool :=
  (d.hq.rows.any fun r => !r.released) || d.hq.cmds.any fun c => !c.acked && (!c.offers.isEmpty || !c.got.isEmpty)

/-- A write of BUF_RETIRE_BANK: refused, or steps 1 to 3 and the wipe begins (R293). -/
def State.retireBank (s : State) (b : Fin 32) : State :=
  let d := s.dev
  if d.flag rRetireStat 16 then s.onDev fun d => d.refuseRetire 7
  else if !d.rehearsal then s.onDev fun d => d.refuseRetire 3
  else if d.bufferHeld then s.onDev fun d => d.refuseRetire 4
  else if d.nb ≤ 28 then s.onDev fun d => d.refuseRetire 5
  else if d.buf.retired.getLsbD b.val then s.onDev fun d => d.refuseRetire 6
  else
    let s := s.onDev fun d =>
      let d := { d with buf.retired := d.buf.retired ||| BitVec.ofNat 32 (2 ^ b.val), buf.retiring := some b }
      (((((d.setPages []).setF rBufStat 16 6 (d.nb)).setB rBufStat 3 false).setB rBufStat 2 true).setB rRetireStat 16 true)
    let s := s.onMem fun m => { m with lines := [], fills := Vector.replicate 4 none }
    (List.finRange 4).foldl (fun s k => s.resume k) s

def execRetireBank (_m : Master) (bank : BitVec 5) (s : State) : Host.Outcome State Fault Refusal :=
  .next (s.retireBank (Fin.ofNat 32 bank.toNat))

/-- The wipe completes (R295): zeros everywhere; the aliases are mapped again unless a bank retirement has still to
write its record. -/
def State.wipeEnd (s : State) : State :=
  if !s.dev.flag rBufStat 2 then s
  else
    let s := s.onMem fun m => { m with dram := [], sram := [], merge := [] }
    s.onDev fun d =>
      let d := (d.setB rBufStat 2 false).wr rScrubPos 0
      if d.buf.retiring.isSome then d else d.setB rBufStat 3 true

def execWipeEnd (s : State) : Host.Outcome State Fault Refusal := .next s.wipeEnd

/-- Bank retirement completes: the record, the new capacity mapped, BANK_DONE (R293, R294). -/
def Dev.bankDone (d : Dev) : Dev :=
  match d.buf.retiring with
  | none => d
  | some b =>
    if d.flag rBufStat 2 then d
    else
      let d := { d with buf.retiring := none, cfg.waiting := d.cfg.waiting ++ [FlashOp.retirement] }
      (((d.setB rBufStat 3 true).setB rRetireStat 16 false).setB rRetireStat 17 true).post 0x0114 0x10 0xFFFF_FFFF b.val
        d.buf.retired.toNat 0

def execBankDone (s : State) : Host.Outcome State Fault Refusal := .next (s.onDev Dev.bankDone)

/-- BUF_PAGELISTi (R296). -/
def Dev.pageListView (d : Dev) (i : Nat) : W32 :=
  match d.buf.pages[i]? with
  | some (p, r) => BitVec.ofNat 32 (p + (if r then 2 else 1) * 2 ^ 22)
  | none => 0

end Sys2Proof.Machine
end

