-- ==== Sys2Proof/Machine/Image.lean ====
section
/-! DEFINITION. The configuration flash: its record regions, the image format and the checks of an image's slot
(R60, R61, R399-R412). -/

namespace Sys2Proof

/-- What the fabric takes from the body of a cue image: chain headers, budgets, declared ranges, slack. The body's layout
is not given (notes/assumptions/4.md). -/
opaque Config.cueBody : List (BitVec 8) → Machine.CueImage

/-- The cue words of the body's main sheet and of its ghost-light sheet, each with the beat it belongs to
(notes/assumptions/4.md). -/
opaque Config.cueSheets : List (BitVec 8) → List (Nat × BitVec 64) × List (Nat × BitVec 64)

namespace Machine

/-! ### Flash bytes (R399, R400) -/

abbrev slotBase (slot : Nat) : Nat := 0x180_0000 * slot

/-- n flash bytes from an address. -/
def flashBytes (m : List Host.Cell) (a n : Nat) : List Byte :=
  (List.range n).map fun i => sget m (0xFF : Byte) (a + i)

/-- Program bytes: a flash cell only goes from 1 to 0. -/
def flashProgramBytes (m : List Host.Cell) (a : Nat) (bs : List Byte) : List Host.Cell :=
  bs.zipIdx.foldl (fun m b => sset m (0xFF : Byte) (a + b.2) (sget m (0xFF : Byte) (a + b.2) &&& b.1)) m

/-- Erase a range. -/
def flashEraseRange (m : List Host.Cell) (a n : Nat) : List Host.Cell :=
  m.filter fun e => !(decide (a ≤ e.1) && decide (e.1 < a + n))

/-- Is the first byte of a stride erased? -/
def strideErased (m : List Host.Cell) (a n : Nat) : Bool :=
  !(m.any fun e => decide (a ≤ e.1) && decide (e.1 < a + n))

/-- A record region: base, stride, number of strides. -/
structure Region where
  base : Nat
  stride : Nat
  count : Nat
  deriving DecidableEq, Repr

def boardRegion : Region := ⟨0x300_0000, 0x8000, 256⟩
def discardRegion : Region := ⟨0x380_0000, 0x2000, 512⟩
def retireRegion : Region := ⟨0x3C0_0000, 0x2000, 496⟩

def Region.addr (r : Region) (i : Nat) : Nat := r.base + r.stride * (i % r.count)
def Region.written (r : Region) (m : List Host.Cell) (i : Nat) : Bool := !strideErased m (r.addr i) r.stride

/-- The written stride just before the first erased stride that follows a written one. -/
def Region.newest (r : Region) (m : List Host.Cell) : Option Nat :=
  (List.range r.count).find? fun i => r.written m i && !r.written m (i + 1)

/-- The stride the next record takes. -/
def Region.next (r : Region) (m : List Host.Cell) : Nat :=
  match r.newest m with
  | some i => (i + 1) % r.count
  | none => 0

/-- Write a record; into the last stride of a sector, the next sector of the ring is erased at once. -/
def Region.write (r : Region) (m : List Host.Cell) (bs : List Byte) : List Host.Cell :=
  let i := r.next m
  let m := flashProgramBytes m (r.addr i) bs
  if (i + 1) * r.stride % 65536 = 0 then flashEraseRange m (r.addr (i + 1)) 65536 else m

/-! ### Boot record (R391, R401) -/

structure BootRecord where
  sequence : Nat
  life : Nat
  slot : Nat
  deriving DecidableEq, Repr

def bootCopyAddr (k : Nat) : Nat := 0x3FE_0000 + 0x1_0000 * k

/-- A copy of the boot record, if it is valid. -/
def bootCopy (m : List Host.Cell) (k : Nat) : Option BootRecord :=
  let bs := flashBytes m (bootCopyAddr k) 32
  if leNat (bs.take 4) = 0x544F_425A ∧ leNat (bs.drop 24) = crc64 (bs.take 24) then
    some { sequence := leNat ((bs.drop 4).take 4), life := leNat ((bs.drop 8).take 1), slot := leNat ((bs.drop 9).take 1) }
  else none

/-- SEQUENCE a is newer than b, modulo 2^32. -/
def seqNewer (a b : Nat) : Bool := a != b && decide ((a + 2 ^ 32 - b) % 2 ^ 32 < 2 ^ 31)

/-- The boot record in force and the copy that holds it. -/
def bootRecord (m : List Host.Cell) : Option (BootRecord × Nat) :=
  match bootCopy m 0, bootCopy m 1 with
  | some a, some b => if seqNewer b.sequence a.sequence then some (b, 1) else some (a, 0)
  | some a, none => some (a, 0)
  | none, some b => some (b, 1)
  | none, none => none

/-- Write a boot record over the copy with the lower sequence number. -/
def writeBootRecord (m : List Host.Cell) (life slot : Nat) : List Host.Cell :=
  let (k, n) := match bootRecord m with
    | some (r, k) => (1 - k, r.sequence + 1)
    | none => (0, 0)
  let body := leBytes 4 0x544F_425A ++ leBytes 4 n ++ leBytes 1 life ++ leBytes 1 slot ++ List.replicate 14 0
  flashProgramBytes (flashEraseRange m (bootCopyAddr k) 65536) (bootCopyAddr k) (body ++ leBytes 8 (crc64 body))

/-! ### The image header and its sections (R403-R405) -/

/-- A little-endian field of bytes. -/
def lef (bs : List Byte) (o n : Nat) : Nat := leNat ((bs.drop o).take n)

structure Section where
  type : Nat
  dram : Bool
  arg : Nat
  offset : Nat
  size : Nat
  load : Nat
  crc : Nat
  deriving DecidableEq, Repr

def sectionOf (bs : List Byte) : Section :=
  { type := lef bs 0 1, dram := (lef bs 1 1).testBit 0, arg := lef bs 2 2, offset := lef bs 4 4, size := lef bs 8 4,
    load := lef bs 16 8, crc := lef bs 24 8 }

/-- The section table of a slot. -/
def sections (m : List Host.Cell) (slot : Nat) : List Section :=
  let n := leNat (flashBytes m (slotBase slot + 0x0C) 4)
  (List.range (min n 32)).map fun i => sectionOf (flashBytes m (slotBase slot + 0x40 + 32 * i) 32)

/-- The bytes of a section. -/
def sectionBytes (m : List Host.Cell) (slot : Nat) (s : Section) : List Byte :=
  flashBytes m (slotBase slot + s.offset) s.size

def sectionOfType (m : List Host.Cell) (slot type : Nat) : Option Section :=
  (sections m slot).find? fun s => s.type == type

/-- LOAD lies in a DRAM alias. -/
def inDramAlias (a : Nat) : Bool := decide (0x20_0000_0000 ≤ a) && decide (a < 0x60_0000_0000)

/-- Size and number rules of R405. -/
def sectionShape (s : Section) : Bool :=
  match s.type with
  | 1 => s.size == 256 && s.load == 0
  | 2 => decide (128 ≤ s.size) && decide (s.size ≤ 1572864) && s.load == 0
  | 3 => decide (s.arg ≤ 3)
  | 4 => s.size == 524288 && s.load % 64 == 0
  | 5 => s.size == 144 && s.load == 0
  | 6 => s.size == 512 && s.load == 0
  | 7 => s.size == 64 && s.load == 0
  | 8 => s.size % 8 == 0 && s.load == 0
  | _ => true

def countType (l : List Section) (t : Nat) : Nat := (l.filter fun s => s.type == t).length

/-- The layout of the sections: places, required sections, numbers (R404, R405). -/
def layoutOk (size : Nat) (l : List Section) : Bool :=
  l.all (fun s => decide (0x1000 ≤ s.offset) && s.offset % 4096 == 0 && decide (s.offset + s.size ≤ size) &&
    s.dram == inDramAlias s.load && sectionShape s) &&
  (l.head?.map Section.type) == some 1 &&
  [1, 2, 4, 5, 6, 7].all (fun t => countType l t == 1) && decide (countType l 8 ≤ 1) && decide (countType l 9 ≤ 24) &&
  (List.range 4).all (fun c => decide ((l.filter fun s => s.type == 3 && s.arg == c).length ≤ 1)) &&
  l.zipIdx.all fun a => l.zipIdx.all fun b => a.2 == b.2 || decide (a.1.offset + a.1.size ≤ b.1.offset) ||
    decide (b.1.offset + b.1.size ≤ a.1.offset)

/-- The first failed check of a slot's header and layout, as FAIL_CHECK. -/
def headerCheck (m : List Host.Cell) (slot : Nat) : Option Nat :=
  let bs := flashBytes m (slotBase slot) 0x440
  if lef bs 0 4 ≠ 0x4746_435A ∨ lef bs 6 2 ≠ 1 ∨ lef bs 8 4 ≠ 0xA1 then some 2
  else if lef bs 0x20 8 ≠ crc64 (bs.take 0x20 ++ bs.drop 0x40) ∨ lef bs 0x0C 4 < 6 ∨ 32 < lef bs 0x0C 4 ∨
      25165824 < lef bs 0x10 4 then some 3
  else if !layoutOk (lef bs 0x10 4) (sections m slot) then some 3
  else none

/-! ### The cue image (R60, R61) -/

/-- The fields of the cue-image header that are held with a complement: offset and bytes. -/
def cuePairs : List (Nat × Nat) :=
  [(0x00, 4), (0x08, 4), (0x10, 4), (0x18, 8), (0x28, 4), (0x30, 4), (0x38, 4), (0x40, 4), (0x48, 8)]

/-! A cue word's fields (R34). -/

def cueField (w : BitVec 64) (lo n : Nat) : Nat := w.toNat / 2 ^ lo % 2 ^ n
def cueOp (w : BitVec 64) : Nat := cueField w 0 8
def cueFirst (w : BitVec 64) : Nat := cueField w 24 4
def cueSpan (w : BitVec 64) : Nat := cueField w 28 4
def cueEngine (w : BitVec 64) : Nat := cueField w 32 4

/-- CHECK and SEQ of a word are right for the beat it belongs to. -/
def cueSealed (beat : Nat) (w : BitVec 64) : Bool :=
  cueCheck w == cueField w 56 8 && cueField w 48 8 == beat % 256

/-- A word of a beat keeps R34: its check and sequence, its engine and slots, and its reserved bits. -/
def cueWordGood (beat : Nat) (w : BitVec 64) : Bool :=
  cueSealed beat w && cueField w 36 12 == 0 && decide (cueEngine w ≤ 11) && decide (cueFirst w ≤ 9) &&
    decide (1 ≤ cueSpan w) && decide (cueFirst w + cueSpan w ≤ 10)

/-- No two claims of one engine overlap in a beat (R34). -/
def claimsApart : List (Nat × BitVec 64) → Bool
  | [] => true
  | a :: r => (r.all fun b => a.1 != b.1 || cueEngine a.2 != cueEngine b.2 ||
      decide (cueFirst a.2 + cueSpan a.2 ≤ cueFirst b.2) || decide (cueFirst b.2 + cueSpan b.2 ≤ cueFirst a.2)) && claimsApart r

/-- The servo cluster claims slots 0 and 1 of every beat to compute, and slot 2 to ship (R36). -/
def servoClaims (ws : List (Nat × BitVec 64)) : Bool :=
  let claim (b first span : Nat) : Bool := ws.any fun q =>
    q.1 == b && cueEngine q.2 == 0 && cueOp q.2 != 0 && cueFirst q.2 == first && cueSpan q.2 == span
  (List.range 1024).all fun b => claim b 0 2 && claim b 2 1

/-- A sheet keeps R34 and R36. -/
def sheetGood (ws : List (Nat × BitVec 64)) : Bool :=
  (ws.all fun q => cueWordGood q.1 q.2) && claimsApart ws && servoClaims ws

/-- The hardware limits of the budgets, in the units of their registers (R38). -/
def budgetLimits : List Nat := [2048, 576, 576, 576, 208, 512, 224]

/-- The first failed check of a cue image, as FAIL_CHECK: the head types reported, and the installed GiB. -/
def cueImageCheck (bs : List Byte) (types : List Nat) (gib : Nat) : Option Nat :=
  let body := bs.drop 128
  if !(cuePairs.all fun p => pairOk (8 * p.2) (lef bs p.1 p.2) (lef bs (p.1 + p.2) p.2)) then some 1
  else if lef bs 0 4 ≠ 0x4555_435A ∨ lef bs 0x0A 2 ≠ 1 ∨ lef bs 0x10 4 ≠ 0xA1 then some 2
  else if lef bs 0x40 4 ≠ body.length ∨ 1572864 < bs.length ∨ lef bs 0x48 8 ≠ crc64 body then some 3
  else if (List.range 4).any fun i => lef bs (0x28 + i) 1 != types.getD i 0 then some 4
  else if lef bs 0x30 4 ≠ gib then some 5
  else if !sheetGood (Config.cueSheets body).1 ∨ !sheetGood (Config.cueSheets body).2 then some 6
  else none

/-- What the fabric holds of an image; a budget is at most its hardware limit (R38). -/
def cueImageOf (bs : List Byte) : CueImage :=
  let body := Config.cueBody (bs.drop 128)
  { body with
    budgets := List.zipWith min body.budgets budgetLimits,
    build := lef bs 0x18 8, version := lef bs 0x08 4, headTypes := lef bs 0x28 4, ddrGib := lef bs 0x30 4,
    stateLayout := lef bs 0x38 4 }

/-- Content rules of CURVE: R194's, and OFF_DI below ON_DI (R410). -/
def curveOk (bs : List Byte) : Bool :=
  let di k := lef bs (4 * k) 2
  let rpm k := lef bs (4 * k + 2) 2
  (List.range 31).all (fun k => decide (di k < di (k + 1))) &&
    (List.range 32).all (fun k => decide (di k ≤ 1023) && decide (1200 ≤ rpm k) && decide (rpm k ≤ 10800)) &&
    decide (lef bs 130 2 < lef bs 128 2)

/-- The entries of the REGS section: BAR0 offset and value (R406). -/
def regsEntries (m : List Host.Cell) (slot : Nat) (l : List Section) : List (Nat × Nat) :=
  match l.find? fun s => s.type == 8 with
  | none => []
  | some s => (chunks 8 (s.size / 8) (sectionBytes m slot s)).map fun b => (lef b 0 4, lef b 4 4)

/-- The first failed check of a slot. SPN_PWM_CFG.DEADTIME has no reference value and 0 lies outside its range, so a slot
whose REGS section does not set it fails with 7 (R408). -/
def slotCheck (m : List Host.Cell) (slot : Nat) (types : List Nat) (gib : Nat) : Option Nat :=
  match headerCheck m slot with
  | some c => some c
  | none =>
    let l := sections m slot
    if l.any fun s => s.crc != crc64 (sectionBytes m slot s) then some 7
    else match l.find? fun s => s.type == 2 with
      | none => some 3
      | some s =>
        match cueImageCheck (sectionBytes m slot s) types gib with
        | some c => some c
        | none =>
          match l.find? fun s => s.type == 5 with
          | some c =>
            if curveOk (sectionBytes m slot c) && (regsEntries m slot l).any (fun e => e.1 == 0x60_0030) then none
            else some 7
          | none => some 3

/-- The installed capacity in GiB. -/
def gibOf (code : Nat) : Nat := 32 * 2 ^ code

/-- The default identity (R392, R409). -/
def defaultIdentity : List Byte :=
  let model : List Nat := [0x46, 0x5A, 0x39, 0x34, 0x32, 0x30, 0x20, 0x42, 0x4C, 0x41, 0x4E, 0x4B]
  leBytes 2 0x1D9A ++ leBytes 2 0x9420 ++ leBytes 4 0 ++ leBytes 1 0xA1 ++ List.replicate 39 (0 : Byte) ++
    model.map (BitVec.ofNat 8) ++ List.replicate 28 (0x20 : Byte) ++ List.replicate 168 (0 : Byte)

end Machine
end Sys2Proof
end

