-- ==== Sys2Proof/Machine/Zrf.lean ====
section
/-! DEFINITION. The recording format as functions: modulation, scrambling and DC control, syncs, headers, frames, link
gaps, LDPC and outer code, row payloads, the interleave, layer areas and address arithmetic (03_zrf_medium.md). -/

namespace Sys2Proof.Machine

/-- The bits of v, n of them, most significant first. -/
def bitsOf (n v : Nat) : List Bool := (List.range n).map fun i => v.testBit (n - 1 - i)

def xorBits (a b : List Bool) : List Bool := List.zipWith xor a b

/-- Data pairs of a bit list. -/
def pairsOf : List Bool → List Nat
  | a :: b :: r => (2 * b2n a + b2n b) :: pairsOf r
  | _ => []

/-! ### Modulation (R74-R76) -/

/-- The basic table of R74. -/
def basicWord (p : Nat) : List Bool :=
  match p with
  | 0 => [true, false, true]
  | 1 => [true, false, false]
  | 2 => [false, false, true]
  | _ => [false, true, false]

/-- The substitution table of R74. -/
def substWord (p q : Nat) : Option (List Bool) :=
  match p, q with
  | 0, 0 => some [true, false, true, false, false, false]
  | 0, 1 => some [true, false, false, false, false, false]
  | 2, 0 => some [false, false, true, false, false, false]
  | 2, 1 => some [false, true, false, false, false, false]
  | _, _ => none

/-- The encoder of R75. -/
def modulate : List Nat → List Bool
  | [] => []
  | [p] => basicWord p
  | p :: q :: r =>
    match substWord p q with
    | some w => w ++ modulate r
    | none => basicWord p ++ modulate (q :: r)

/-- A group of three channel bits that is a basic word, as its pair. -/
def basicInv (w : Nat) : Option Nat :=
  match w with
  | 5 => some 0
  | 4 => some 1
  | 1 => some 2
  | 2 => some 3
  | _ => none

/-- The two pairs that a group followed by 000 stands for. -/
def substInv (w : Nat) : Option (Nat × Nat) :=
  match w with
  | 5 => some (0, 0)
  | 4 => some (0, 1)
  | 1 => some (2, 0)
  | 2 => some (2, 1)
  | _ => none

/-- The decoder of R76 over groups of three channel bits; none marks an erasure, which reads as 00. -/
def demodulate : List Nat → List (Option Nat)
  | [] => []
  | [w] => [basicInv w]
  | w :: w' :: r =>
    match (if w' = 0 then substInv w else none) with
    | some (p, q) => some p :: some q :: demodulate r
    | none => basicInv w :: demodulate (w' :: r)

/-! ### Scrambling and DC control (R77, R78) -/

/-- One step of the LFSR of R77. -/
def lfsrStep (s : Nat) : Nat :=
  (s * 2) % 65536 + b2n (xor (xor (s.testBit 15) (s.testBit 13)) (xor (s.testBit 12) (s.testBit 10)))

/-- n output bits from a state. -/
def lfsrBits : Nat → Nat → List Bool
  | 0, _ => []
  | n + 1, s => s.testBit 15 :: lfsrBits n (lfsrStep s)

/-- The seed of segment g (R77). -/
def segSeed (sel spot frame g : Nat) : Nat := 2 ^ 15 + sel * 2 ^ 13 + spot * 2 ^ 10 + frame * 2 ^ 4 + g * 2 + 1

/-- Scramble the payload's six segments of 1,032 bits with their selectors. -/
def scramble (spot frame : Nat) (sels : List Nat) (payload : List Bool) : List Bool :=
  (List.range 6).flatMap fun g =>
    let seg := (payload.drop (1032 * g)).take 1032
    xorBits seg (lfsrBits seg.length (segSeed (sels.getD g 0) spot frame g))

/-- The running digital sum of the NRZ waveform after the channel bits: a 1 toggles the level. -/
def digitalSum (bits : List Bool) : Int :=
  (bits.foldl (fun (p : Int × Int) b => let l := if b then -p.1 else p.1; (l, p.2 + l)) ((1 : Int), (0 : Int))).2

/-! ### Syncs, headers, frames (R79, R82, R83) -/

def sy0 : Nat := 0x4804_022A_4820
def sy1 : Nat := 0x4804_0224_A820

/-- Multiply a polynomial (highest coefficient first) by (x - r). -/
def polyTimes (p : List Nat) (r : Nat) : List Nat :=
  List.zipWith (fun a b => a ^^^ b) (p ++ [0]) (0 :: p.map (gmul r))

/-- The generator of RS(n, n - m), highest coefficient first (R84). -/
def rsGenerator (m : Nat) : List Nat := (List.range m).foldl (fun p i => polyTimes p (galpha i)) [1]

/-- The m check symbols of a systematic code word. -/
def rsCheck (m : Nat) (data : List Nat) : List Nat :=
  let g := (rsGenerator m).drop 1
  data.foldl (fun reg d =>
    let f := d ^^^ reg.headD 0
    List.zipWith (fun a b => a ^^^ b) (reg.drop 1 ++ [0]) (g.map (gmul f))) (List.replicate m 0)

/-- The information bytes of a frame header (R83). -/
def headerInfo (side layer spot rb frame type : Nat) (sels : List Nat) (rpl : Bool) : List Nat :=
  let s (i : Nat) := sels.getD i 0
  [side * 128 + layer * 8 + spot, rb / 65536 % 256, rb / 256 % 256, rb % 256, frame * 4 + type,
   s 0 * 64 + s 1 * 16 + s 2 * 4 + s 3, s 4 * 64 + s 5 * 16 + 1, b2n rpl * 128]

/-- The header's 96 bits. -/
def headerBits (info : List Nat) : List Bool := (info ++ rsCheck 4 info).flatMap (bitsOf 8)

/-- A frame's 9,480 channel bits for given selectors (R82). -/
def frameWith (side layer spot rb frame type : Nat) (rpl : Bool) (sels : List Nat) (payload : List Bool) : List Bool :=
  bitsOf 48 (if frame = 0 then sy0 else sy1) ++
    modulate (pairsOf (headerBits (headerInfo side layer spot rb frame type sels rpl) ++
      scramble spot frame sels payload))

/-- DC control: the selectors are chosen segment by segment, the smallest absolute sum first, then the lowest SEL; those
not yet chosen count as 0 (R78). The bits up to a segment's end depend on the payload to one pair beyond it. -/
def chooseSels (side layer spot rb frame type : Nat) (rpl : Bool) (payload : List Bool) : List Nat :=
  (List.range 6).foldl (fun sels g =>
    let sum (c : Nat) : Nat :=
      (digitalSum ((frameWith side layer spot rb frame type rpl (sels ++ [c])
        (payload.take (1032 * (g + 1) + 2))).take (192 + 1548 * (g + 1)))).natAbs
    let best := [1, 2, 3].foldl (fun (b : Nat × Nat) c => let v := sum c; if v < b.2 then (c, v) else b) (0, sum 0)
    sels ++ [best.1]) []

/-- A frame with its chosen selectors. -/
def frameBits (side layer spot rb frame type : Nat) (rpl : Bool) (payload : List Bool) : List Bool :=
  frameWith side layer spot rb frame type rpl (chooseSels side layer spot rb frame type rpl payload) payload

/-! ### Codes and interleave (R85-R88) -/

/-- The rows in which information column j has blocks, and the shift in row r (R85). -/
def ldpcRows (j : Nat) : List Nat := [j % 8, (j + 3) % 8, (j + 5) % 8]
def ldpcShift (r j : Nat) : Nat := (37 * (r + 1) * (j + 1) + j * j) % 516

/-- P^s applied to a block: its row x takes bit (x + s) mod 516. -/
def rotBlock (s : Nat) (u : List Bool) : List Bool := u.drop s ++ u.take s

/-- The eight parity blocks of 64 information blocks, by the staircase of R85. -/
def ldpcParity (info : List (List Bool)) : List (List Bool) :=
  let acc (t : Nat) (p : List Bool) : List Bool :=
    (List.range 64).foldl (fun p j =>
      if (ldpcRows j).contains t then xorBits p (rotBlock (ldpcShift t j) (info.getD j [])) else p) p
  ((List.range 8).foldl (fun (st : List Bool × List (List Bool)) t =>
    let p := acc t st.1
    (p, st.2 ++ [p])) (List.replicate 516 false, [])).2

/-- The 37,152 bits of a codeword for a payload of 4,128 bytes. -/
def ldpcEncode (payload : List Nat) : List Bool :=
  let bits := payload.flatMap (bitsOf 8)
  bits ++ (ldpcParity (chunks 516 64 bits)).flatten

/-- A row payload (R86): DATA, TAG_CRC, TAG_LBA, its complement, ROW_KIND, zeros. -/
def rowPayload (data : List Byte) (crc tagLba kind : Nat) : List Nat :=
  (data ++ beBytes 8 crc ++ beBytes 4 tagLba ++ beBytes 4 (compl 32 tagLba)).map BitVec.toNat ++
    [kind] ++ List.replicate 15 0

/-- The marked payload of a row without data: ROW_KIND 1 unwritten, 2 lost (R144). -/
def markedRow (kind : Nat) : List Nat :=
  let zeros := List.replicate 4096 (0 : Byte)
  rowPayload zeros (crc64 zeros) (if kind = 1 then 0xFFFF_FFFE else 0xFFFF_FFFD) kind

/-- The first n columns of a table; an absent symbol is 0. -/
def columns : Nat → List (List Nat) → List (List Nat)
  | 0, _ => []
  | n + 1, rows => rows.map (fun r => r.headD 0) :: columns n (rows.map fun r => r.drop 1)

/-- Rows 64-71: the outer code over rows 0-63 (R87). -/
def outerRows (rows : List (List Nat)) : List (List Nat) :=
  let checks := (columns 4128 rows).map (rsCheck 8)
  (List.range 8).map fun k => checks.map fun c => c.getD k 0

/-- The row and bit recorded at spot s, frame f, data position p: the inverse of the map of R88. -/
def deinterleave (s f p : Nat) : Nat × Nat :=
  let v := p / 72
  let c := (p + 72 * 10 - (5 * f + 11 * s + v) % 72) % 72
  let u := 54 * v + f
  (c, 8 * u + (s + 72 - c) % 8)

/-- Where bit b of row c is recorded (R88). -/
def interleave (c b : Nat) : Nat × Nat × Nat :=
  let u := b / 8
  let f := u % 54
  let v := u / 54
  let s := (b + c) % 8
  (s, f, 72 * v + (c + 5 * f + 11 * s + v) % 72)

/-- Bits as a number: the first is bit 0. -/
def bitsNat (bits : List Bool) : Nat := bits.foldr (fun b n => 2 * n + b2n b) 0

/-- Channel bits 640 of the place to 511 of the next one, on one track, from the rows' codewords (R80-R82). -/
def trackBits (side layer rb type : Nat) (rpl : Bool) (rows : List Nat) (s : Nat) : List Bool :=
  let payload (f : Nat) : List Bool := (List.range 6192).map fun p =>
    let cb := deinterleave s f p
    (rows.getD cb.1 0).testBit cb.2
  (List.replicate 128 [true, false, false, false]).flatten ++
  modulate (pairsOf (lfsrBits 340 0x8001)) ++ [false, false] ++
  (List.replicate 64 [true, false, false, false, false, false]).flatten ++
  (List.range 54).flatMap (fun f => frameBits side layer s rb f type rpl (payload f)) ++
  [false] ++ (List.replicate 85 [true, false, false, false, false, false]).flatten ++ [false]

/-- All eight tracks of a place holding 64 row payloads. -/
def placeTracks (p : Place) (type : Nat) (rpl : Bool) (rows64 : List (List Nat)) : List (List Bool) :=
  let rows := (rows64 ++ outerRows rows64).map fun r => bitsNat (ldpcEncode r)
  (List.range 8).map (trackBits p.side.val p.layer.val p.rb.val type rpl rows)

/-! ### Write-strategy symbols and blocks (R123, R124, R126) -/

/-- Class of a mark's length: 2T, 3T, 4T, 5T and longer. -/
def markClass (n : Nat) : Nat := min (n - 2) 3

/-- Class of a space's length: 2T, 3T, 4T and longer. -/
def spaceClass (n : Nat) : Nat := min (n - 2) 2

/-- k of each edge, from the places of the 1s in a stream that begins in a space: a leading edge goes by the mark it begins
and the space before it, a trailing edge by the mark it ends and the space after it (R124). A run that the stream's start
or end cuts counts as long. -/
def edgeKs : Bool → Nat → List Nat → List Nat
  | _, _, [] => []
  | begins, before, p :: r =>
    let after := match r with | q :: _ => q - p | [] => 9
    (if begins then 3 * markClass after + spaceClass before + 1 else 3 * markClass before + spaceClass after + 1) ::
      edgeKs (!begins) after r

/-- The places of the 1s. -/
def onesAt (bits : List Bool) : List Nat := bits.zipIdx.filterMap fun q => if q.1 then some q.2 else none

/-- One symbol for each channel bit: CONT for 0, EDGE k for 1 (R123). -/
def symbolsOf : List Bool → List Nat → List Nat
  | [], _ => []
  | true :: b, k :: ks => k :: symbolsOf b ks
  | _ :: b, ks => 0 :: symbolsOf b ks

/-- A track's symbols; the gate then closes, and READ follows. -/
def writeSymbols (bits : List Bool) : List Nat := symbolsOf bits (edgeKs true 9 (onesAt bits)) ++ [0xD]

/-- Symbol blocks: two ticks each, S0 first in each tick (R126). -/
def symbolBlocks : Nat → List (List Nat) → List Nat
  | 0, _ => []
  | n + 1, tracks =>
    let tick (i : Nat) : Nat := (tracks.map fun t => t.getD i 0xD).foldl (fun v s => 16 * v + s) 0
    (tick 0 * 2 ^ 32 + tick 1) :: symbolBlocks n (tracks.map fun t => t.drop 2)

/-- The symbol blocks of eight tracks. -/
def trackBlocks (tracks : List (List Bool)) : List Nat :=
  let t := tracks.map writeSymbols
  symbolBlocks (((t.map List.length).foldl max 0 + 1) / 2) t

/-- Control blocks (R126): ALIGN, CLOCK, POWER, EDGE. -/
def alignBlock : Nat := 0x01 * 2 ^ 56
def clockBlock (freq phase : Nat) : Nat := 0x02 * 2 ^ 56 + freq % 2 ^ 32 * 2 ^ 16 + phase % 2 ^ 16
def powerBlock (spot level value : Nat) : Nat :=
  0x03 * 2 ^ 56 + spot * 2 ^ 53 + level * 2 ^ 51 + value % 2 ^ 16 * 2 ^ 32 + compl 16 value * 2 ^ 16
def edgeBlock (spot : Nat) (trailing : Bool) (k offset : Nat) : Nat :=
  0x04 * 2 ^ 56 + spot * 2 ^ 53 + b2n trailing * 2 ^ 52 + k * 2 ^ 48 + offset % 2 ^ 8 * 2 ^ 40 + compl 8 offset * 2 ^ 32

/-! ### Layer areas and address arithmetic (R80, R89, R91) -/

def placesPerLayer : Nat := 166992

/-- Key of a place in a side's maps. -/
def placeKey (p : Place) : Nat := p.layer.val * placesPerLayer + p.rb.val

/-- The place of a key on a side. -/
def placeOfKey (d : Side) (k : Nat) : Place :=
  { side := d, layer := ⟨k / placesPerLayer % 16, Nat.mod_lt _ (by decide)⟩,
    rb := ⟨k % placesPerLayer, Nat.mod_lt _ (by decide)⟩ }

/-- Areas of a layer (R89). -/
inductive Area where
  | innerCal | info | innerSpare | user | outerSpare | outerCal
  deriving DecidableEq, Repr

def areaOf (rb : Nat) : Area :=
  if rb < 256 then .innerCal else if rb < 448 then .info else if rb < 2528 then .innerSpare
  else if rb < 164656 then .user else if rb < 166736 then .outerSpare else .outerCal

/-- The home place and row of a medium LBA (R91). -/
def homeOf (mlba : Nat) : Place × Fin 64 :=
  let s := mlba % 166019072
  let q := s % 10376192
  ({ side := ⟨mlba / 166019072 % 2, Nat.mod_lt _ (by decide)⟩,
     layer := ⟨s / 10376192 % 16, Nat.mod_lt _ (by decide)⟩,
     rb := ⟨(2528 + q / 64) % placesPerLayer, Nat.mod_lt _ (by decide)⟩ },
   ⟨q % 64, Nat.mod_lt _ (by decide)⟩)

/-- The address word in which a place starts (R91). -/
def placeWord (rb : Nat) : Nat := rb * 9178 / 512

/-- The wobble of that word at which it starts. -/
def placeOffset (rb : Nat) : Nat := rb * 9178 % 512

/-- The band-turn in which a place starts. -/
def placeTurn (rb : Nat) : Nat := turnOf (512 * placeWord rb)

/-- The zone of a band-turn (R106). -/
def zoneOf (turn : Nat) : Nat := turn / 595

/-- The log place of an index (R145): L0 RB 256-447, then L1, ... -/
def logPlace (d : Side) (i : Nat) : Place :=
  { side := d, layer := ⟨i / 192 % 16, Nat.mod_lt _ (by decide)⟩,
    rb := ⟨(256 + i % 192) % placesPerLayer, Nat.mod_lt _ (by decide)⟩ }

end Sys2Proof.Machine
end

