-- ==== Sys2Proof/Machine/Heads.lean ====
section
/-! DEFINITION. Operations on heads, spots and sides shared by the media chapters: their registers, the write gate and
what stops a write, lane loss and HEAD_FAULT, opening tracking. -/

namespace Sys2Proof.Machine

/-! ### Register offsets (R92, R122, R153, R182) -/

abbrev rWaddrLo (h : Head) : Nat := 0x20_0100 + 0x10 * h.val
abbrev rWaddrHi (h : Head) : Nat := 0x20_0104 + 0x10 * h.val
abbrev rWstat (h : Head) : Nat := 0x20_0108 + 0x10 * h.val
abbrev rSpotStat (h : Head) (j : Spot) : Nat := 0x30_0000 + 0x2_0000 * h.val + 0x1000 * j.val
abbrev rSpotGain (h : Head) (j : Spot) : Nat := rSpotStat h j + 0x004
abbrev rSpotBase (h : Head) (j : Spot) : Nat := rSpotStat h j + 0x008
abbrev rSpotTiming (h : Head) (j : Spot) : Nat := rSpotStat h j + 0x00C
abbrev rSpotTap (h : Head) (j : Spot) (t : Nat) : Nat := rSpotStat h j + 0x010 + 4 * t
abbrev rSpotTarget (h : Head) (j : Spot) : Nat := rSpotStat h j + 0x04C
abbrev rSpotCounts (h : Head) (j : Spot) : Nat := rSpotStat h j + 0x050
abbrev rSpotDefects (h : Head) (j : Spot) : Nat := rSpotStat h j + 0x054
abbrev rLaneMap (h : Head) : Nat := 0x30_8000 + 0x2_0000 * h.val
abbrev rJesd (h : Head) : Nat := 0x30_8004 + 0x2_0000 * h.val
abbrev rDefCfg (h : Head) : Nat := 0x30_800C + 0x2_0000 * h.val
abbrev rSyncCfg (h : Head) : Nat := 0x30_8010 + 0x2_0000 * h.val
abbrev rLadder (h : Head) : Nat := 0x30_8014 + 0x2_0000 * h.val
abbrev rLdpcCfg : Nat := 0x38_0000
abbrev rLdpcStat : Nat := 0x38_0004
abbrev rLadderCfg : Nat := 0x38_0008
abbrev rZoneBaseLo : Nat := 0x38_0010
abbrev rZoneBaseHi : Nat := 0x38_0014
abbrev rWrpStat (h : Head) : Nat := 0x40_0000 + 0x1000 * h.val
abbrev rWrpClk (h : Head) : Nat := 0x40_0004 + 0x1000 * h.val
abbrev rLevelCfg (h : Head) : Nat := 0x40_0008 + 0x1000 * h.val
abbrev rBias (h : Head) : Nat := 0x40_000C + 0x1000 * h.val
abbrev rPeak (h : Head) (j : Spot) : Nat := 0x40_0100 + 0x1000 * h.val + 0x20 * j.val
abbrev rRpc (h : Head) (j : Spot) : Nat := 0x40_0104 + 0x1000 * h.val + 0x20 * j.val
abbrev rLead (h : Head) (j : Spot) (r : Nat) : Nat := 0x40_0108 + 0x1000 * h.val + 0x20 * j.val + 4 * r
abbrev rSideCfg (x : Side) : Nat := 0x40_8000 + 0x100 * x.val
abbrev rSideLog (x : Side) : Nat := 0x40_8004 + 0x100 * x.val
abbrev rSideSpare (x : Side) : Nat := 0x40_8008 + 0x100 * x.val
abbrev rVfyCfg : Nat := 0x40_F000
abbrev rCommitCfg : Nat := 0x40_F004
abbrev rOpcCfg : Nat := 0x40_F008
/-- Loops: 0 FOC, 1 TRK, 2 SKW, 3 RTL, 4 TTL, 5 SLD. -/
abbrev rLoopCtl (h : Head) (l : Fin 6) : Nat := 0x50_0000 + 0x1_0000 * h.val + 0x100 * l.val
abbrev rLoopGain (h : Head) (l : Fin 6) : Nat := rLoopCtl h l + 0x04
abbrev rLoopLimit (h : Head) (l : Fin 6) : Nat := rLoopCtl h l + 0x08
abbrev rLoopSlew (h : Head) (l : Fin 6) : Nat := rLoopCtl h l + 0x0C
abbrev rLoopOfs (h : Head) (l : Fin 6) : Nat := rLoopCtl h l + 0x10
abbrev rLoopOut (h : Head) (l : Fin 6) : Nat := rLoopCtl h l + 0x14
abbrev rLoopErr (h : Head) (l : Fin 6) : Nat := rLoopCtl h l + 0x18
abbrev rLoopSec (h : Head) (l : Fin 6) (k c : Nat) : Nat := rLoopCtl h l + 0x20 + 0x14 * k + 4 * c
abbrev rSrvStat (h : Head) : Nat := 0x50_0800 + 0x1_0000 * h.val
abbrev rHoldCfg (h : Head) : Nat := rSrvStat h + 0x04
abbrev rSrvSum (h : Head) : Nat := rSrvStat h + 0x08
abbrev rHolds (h : Head) : Nat := rSrvStat h + 0x0C
abbrev rLockCfg (h : Head) : Nat := rSrvStat h + 0x10
abbrev rSledCfg (h : Head) : Nat := rSrvStat h + 0x14
abbrev rJumpCfg (h : Head) : Nat := rSrvStat h + 0x18
abbrev rSeek (h : Head) : Nat := rSrvStat h + 0x1C
abbrev rXing (h : Head) : Nat := rSrvStat h + 0x20
abbrev rSabCfg (h : Head) : Nat := rSrvStat h + 0x28
abbrev rSabBase (h : Head) (k : Nat) : Nat := rSrvStat h + 0x40 + 4 * k
abbrev rSabTrim (h : Head) (k : Nat) : Nat := rSrvStat h + 0x80 + 4 * k

/-! ### Heads and sides -/

/-- The side a head faces. -/
def sideOf (h : Head) : Side := ⟨h.val / 2, by omega⟩

/-- The partner head. -/
def partner (h : Head) : Head := ⟨if h.val % 2 = 0 then h.val + 1 else h.val - 1, by split <;> omega⟩

/-- The two heads of a side. -/
def headsOf (x : Side) : List Head := [⟨2 * x.val, by omega⟩, ⟨2 * x.val + 1, by omega⟩]

def allHeads : List Head := [0, 1, 2, 3]
def allSpots : List Spot := [0, 1, 2, 3, 4, 5, 6, 7]
def allSides : List Side := [0, 1]

/-- An event line of a group of lines, one per head. -/
def headLine (first : Nat) (h : Head) : Fin 256 := ⟨(first + h.val) % 256, Nat.mod_lt _ (by decide)⟩

def Dev.onHead (d : Dev) (h : Head) (f : HeadState → HeadState) : Dev := { d with heads := vmod d.heads h f }
def Dev.onSpot (d : Dev) (h : Head) (j : Spot) (f : SpotState → SpotState) : Dev :=
  d.onHead h fun s => { s with spots := vmod s.spots j f }
def Dev.onSide (d : Dev) (x : Side) (f : SideState → SideState) : Dev := { d with sides := vmod d.sides x f }

def Dev.inService (d : Dev) (h : Head) : Bool := d.flag (rSrvStat h) 0

/-- A side with no head in service (R180). -/
def Dev.sideDown (d : Dev) (x : Side) : Bool := (headsOf x).all fun h => !d.inService h

/-- A complement pair held in one register, value low (R355). -/
def Dev.pairHolds (d : Dev) (a : Nat) : Bool := pairOk 16 (d.fld a 0 16) (d.fld a 16 16)

/-- Store a 16-bit value with its complement. -/
def Dev.setPair (d : Dev) (a v : Nat) : Dev := d.wr a (BitVec.ofNat 32 (v % 2 ^ 16 + compl 16 v * 2 ^ 16))

/-- Place map of a place: 0 blank, 1 committed, 2 consumed and not committed (R90, R147). -/
def Dev.placeState (d : Dev) (p : Place) : Nat := (sfind d.sides[p.side].map (placeKey p)).getD 0

def Dev.setPlace (d : Dev) (p : Place) (v : Nat) : Dev :=
  d.onSide p.side fun s => { s with map := sset s.map 0 (placeKey p) v }

/-- A free spare place is left on a side: some area of some layer has a place at or above its next one (R140). -/
def SideState.spareLeft (s : SideState) : Bool :=
  (List.range 16).any fun l =>
    decide ((sfind s.spareNext (2 * l)).getD 448 < 2528) || decide ((sfind s.spareNext (2 * l + 1)).getD 164656 < 166736)

/-- A table entry and a spare place are free on a side. -/
def Dev.canReplace (d : Dev) (x : Side) : Bool :=
  decide (d.fld (rSideSpare x) 0 17 < 65536) && (d.sides[x]).spareLeft

/-! ### Calibrated coefficients (R233, R246): entry k of a spot, and the head offsets -/

abbrev rCalCur (h : Head) (j : Spot) (k : Nat) : Nat := 0x80_0000 + 0x1_0000 * h.val + 0x1000 * j.val + 0x10 * k
abbrev rCalTgt (h : Head) (j : Spot) (k : Nat) : Nat := rCalCur h j k + 4
abbrev rCalCnt (h : Head) (j : Spot) (k : Nat) : Nat := rCalCur h j k + 8
abbrev rOfsTgt (h : Head) (k : Nat) : Nat := 0x80_8004 + 0x1_0000 * h.val + 0x10 * k
abbrev rOfsCnt (h : Head) (k : Nat) : Nat := 0x80_8008 + 0x1_0000 * h.val + 0x10 * k

/-- The coefficient in use: an equaliser tap, PHASE, LLR, NOISE, an edge entry, PEAK. -/
def Dev.calCur (d : Dev) (h : Head) (j : Spot) (k : Nat) : Int :=
  if k = 7 then 0
  else if k < 15 then d.sfld (rSpotTap h j k) 0 12
  else if k < 17 then d.sfld (rCalCur h j k) 0 16
  else if k = 17 then d.heads[h].spots[j].noise
  else if k < 42 then d.sfld (rLead h j ((k - 18) / 4)) (8 * ((k - 18) % 4)) 6
  else d.fld (rPeak h j) 0 16

/-- Put a coefficient in use. -/
def Dev.setCalCur (d : Dev) (h : Head) (j : Spot) (k : Nat) (v : Int) : Dev :=
  if k < 15 then d.setF (rSpotTap h j k) 0 12 (uns 12 v)
  else if k < 17 then d.setF (rCalCur h j k) 0 16 (uns 16 v)
  else if k = 17 then d.onSpot h j fun s => { s with noise := uns 8 v }
  else if k < 42 then d.setF (rLead h j ((k - 18) / 4)) (8 * ((k - 18) % 4)) 6 (uns 6 v)
  else d.setPair (rPeak h j) (uns 16 v)

/-- A target with its VALID bit. -/
def Dev.setCalTgt (d : Dev) (h : Head) (j : Spot) (k : Nat) (v : Int) (valid : Bool) : Dev :=
  d.wr (rCalTgt h j k) (BitVec.ofNat 32 (uns 16 v + b2n valid * 2 ^ 31))

/-- Values of classes 0 to 3 have been loaded: pending steps go, targets equal the values, taps return to the loop
(R244). -/
def Dev.calLoaded (d : Dev) (h : Head) (j : Spot) : Dev :=
  d.each (List.range 18) fun d k =>
    if k = 7 then d
    else ((d.setCalTgt h j k (d.calCur h j k) false).setF (rCalCnt h j k) 16 2 0)

/-! ### Reallocation entries (R141) -/

/-- The home place that an entry's value names. -/
def entryHome (x : Side) (v : BitVec 64) : Place :=
  { side := x, layer := Fin.ofNat 16 (v.toNat / 2 ^ 52), rb := Fin.ofNat 166992 (v.toNat / 2 ^ 34 % 2 ^ 18) }

/-- The spare place that an entry's value names. -/
def entrySpare (x : Side) (v : BitVec 64) : Place :=
  { side := x, layer := Fin.ofNat 16 (v.toNat / 2 ^ 30), rb := Fin.ofNat 166992 (v.toNat / 2 ^ 12 % 2 ^ 18) }

/-- The home place of the RB that a place holds. -/
def Dev.homeOfPlace (d : Dev) (p : Place) : Place :=
  match d.alloc.reverse.find? fun e => e.1 / 65536 == p.side.val && entrySpare p.side e.2.1 == p with
  | some e => entryHome p.side e.2.1
  | none => p

/-! ### Stopping a write (R56, R90, "When a write stops inside a place") -/

/-- Channel bits written since bit 640 of a place, by the wobbles the head has counted from its first one (R129). -/
def Dev.bitsWritten (d : Dev) (h : Head) (p : Place) : Nat :=
  let w := d.heads[h].wobble
  min ((w.next * 512 + w.count / 1350000000 - p.rb.val * 9178) * 56 - 640) 513840

/-- The symbols of a place go to the head as far as its gate was open: n channel bits of each track. -/
def Dev.sendWritten (d : Dev) (h : Head) (w : WriteJob) (n : Nat) : Dev :=
  let tracks := (placeTracks w.place w.type w.rpl w.rows).map fun t => t.take n
  d.emit (.written h w.place tracks (trackBlocks tracks))

/-- The gate of a head closes now. A place being written is abandoned: its remaining frames stay blank, it stays consumed,
and its RB is to be written again to a spare place with KIND 3; a record is written again at the next log place (R90,
R145). -/
def Dev.dropGate (d : Dev) (h : Head) : Dev :=
  let d := ((d.setB (rWrpStat h) 0 false).setB (rWrpStat h) 3 false).onHead h fun s => { s with gateOff := false }
  match d.heads[h].writing with
  | none => d
  | some w =>
    let d := (d.sendWritten h w (d.bitsWritten h w.place)).onHead h fun s => { s with writing := none, opcRun := none }
    if w.type ≠ 0 then
      d.onSide w.place.side fun s => { s with recFlight := s.recFlight.map fun r =>
        if w.type = 1 then { r with failed := true, sent := false } else r }
    else
      let rows := d.hq.rows.map fun (r : Row) => if r.place = some w.place then { r with place := none } else r
      let d := { d with hq.rows := rows }
      d.onSide w.place.side fun s =>
        { s with toConsume := s.toConsume ++ [placeKey w.place],
                 replQ := match w.home with
                   | some hm => s.replQ ++ [{ home := hm, kind := 3, attempts := w.attempts, spare := none }]
                   | none => s.replQ }

/-- Every gate closes in the cycle after a schedule fault (R56). -/
def Dev.dropGates (d : Dev) : Dev := d.each allHeads Dev.dropGate

/-- The gate is to be removed at the next beat boundary. -/
def Dev.gateOffNext (d : Dev) (h : Head) : Dev := d.onHead h fun s => { s with gateOff := true }

/-! ### Read channels of a head -/

/-- Every channel of the head returns to IDLE: no place is being read. -/
def Dev.idleChannels (d : Dev) (h : Head) : Dev :=
  (d.each allSpots fun d j => d.setF (rSpotStat h j) 0 3 0).onHead h fun s => { s with job := none }

/-- The head's reads stop: the place being read and what the recovery ladder holds of it are dropped. -/
def Dev.dropReads (d : Dev) (h : Head) : Dev :=
  ((d.idleChannels h).onHead h fun s => { s with recover := [], ladderOfs := (0, 0) }).wr (rLadder h) 0

/-- TRK_LOCK clears, and SKW_LOCK with it (R168); no word has been valid since lock, so LOST is set (R92, R93). -/
def Dev.clearTrk (d : Dev) (h : Head) : Dev :=
  let d := d.onHead h fun s => { s with bandOk := false, good := (s.good.set 1 0).set 2 0, bad := (s.bad.set 1 0).set 2 0,
                                        wobble := { s.wobble with seen := false, discards := 0, odd := none } }
  (((d.setB (rSrvStat h) 2 false).setB (rSrvStat h) 3 false).setB (rWaddrLo h) 31 false).setB (rWstat h) 9 true

/-- The head runs steps 3 to 5 of a ladder: it serves nothing else (R119). -/
def Dev.ladderHolds (d : Dev) (h : Head) : Bool :=
  [h, partner h].any fun g => d.heads[g].recover.any fun x => decide (3 ≤ x.step) &&
    (x.owner == h || (x.step == 5 && x.owner == partner h))

/-- POWER blocks of one value on every level of every spot (R126). -/
def Dev.sendLevels (d : Dev) (h : Head) (v : Nat) : Dev :=
  d.emits (allSpots.flatMap fun j => (List.range 4).map fun l => Output.control h (powerBlock j.val l v))

/-- A hold is in force (R169). -/
def HeadState.held (s : HeadState) : Bool := match s.hold with | some x => !x.ended | none => false

/-- The loops stand: a hold is in force, or two qualifying samples have started one. -/
def HeadState.frozen (s : HeadState) : Bool := s.held || decide (2 ≤ s.quals.2)

/-- One guide-spot sample of R169, number n since the fabric started: it qualifies (`weak`), or stands at the end level
(`strong`). Two that qualify in a row start a hold, eight at the end level in a row end it. -/
def HeadState.scan (s : HeadState) (n : Nat) (weak strong : Bool) : HeadState :=
  if s.frozen then
    let e := if strong || (!s.held && decide (8 ≤ s.ends)) then s.ends + 1 else 0
    if s.held && decide (8 ≤ e) then
      { s with ends := 0, quals := (0, 0), hold := s.hold.map fun x => { x with ended := true } }
    else { s with ends := e }
  else if weak then { s with quals := (if s.quals.2 = 0 then n else s.quals.1, s.quals.2 + 1), ends := 0 }
  else { s with quals := (0, 0) }

/-- Tracking is opened (R168). -/
def Dev.openTracking (d : Dev) (h : Head) : Dev :=
  (d.clearTrk h).onHead h fun s => { s with trackClosed := false }

/-- HEAD_FAULT Hn with its cause (R179, FAULT_CAUSE): the gate goes at the next beat boundary and a seek is abandoned. -/
def Dev.headFault (d : Dev) (h : Head) (cause : Nat) : Dev :=
  let d := ((d.setF (rSrvStat h) 8 4 cause).gcnt 0x0C).gateOffNext h
  let d := (d.onHead h fun s => { s with seek := none }).setB (rSrvStat h) 5 false
  d.raise (headLine 1 h) 0x00 (rSrvStat h) cause 0 0

end Sys2Proof.Machine
end

