-- ==== Sys2Proof/Machine/Ldpc.lean ====
section
/-! DEFINITION. From equalised samples to rows: the detector, the soft demodulator, the inner code's min-sum decoder and
the outer code's erasure decoder (R100, R101, R114, R116, R117). -/

namespace Sys2Proof.Machine

/-! ### The detector (R100, R101) -/

/-- The 4-bit NRZ histories, newest bit lowest, that contain no interior run of length 1. -/
def trellisStates : List Nat := (List.range 16).filter fun s =>
  !(s.testBit 1 != s.testBit 0 && s.testBit 1 != s.testBit 2) && !(s.testBit 2 != s.testBit 1 && s.testBit 2 != s.testBit 3)

/-- Branches: five bits of history that lead from a state to a state. -/
def branches : List Nat := (List.range 32).filter fun w => trellisStates.contains (w / 2) && trellisStates.contains (w % 16)

/-- NRZ data of a bit: -1 or +1. -/
def nrz (b : Bool) : Int := if b then 1 else -1

/-- The ideal equaliser output for NRZ bits, newest first: 8 LSB × Σ Kᵢ·a (R100). -/
def idealOf (target a : List Int) : Int := 8 * (List.zipWith (· * ·) target a).sum

/-- The ideal output of a branch. -/
def idealOut (target : List Int) (w : Nat) : Int := idealOf target ((List.range 5).map fun i => nrz (w.testBit i))

def least : List Nat → Nat
  | [] => 0
  | a :: r => r.foldl min a

def branchCost (target : List Int) (y : Int) (w : Nat) : Nat := ((y - idealOut target w) * (y - idealOut target w)).natAbs

/-- Path metrics of the 16 histories after one more output. -/
def forwardStep (target : List Int) (m : List Nat) (y : Int) : List Nat := (List.range 16).map fun s =>
  least ((branches.filter fun w => w % 16 == s).map fun w => m.getD (w / 2) 0 + branchCost target y w)

/-- Path metrics before one output, from those after it. -/
def backwardStep (target : List Int) (m : List Nat) (y : Int) : List Nat := (List.range 16).map fun s =>
  least ((branches.filter fun w => w / 2 == s).map fun w => m.getD (w % 16) 0 + branchCost target y w)

/-- The metrics before each output of a list. -/
def pathMetrics (f : List Nat → Int → List Nat) : List Nat → List Int → List (List Nat)
  | _, [] => []
  | m, y :: ys => m :: pathMetrics f (f m y) ys

/-- Max-log-MAP over a window: for each output, the smallest cost of the branches that satisfy a predicate less that of
the others. -/
def mapWindow (target : List Int) (ys : List Int) (p : Nat → Bool) : List Int :=
  let start := List.replicate 16 0
  let fw := pathMetrics (forwardStep target) start ys
  let bw := (pathMetrics (backwardStep target) start ys.reverse).reverse
  List.zipWith (fun y (ab : List Nat × List Nat) =>
    let cost (w : Nat) : Nat := ab.1.getD (w / 2) 0 + branchCost target y w + ab.2.getD (w % 16) 0
    (least ((branches.filter p).map cost) : Int) - least ((branches.filter fun w => !p w).map cost)) ys (fw.zip bw)

/-- Channel-bit reliabilities of a window, positive where 0 is likelier: a 1 is a transition. -/
def reliabilities (target ys : List Int) : List Int :=
  (mapWindow target ys fun w => w.testBit 0 != w.testBit 1).map fun x => x.sign * (Config.metricScale x.natAbs : Nat)

/-- NRZ decisions of a window. -/
def decisions (target ys : List Int) : List Int :=
  (mapWindow target ys fun w => w.testBit 0).map fun x => if x < 0 then 1 else -1

/-- The hard decision of a reliability. -/
def hardBit (l : Int) : Bool := decide (l < 0)

/-! ### The soft demodulator (R76, R101) -/

/-- A group of three hard decisions as a number. -/
def groupNat (g : List Int) : Nat := g.foldl (fun n l => 2 * n + b2n (hardBit l)) 0

/-- The cost of a code word against reliabilities. -/
def wordCost (ls : List Int) (w : List Bool) : Int := (List.zipWith (fun l b => if b then l else 0) ls w).sum

def leastI : List Int → Int
  | [] => 0
  | a :: r => r.foldl min a

/-- Max-log LLR of one data bit: code words for 1 against code words for 0. -/
def bitLlr (ls : List Int) (words : List (List Bool × Bool)) : Int :=
  leastI ((words.filter (·.2)).map fun w => wordCost ls w.1) - leastI ((words.filter fun w => !w.2).map fun w => wordCost ls w.1)

/-- LLRs of a pair coded alone: bit 1 of the pair, then bit 0. -/
def basicLlr (g : List Int) : List Int := [1, 0].map fun i =>
  bitLlr g ((List.range 4).map fun p => (basicWord p, p.testBit i))

/-- LLRs of two pairs coded together. -/
def substLlr (g : List Int) : List Int := [3, 2, 1, 0].map fun i =>
  bitLlr g ((List.range 16).filterMap fun n => (substWord (n / 4) (n % 4)).map fun w => (w, n.testBit i))

/-- LLRs limited to ±31. -/
def limitLlr (l : Int) : Int := clampI (-31) 31 l

/-- Data-bit LLRs of a stream of three-bit groups, walked as R76 decodes them; `bad` says which groups are marked. A group
that is no code word, or whose word overlaps a marked span, gives zeros (R76, R104). -/
def softDemod : List (List Int × Bool) → List Int
  | [] => []
  | [g] => if g.2 || (basicInv (groupNat g.1)).isNone then [0, 0] else (basicLlr g.1).map limitLlr
  | g :: g' :: r =>
    if groupNat g'.1 = 0 ∧ (substInv (groupNat g.1)).isSome then
      (if g.2 || g'.2 then [0, 0, 0, 0] else (substLlr (g.1 ++ g'.1)).map limitLlr) ++ softDemod r
    else
      (if g.2 || (basicInv (groupNat g.1)).isNone then [0, 0] else (basicLlr g.1).map limitLlr) ++ softDemod (g' :: r)

/-- A payload descrambled: the sign changes where the LFSR puts out 1 (R77, R101). -/
def descramble (spot frame : Nat) (sels : List Nat) (llrs : List Int) : List Int :=
  (List.range 6).flatMap fun g =>
    let seg := (llrs.drop (1032 * g)).take 1032
    List.zipWith (fun l b => if b then -l else l) seg (lfsrBits seg.length (segSeed (sels.getD g 0) spot frame g))

/-! ### The inner code: layered normalised min-sum (R85, R114) -/

/-- The codeword bits in check x of block row r. -/
def checkBits (r x : Nat) : List Nat :=
  ((List.range 64).filter fun j => (ldpcRows j).contains r).map (fun j => 516 * j + (x + ldpcShift r j) % 516) ++
    (if r = 0 then [] else [516 * (63 + r) + x]) ++ [516 * (64 + r) + x]

/-- New messages of a check from its inputs: the product of the other signs, the scaled smallest of the other
magnitudes. -/
def checkMsgs (ins : List Int) : List Int := ins.zipIdx.map fun q =>
  let others := ins.eraseIdx q.2
  let neg := (others.filter fun l => decide (l < 0)).length % 2 == 1
  let m : Int := Config.minSumScale (least (others.map Int.natAbs))
  if neg then -m else m

/-- Posteriors and messages: where check x of block row r finds its messages. -/
def msgAt (r x : Nat) : Nat := 26 * (516 * r + x)

/-- One check updates posteriors and messages. -/
def checkStep (st : List Int × List Int) (rx : Nat × Nat) : List Int × List Int :=
  let bs := checkBits rx.1 rx.2
  let old := (st.2.drop (msgAt rx.1 rx.2)).take bs.length
  let ins := bs.zipIdx.map fun q => st.1.getD q.1 0 - old.getD q.2 0
  let new := checkMsgs ins
  ((bs.zip (List.zipWith (· + ·) ins new)).foldl (fun p q => p.set q.1 q.2) st.1,
   new.zipIdx.foldl (fun m q => m.set (msgAt rx.1 rx.2 + q.2) q.1) st.2)

/-- The checks in layer order. -/
def allChecks : List (Nat × Nat) := (List.range 8).flatMap fun r => (List.range 516).map fun x => (r, x)

/-- Messages before the first iteration. -/
def noMsgs : List Int := List.replicate (26 * 516 * 8) 0

/-- Posteriors of channel LLRs and messages. -/
def posterior (llr msgs : List Int) : List Int :=
  allChecks.foldl (fun p rx => (checkBits rx.1 rx.2).zipIdx.foldl (fun p q =>
    p.set q.1 (p.getD q.1 0 + msgs.getD (msgAt rx.1 rx.2 + q.2) 0)) p) llr

/-- One iteration over the eight block rows: the new messages. -/
def minSumIteration (llr msgs : List Int) : List Int := (allChecks.foldl checkStep (posterior llr msgs, msgs)).2

/-- The codeword bits decided by posteriors. -/
def decided (post : List Int) : List Bool := post.map hardBit

/-- Every parity check is satisfied (R85). -/
def syndromeZero (bits : List Bool) : Bool := allChecks.all fun rx =>
  ((checkBits rx.1 rx.2).filter fun b => bits.getD b false).length % 2 == 0

/-- Bits, most significant first, as bytes. -/
def bytesOfBits (n : Nat) (bits : List Bool) : List Byte :=
  (chunks 8 n bits).map fun c => BitVec.ofNat 8 (c.foldl (fun v b => 2 * v + b2n b) 0)

/-- The 4,128-byte payload of a codeword. -/
def payloadOf (bits : List Bool) : List Byte := bytesOfBits 4128 (bits.take 33024)

/-- A data row's guard tag: its CRC-64 matches DATA, and TAG_LBA_N is the complement of TAG_LBA (R116). -/
def rowTagOk (row : List Byte) : Bool :=
  beNat ((row.drop 4096).take 8) == crc64 (row.take 4096) &&
    pairOk 32 (beNat ((row.drop 4104).take 4)) (beNat ((row.drop 4108).take 4))

/-- A row is accepted (R116): rows 64-71 on a zero syndrome alone. -/
def rowAccepted (c : Nat) (bits : List Bool) : Bool :=
  syndromeZero bits && (decide (64 ≤ c) || rowTagOk (payloadOf bits))

/-! ### The outer code (R87, R117) -/

/-- Coefficients of ∏ (x - r), lowest first. -/
def polyRoots (rs : List Nat) : List Nat := (rs.foldl polyTimes [1]).reverse

/-- The values of erased symbols of an RS(72,64) word: positions, and the word with zeros there. The value at position k is
Σ pᵢ Sᵢ over ∏ (X_k - X_l), p being ∏ (x - X_l) over the other positions l. -/
def erasureValues (erased : List Nat) (word : List Nat) : List Nat :=
  let loc (k : Nat) : Nat := galpha (71 - k)
  erased.map fun k =>
    let others := (erased.filter (· != k)).map loc
    let num := (polyRoots others).zipIdx.foldl (fun a q => a ^^^ gmul q.1 (syndrome word q.2)) 0
    gmul num (ginv (others.foldl (fun a l => gmul a (loc k ^^^ l)) 1))

/-- The erased rows of an RB restored from the other rows (R117). -/
def outerRestore (erased : List Nat) (rows : List (Nat × List Byte)) : List (Nat × List Byte) :=
  let table : List (List Nat) := (List.range 72).map fun c =>
    if erased.contains c then [] else ((sfind rows c).getD []).map BitVec.toNat
  let cols := (columns 4128 table).map (erasureValues erased)
  erased.zipIdx.map fun q => (q.1, cols.map fun v => BitVec.ofNat 8 (v.getD q.2 0))

end Sys2Proof.Machine
end

