-- ==== Sys2Proof/Machine/Chan.lean ====
section
/-! DEFINITION. The sample path of a read channel: lanes and blocks, wobble separation, timing recovery, equaliser, adaptive
loops, defect criteria, and the LLRs of a place's rows (R94-R105, R108). -/

namespace Sys2Proof.Machine

abbrev rLoopCfg (h : Head) : Nat := 0x30_8008 + 0x2_0000 * h.val

def Dev.chan (d : Dev) (h : Head) (j : Spot) : SpotPath := d.heads[h].spots[j].chan

def Dev.onChan (d : Dev) (h : Head) (j : Spot) (f : SpotPath → SpotPath) : Dev :=
  d.onSpot h j fun s => { s with chan := f s.chan }

/-! ### Lanes and blocks (R95-R97) -/

/-- The first block of servo group g in a transport period: ⌈468.75·g⌉. -/
def servoStart (g : Nat) : Nat := (1875 * g + 3) / 4

/-- A block position of the period lies in a servo group. -/
def servoBlock (p : Nat) : Bool := (List.range 8).any fun g => decide (servoStart g ≤ p) && decide (p < servoStart g + 12)

/-- A position carries an RF block: one of the 3,375 positions in ascending order that no servo group uses. -/
def rfBlock (p : Nat) : Bool := !servoBlock p && decide (((List.range p).filter fun q => !servoBlock q).length < 3375)

/-- The physical lane that carries a logical lane (R97). -/
def Dev.physLane (d : Dev) (h : Head) (k : Fin 4) : Nat := d.fld (rLaneMap h) (2 * k.val) 2

/-- The two spots of a physical lane (R96). -/
def Dev.laneSpots (d : Dev) (h : Head) (lane : Fin 4) : List Spot :=
  (allSpots).filter fun j => d.physLane h (Fin.ofNat 4 (j.val / 2)) == lane.val

/-- A physical lane's bytes with its polarity put right (R97). -/
def Dev.polarity (d : Dev) (h : Head) (lane : Nat) (bs : List Byte) : List Byte :=
  if d.flag (rLaneMap h) (8 + lane) then bs.map fun b => ~~~b else bs

/-- RF samples: bytes in two's complement. -/
def rfSamples (bs : List Byte) : List Int := bs.map fun b => sgn 8 b.toNat

/-! ### Marked spans (R104, R105) -/

/-- GUARD. -/
def Dev.guardBits (d : Dev) (h : Head) : Nat := d.fld (rDefCfg h) 16 8

/-- A criterion's run of 32 bits that DEFECT does not yet show: the first qualifying bit. -/
def SpotPath.started (c : SpotPath) : Option Int :=
  ((c.runs.toList.filter fun n => decide (32 ≤ n)).map fun (n : Nat) => (c.pos : Int) - n).head?

/-- Bits q to q + n - 1 of the place touch a marked span of the spot. -/
def Dev.marked (d : Dev) (h : Head) (j : Spot) (q : Int) (n : Nat) : Bool :=
  let s := d.heads[h].spots[j]
  let g := d.guardBits h
  s.spans.any (fun x => decide (x.1 < q + n) && decide (q ≤ x.2)) ||
    (match s.span with
      | some (first, _) =>
        decide (first < q + n) && (decide (s.chan.clear < 64) || decide (q ≤ (s.chan.pos : Int) - s.chan.clear - 1 + g))
      | none => match s.chan.started with
        | some first => decide (first - g < q + n)
        | none => false)

/-! ### Equaliser and target (R100) -/

/-- Taps 0 to 14 in 1/1,024; tap 7 is +1.000. -/
def Dev.taps (d : Dev) (h : Head) (j : Spot) : List Int :=
  (List.range 15).map fun t => if t = 7 then 1024 else d.sfld (rSpotTap h j t) 0 12

/-- K0 to K4. -/
def Dev.target (d : Dev) (h : Head) (j : Spot) : List Int :=
  (List.range 5).map fun k => d.sfld (rSpotTarget h j) (6 * k) 6

/-- Peak-to-peak of the target's ideal output. -/
def Dev.nominal (d : Dev) (h : Head) (j : Spot) : Nat := 16 * ((d.target h j).map Int.natAbs).sum

/-- A sample scaled by gain and asymmetry less the offset (R102), and shaped by the equaliser (R100). -/
def Dev.equalise (d : Dev) (h : Head) (j : Spot) (x0 : Int) : Dev :=
  let num := x0 * d.fld (rSpotGain h j) 0 16 * 4 - d.sfld (rSpotBase h j) 0 8 * 2 ^ 14
  let asym := d.sfld (rSpotBase h j) 16 10
  let (d, x) := d.near (num * (1024 + (if num < 0 then -asym else asym))) (2 ^ 26)
  let xs := x :: (d.chan h j).xs
  let (d, y) := d.near (List.zipWith (· * ·) (d.taps h j) xs).sum 1024
  d.onChan h j fun c => { c with bits := (x0 :: c.bits).take 64, xs := xs.take 4096, ys := (y :: c.ys).take 4096 }

/-- The error at a depth of 48 bits: equaliser output less the ideal output of the detector's decisions (R102). -/
def Dev.decide48 (d : Dev) (h : Head) (j : Spot) : Dev :=
  let t := d.target h j
  let win := (d.chan h j).ys.take 112
  if win.length < 112 then d
  else
    let a := (decisions t win.reverse).reverse
    let ideal := idealOf t (a.drop 48)
    d.onChan h j fun c => { c with es := ((win.getD 48 0 - ideal, ideal) :: c.es).take 1024 }

/-! ### Defect criteria (R103) -/

/-- DROP_TH in force: the zone entry's, where it gives one (R106). -/
def Dev.dropTh (d : Dev) (h : Head) (j : Spot) : Nat :=
  let z := d.heads[h].spots[j].dropTh
  if z = 0 then d.fld (rDefCfg h) 0 4 else z

/-- Which criteria hold at the newest bit: dropout, bright, baseline, metric. The envelope is that of the last 16 samples
at the bit rate; nominal is at the current gain. -/
def Dev.criteria (d : Dev) (h : Head) (j : Spot) : List Bool :=
  let c := d.chan h j
  let last := c.bits.take 16
  let env := ((last.foldl max (last.headD 0)) - leastI last).natAbs * d.fld (rSpotGain h j) 0 16
  let nom := d.nominal h j * 2 ^ 14
  let dropping := decide (32 ≤ c.runs[0]) || (match d.heads[h].spots[j].span with | some x => x.2 | none => false)
  let drop :=
    if dropping then decide (env * 16 ≤ d.fld (rDefCfg h) 4 4 * nom) else decide (env * 16 < d.dropTh h j * nom)
  let e2 := ((c.es.take 64).map fun e => (e.1 * e.1).natAbs).sum
  [drop, decide ((8 + d.fld (rDefCfg h) 8 4) * nom < env * 8), decide (d.nominal h j < 4 * c.low.natAbs),
   decide (d.fld (rDefCfg h) 12 4 * d.heads[h].spots[j].noise * 64 < e2 * 4)]

/-- The criteria's runs after one more bit, and the bits since the last that qualified. -/
def Dev.countCriteria (d : Dev) (h : Head) (j : Spot) (crcBad : Bool) : Dev :=
  let holds := d.criteria h j ++ [crcBad]
  d.onChan h j fun c =>
    { c with runs := Vector.ofFn fun i => if holds.getD i.val false then c.runs[i] + 1 else 0,
             clear := if holds.any id then 0 else c.clear + 1,
             metricHere := c.metricHere || holds.getD 3 false }

/-! ### Adaptive loops (R99, R102, R108) -/

/-- Calibration owns tap t in this act: the loop does not adapt it (R102, R239). -/
def Dev.tapOwned (d : Dev) (h : Head) (j : Spot) (t : Nat) : Bool :=
  d.flag 0x88_0000 0 && (d.fld 0x88_0010 0 2 == 2 || d.flag (rCalCnt h j t) 16)

/-- Consecutive bits at a limit. -/
def Dev.countLimit (d : Dev) (h : Head) (j : Spot) (i : Fin 18) (at_ : Bool) : Dev :=
  d.onChan h j fun c => { c with limits := c.limits.set i (if at_ then c.limits[i] + 1 else 0) }

/-- A loop value moves by num / 2^shift and is clamped to its range; standing at a limit is counted. -/
def Dev.adapt (d : Dev) (h : Head) (j : Spot) (i : Fin 18) (a lo w : Nat) (signed : Bool) (low high num : Int)
    (shift : Nat) : Dev :=
  let old : Int := if signed then d.sfld a lo w else d.fld a lo w
  let (d, step) := d.near num (2 ^ shift)
  let v := clampI low high (old + step)
  (d.setF a lo w (uns w v)).countLimit h j i (v == low || v == high)

/-- Gain, offset, asymmetry and the adapting taps take one step from the bit at this depth in the error list. -/
def Dev.adaptBit (d : Dev) (h : Head) (j : Spot) (depth : Nat) : Dev :=
  match (d.chan h j).es[depth - 48]? with
  | none => d
  | some (e, ideal) =>
    let sh (lo : Nat) : Nat := d.fld (rLoopCfg h) lo 5
    let xs := (d.chan h j).xs.drop depth
    let d := d.adapt h j 0 (rSpotGain h j) 0 16 false 4096 65535 (e * ideal * 2 ^ 14) (sh 0)
    let d := d.adapt h j 1 (rSpotBase h j) 0 8 true (-128) 127 (e * 4) (sh 5)
    let a := d.sfld (rSpotBase h j) 16 10
    let (d, step) := d.near (e * ideal.sign * 1024) (2 ^ sh 10)
    let d := d.setF (rSpotBase h j) 16 10 (uns 10 (clampI (-256) 256 (a + step)))
    d.each ((List.finRange 15).filter fun t => t.val != 7 && !d.tapOwned h j t.val) fun d t =>
      d.adapt h j (Fin.ofNat 18 (2 + t.val)) (rSpotTap h j t.val) 0 12 true (-2048) 2047
        (e * xs.getD t.val 0 * 1024) (sh 15)

/-- Samples of 1.35 GS/s at 1 ppm of the rate: the oscillator's units in one channel bit. -/
def ncoBit : Nat := 1350000000 * 1000000

/-- The second-order loop: the phase detector's output, which the spec does not define, moves phase and rate. Both gains
are four times as large from the VFO to bit 1,664 (R99). -/
def Dev.timingLoop (d : Dev) (h : Head) (j : Spot) : Dev :=
  let pd := d.freshInt 16
  let d := d.drawn
  let q := (d.chan h j).pos
  let m : Int := if 640 ≤ q ∧ q < 1664 then 4 else 1
  let (d, ph) := d.near (pd * m * (ncoBit / 64 : Nat)) (2 ^ d.fld (rLoopCfg h) 20 5)
  let d := d.onChan h j fun c => { c with nco := ((c.nco : Int) + ph).toNat % ncoBit }
  let old := d.sfld (rSpotTiming h j) 16 16
  let (d, step) := d.near (pd * m) (2 ^ d.fld (rLoopCfg h) 25 5)
  let v := clampI (-5000) 5000 (old + step)
  (d.setF (rSpotTiming h j) 16 16 (uns 16 v)).countLimit h j 17 (v == -5000 || v == 5000)

/-- No update is made from a sample inside a marked span; a bit is used once that is settled. -/
def Dev.adaptLoops (d : Dev) (h : Head) (j : Spot) : Dev :=
  let depth := max 48 (32 + d.guardBits h)
  if d.marked h j ((d.chan h j).pos - depth) 1 then
    d.onChan h j fun c => { c with limits := (Vector.replicate 18 0).set 17 c.limits[17] }
  else (d.adaptBit h j depth).timingLoop h j

/-! ### The detector's windows (R101) -/

/-- Windows of 512 bits begin every 448 bits; each settles the bits up to 32 before its end. -/
def Dev.detectWindow (d : Dev) (h : Head) (j : Spot) : Dev :=
  let c := d.chan h j
  if d.fld (rSpotStat h j) 0 3 = 0 ∨ c.pos < 512 ∨ (c.pos - 512) % 448 ≠ 0 then d
  else
    let r := reliabilities (d.target h j) (c.ys.take 512).reverse
    let scaled := r.map fun l => quot (l * d.calCur h j 16) 16
    d.onChan h j fun c => { c with soft := c.soft ++ (scaled.drop (c.soft.length - (c.pos - 512))).take (c.pos - 32 - c.soft.length) }

/-! ### One channel bit, one sample, one multiblock -/

/-- A channel bit comes out of the interpolator (R99-R104). -/
def Dev.channelBit (d : Dev) (h : Head) (j : Spot) (x0 : Int) (crcBad : Bool) : Dev :=
  let d := (d.equalise h j x0).decide48 h j
  let low := d.freshInt 16
  let d := d.drawn.onChan h j fun c => { c with low }
  let d := (d.countCriteria h j crcBad).onChan h j fun c => { c with pos := c.pos + 1 }
  (d.adaptLoops h j).detectWindow h j

/-- An RF sample: the wobble carrier is separated and subtracted (R98), the oscillator advances by 56 times the wobble
frequency with its trim, and a channel bit is interpolated where one falls (R99). -/
def Dev.rfSample (d : Dev) (h : Head) (j : Spot) (x : Int) (crcBad : Bool) : Dev :=
  let carrier := d.freshInt 8
  let d := d.drawn.onChan h j fun c => { c with raw := ((x - carrier) :: c.raw).take 8, carrier }
  let rate := (56 * d.heads[h].wobble.freq * (1000000 + d.sfld (rSpotTiming h j) 16 16)).toNat
  let n := (d.chan h j).nco + rate
  let phase := n % ncoBit * 64 / ncoBit
  let d := (d.onChan h j fun c => { c with nco := n % ncoBit }).setF (rSpotTiming h j) 0 6 phase
  if n < ncoBit then d
  else
    let at_ := (((phase : Int) + d.calCur h j 15) % 64).toNat
    d.channelBit h j (Config.interpolate at_ (d.chan h j).raw) crcBad

/-- The RF samples of a multiblock for one spot, block by block. -/
def Dev.rfSamples (d : Dev) (h : Head) (j : Spot) (blocks : List (List Byte)) (crcBad : Bool) : Dev :=
  let half (b : List Byte) : List Byte := if j.val % 2 = 0 then b.take 4 else (b.drop 4).take 4
  d.each (blocks.flatMap fun b => Machine.rfSamples (half b)) fun d x => d.rfSample h j x crcBad

/-- The samples of S0 in a multiblock carry T0's wobble: its frequency is measured and its wobbles are counted. -/
def Dev.countWobbles (d : Dev) (h : Head) (samples : Nat) : Dev :=
  let f := d.fresh
  d.drawn.onHead h fun s =>
    { s with wobble := { s.wobble with freq := f, count := min (s.wobble.count + f * samples) (512 * 1350000000 - 1) } }

/-! ### LLRs of a place (R76, R101, R104, R110, R111) -/

/-- Three-bit groups of a stream that begins at a bit of the place, with the marks of the spans. -/
def Dev.groups (d : Dev) (h : Head) (j : Spot) (first : Int) (n : Nat) : List (List Int × Bool) :=
  let soft := ((d.chan h j).soft.drop first.toNat).take (3 * n)
  (chunks 3 n soft).zipIdx.map fun q => (q.1, d.marked h j (first + 3 * q.2) 3)

/-- The 6,192 payload LLRs of a frame in recorded order; an erased or unread frame gives zeros. -/
def Dev.frameLlrs (d : Dev) (h : Head) (j : Spot) (f : Nat) : List Int :=
  match sfind d.heads[h].spots[j].frames f with
  | some m =>
    if m.erased then List.replicate 6192 0
    else descramble j.val f m.sels ((softDemod (d.groups h j (m.pos + 48) 3144)).drop 96)
  | none => List.replicate 6192 0

/-- All frames' LLRs of the head: spot by spot, frame by frame. -/
def Dev.placeLlrs (d : Dev) (h : Head) : List (List (List Int)) :=
  allSpots.map fun j => (List.range 54).map fun f => d.frameLlrs h j f

/-- The LLRs of row c, put in place by the map of R88. -/
def rowLlrs (place : List (List (List Int))) (c : Nat) : List Int := (List.range 37152).map fun b =>
  let sfp := interleave c b
  ((place.getD sfp.1 []).getD sfp.2.1 []).getD sfp.2.2 0

end Sys2Proof.Machine
end

