-- ==== Sys2Proof/Machine/EnsLink.lean ====
section
/-! DEFINITION. The Sceral link's lower half: roles, sequenced frames, remote windows, and reading the directory
(13_ensemble.md, R15, R16, R326-R329, R338-R344). -/

namespace Sys2Proof.Machine

abbrev rEnsCfg : Nat := 0xD0_0000
abbrev rEnsStat : Nat := 0xD0_0004
abbrev rRwin : Nat := 0xD0_0008
abbrev rEpoch : Nat := 0xD0_000C
abbrev rHbCfg : Nat := 0xD0_0010
abbrev rLinkCfg : Nat := 0xD0_0014
abbrev rFwdBudget : Nat := 0xD0_0018
abbrev rDirBaseLo : Nat := 0xD0_0020
abbrev rDirBaseHi : Nat := 0xD0_0024
abbrev rDirCtl : Nat := 0xD0_0028
abbrev rMgrCtl : Nat := 0xD0_002C
abbrev rEnsCounts : Nat := 0xD0_0030
abbrev rPortCfg (p : Port) : Nat := 0xD0_0040 + 0x20 * p.val
abbrev rPortStat (p : Port) : Nat := 0xD0_0044 + 0x20 * p.val
abbrev rPortMacLo (p : Port) : Nat := 0xD0_0048 + 0x20 * p.val
abbrev rPortMacHi (p : Port) : Nat := 0xD0_004C + 0x20 * p.val
abbrev rMdioCmd : Nat := 0xD0_0080
abbrev rMdioStat : Nat := 0xD0_0084
abbrev rPtpCfg : Nat := 0xD0_0090
abbrev rPtpOfs : Nat := 0xD0_00A0

/-- ROLE: 0 standalone, 1 worker, 2 manager (R336). -/
def Dev.role (d : Dev) : Nat := d.fld rEnsCfg 0 2
def Dev.deviceId (d : Dev) : Nat := d.fld rEnsCfg 4 10
def Dev.managerId (d : Dev) : Nat := d.fld rEnsCfg 16 10
def Dev.epoch (d : Dev) : Nat := (d.rd rEpoch).toNat
def Dev.orphaned (d : Dev) : Bool := d.flag rEnsStat 3

/-- The active path's port (R323). -/
def Dev.activePort (d : Dev) : Port := Fin.ofNat 2 (d.fld rEnsStat 0 1)

/-- The other port. -/
def otherPort (p : Port) : Port := Fin.ofNat 2 (p.val + 1)

/-! ### Sequenced frames (R326-R329) -/

def Dev.peer (d : Dev) (id : Nat) : Peer := sget d.ens.peers .reset id

def Dev.onPeer (d : Dev) (id : Nat) (f : Peer → Peer) : Dev :=
  { d with ens.peers := sset d.ens.peers .reset id (f (d.peer id)) }

/-- The cumulative acknowledgement for a peer: the highest SEQ accepted in order, 0xFFFF_FFFF before any (R327, R328). -/
def Peer.ackNo (p : Peer) : Nat := (p.rxNext + 2 ^ 32 - 1) % 2 ^ 32

/-- Put one frame on the active path; it carries the acknowledgement that is due. -/
def Dev.putFrame (d : Dev) (id seq : Nat) (retx : Bool) (c : Payload) : Dev :=
  let p := d.peer id
  (d.emit (.frame d.activePort.val id seq retx (if p.since = 0 then none else some p.ackNo) d.epoch c)).onPeer id
    fun p => { p with since := 0 }

/-- Send a payload to a peer in order, within WINDOW (R326, R329). A standalone device has no link (R336). -/
def Dev.sendFrame (d : Dev) (id : Nat) (c : Payload) : Dev :=
  if d.role = 0 then d
  else
    let p := d.peer id
    if p.unacked.length < d.fld rLinkCfg 0 9 then
      (d.putFrame id p.txNext false c).onPeer id fun p =>
        { p with txNext := (p.txNext + 1) % 2 ^ 32, unacked := p.unacked ++ [{ seq := p.txNext, sentIn := d.beats, load := c }] }
    else d.onPeer id fun p => { p with queue := p.queue ++ [c] }

/-- Send again every unacknowledged frame from the oldest on, with RETX set (R329). -/
def Dev.resend (d : Dev) (id : Nat) : Dev :=
  (d.each (d.peer id).unacked fun d f => (d.putFrame id f.seq true f.load).bump rEnsCounts 0 16).onPeer id fun p =>
    { p with unacked := p.unacked.map fun f => { f with sentIn := d.beats } }

/-- Is sequence number a at or before b, modulo 2^32? -/
def seqLe (a b : Nat) : Bool := decide ((b + 2 ^ 32 - a % 2 ^ 32) % 2 ^ 32 < 2 ^ 31)

/-- Move waiting payloads into the window. -/
def Dev.fillWindow (d : Dev) (id : Nat) : Dev :=
  let q := (d.peer id).queue
  (d.onPeer id fun p => { p with queue := [] }).each q fun d c => d.sendFrame id c

/-- A cumulative acknowledgement arrives (R327, R329). -/
def Dev.ackUpTo (d : Dev) (id ack : Nat) : Dev :=
  (d.onPeer id fun p => { p with unacked := p.unacked.filter fun f => !seqLe f.seq ack }).fillWindow id

/-- Send an ACK packet (R328). -/
def Dev.sendAck (d : Dev) (id : Nat) (gap repeated : Bool) : Dev :=
  let p := d.peer id
  (d.emit (.ackPacket id gap repeated p.ackNo p.rxNext)).onPeer id fun p => { p with since := 0 }

/-- Discard what is unacknowledged and waiting to a peer (R329, R350). -/
def Dev.dropPeer (d : Dev) (id : Nat) : Dev := d.onPeer id fun p => { p with unacked := [], queue := [] }

/-! ### Remote windows (R15, R16) -/

/-- The device and window offset of a remote address. -/
def remoteOf (addr : Nat) : Nat × Nat := (addr / 2 ^ 36 % 2 ^ 10, addr % 2 ^ 36)

/-- The internal address that a window offset reaches on the device that serves it. The aperture starts at the QUARTER of the
device whose master asks, the local ENS_RWIN_BASE of R15 (notes/assumptions/83.md). -/
def windowAddr (quarter off : Nat) : Option Nat :=
  if off < 0x400_0000 then some off
  else if 0x800_0000 ≤ off ∧ off < 0x880_0000 then some off
  else if 0x8_0000_0000 ≤ off then
    some (0x40_0000_0000 + quarter % 4 * 2 ^ 35 + (off - 0x8_0000_0000))
  else none

/-! ### The directory (R338, R340) -/

def Dev.dirBase (d : Dev) : Nat := (d.rd rDirBaseLo).toNat + d.fld rDirBaseHi 0 16 * 2 ^ 32

/-- Read bytes of this device's copy of the directory. -/
def State.dirRead (s : State) (off len : Nat) : State × List Byte :=
  match s.readInternal .admitter (s.dev.dirBase + off) len with
  | (s, .ok bs) => (s, bs)
  | (s, .error _) => (s, List.replicate len 0)

def State.dirWrite (s : State) (off : Nat) (bs : List Byte) : State :=
  (s.writeInternal .admitter (s.dev.dirBase + off) bs).1

/-- A field of an entry's bytes. -/
def bytesField (bs : List Byte) (o n : Nat) : Nat := leNat ((bs.drop o).take n)

/-- Offset and size of an entry: table 1 member, 2 namespace, 3 extent. -/
def dirEntryOff (table : Nat) (i : Nat) : Nat :=
  if table = 1 then 0x1000 + 64 * i else if table = 2 then 0x2_0000 + 32 * i else 0x40_0000 + 160 * i
def dirEntrySize (table : Nat) : Nat := if table = 1 then 64 else if table = 2 then 32 else 160

/-- STATE of a device: 0 ABSENT, 1 MEMBER, 2 DOZING, 3 LOST. -/
def State.memberState (s : State) (id : Nat) : State × Nat :=
  let (s, b) := s.dirRead (dirEntryOff 1 id) 1
  (s, leNat b)

/-- A remote device can be reached: a member, not lost, and this device not orphaned (R16, R337). -/
def State.reachable (s : State) (id : Nat) : State × Bool :=
  let (s, st) := s.memberState id
  (s, !s.dev.orphaned && (st == 1 || st == 2))

/-- An extent (R338). -/
structure Extent where
  width : Nat
  copies : Nat
  su : Nat
  first : Nat
  count : Nat
  members : List Nat
  deriving DecidableEq, Repr

def extentOf (bs : List Byte) : Extent :=
  { width := bytesField bs 2 1, copies := bytesField bs 3 1, su := bytesField bs 4 4, first := bytesField bs 8 8,
    count := bytesField bs 16 8, members := (List.range 16).map fun k => bytesField bs (32 + 8 * k) 8 }

def State.extent (s : State) (i : Nat) : State × Extent :=
  let (s, b) := s.dirRead (dirEntryOff 3 i) 160
  (s, extentOf b)

/-- A namespace entry: defined, its LBA count, first and last extent. -/
def State.ensNs (s : State) (nsid : Nat) : State × Option (Nat × Nat × Nat) :=
  let (s, b) := s.dirRead (dirEntryOff 2 (nsid - 0x100)) 32
  (s, if bytesField b 2 2 % 2 = 1 then some (bytesField b 8 8, bytesField b 16 4, bytesField b 20 4) else none)

/-- The extent of a namespace that covers an LBA, searched from index i on. -/
def State.extentAt (s : State) (lba : Nat) : Nat → Nat → State × Option (Nat × Extent)
  | 0, _ => (s, none)
  | n + 1, i =>
    let (s, e) := s.extent i
    if e.first ≤ lba ∧ lba < e.first + e.count then (s, some (i, e)) else s.extentAt lba n (i + 1)

/-- A stripe unit touched: extent, column, ensemble range, local LBA offset inside a member (R343). -/
structure Piece where
  ext : Nat
  lba : Nat
  count : Nat
  column : Nat
  rel : Nat
  deriving DecidableEq, Repr

/-- Cut a range of a namespace into stripe units: none where an LBA lies outside every extent. -/
def State.cut (s : State) (first last : Nat) : Nat → Nat → Nat → State × Option (List Piece)
  | 0, _, _ => (s, some [])
  | fuel + 1, lba, n =>
    if n = 0 then (s, some [])
    else
      let (s, e) := s.extentAt lba (last + 1 - first) first
      match e with
      | none => (s, none)
      | some (i, e) =>
        let off := lba - e.first
        let unit := off / e.su
        let k := min n (min (e.su - off % e.su) (e.count - off))
        let p : Piece := { ext := i, lba, count := k, column := unit % e.width, rel := unit / e.width * e.su + off % e.su }
        let (s, r) := s.cut first last fuel (lba + k) (n - k)
        (s, r.map (p :: ·))

/-- Member entry of a copy and column. -/
def Extent.member (e : Extent) (copy column : Nat) : Nat := e.members.getD (copy * e.width + column) 0
def memDev (m : Nat) : Nat := m % 2 ^ 10
def memNsid (m : Nat) : Nat := m / 2 ^ 10 % 2 ^ 6
def memFirst (m : Nat) : Nat := m / 2 ^ 16 % 2 ^ 32
def memStale (m : Nat) : Bool := m.testBit 48

end Sys2Proof.Machine
end

