-- ==== Sys2Proof/Machine/Integrity.lean ====
section
/-! DEFINITION. Schedule faults of the main sheet and requests for GHOST_LIGHT (R25, R54-R56), and complement
mismatches (R355-R357). -/

namespace Sys2Proof.Machine

/-- A schedule fault while the main sheet runs: recorded, every write gate closed in the next cycle, the faulting engine
halted, and GHOST_LIGHT due at the next beat boundary (R54-R56). Causes 1 and 2 are detections of classes 1 and 2. -/
def Dev.faultMain (d : Dev) (engine cause chain : Nat) : Dev :=
  let d := (d.bump (rEvcnt 0) 0 16).recordFault engine cause chain false
  let d := if cause ≤ 2 then d.gcnt cause else d
  -- a GHOST_LIGHT request accepted in this beat loses to a fault (R26)
  let d := if cause ≠ 4 ∧ d.flag rTopMode 8 ∧ d.cue.request.isNone then d.refuseMode 2 else d
  let d := d.dropGates
  { d with
    cue.fault := some (d.cue.fault.getD { engine, cause, chain, slot := d.cue.slot.val }),
    cue.halted := if cause ≤ 2 then d.cue.halted ||| BitVec.ofNat 12 (2 ^ engine) else d.cue.halted }

/-- TOP_MODE.REQ = 0b11: refused in GHOST_LIGHT, and while a request or an entry waits; else a schedule fault with cause
REQUESTED (R25, R54). -/
def Dev.requestGl (d : Dev) : Dev :=
  if d.ghostLight then d.refuseMode 2
  else if d.flag rTopMode 8 ∨ d.cue.fault.isSome then d.refuseMode 4
  else ((d.setB rTopMode 8 true).raise 35 0x0C rTopMode 3 0 0).faultMain 0 4 0xFF

/-- Record one mismatch in FLT_MISMATCH with its call-board entry; a third in a row of a hardware pair requests
GHOST_LIGHT (R357). -/
def Dev.recordMismatch (d : Dev) (m : Mismatch) : Dev :=
  let d := ((((d.setF rMismatch 0 4 m.engine).setB rMismatch 4 m.hardware).setF rMismatch 5 2 (min m.count 3)).bump
    rMismatch 8 16).wr rMismatchAddr (BitVec.ofNat 32 (m.off % 2 ^ 26))
  let d := d.postAt 30 m.engine m.act m.pos false d.ghostLight m.off m.value m.kept m.writer
  if m.hardware ∧ 3 ≤ m.count then
    (({ d with flt.repeats := sdel d.flt.repeats m.key }).setB rMismatch 7 true).requestGl
  else d

/-- The COMPLEMENT_MISMATCH chain's work: every mismatch found so far is recorded (R357). -/
def Dev.mismatchChain (d : Dev) : Dev :=
  let ms := d.flt.waiting
  ({ d with flt.waiting := [] }).each ms Dev.recordMismatch

/-- A consumer finds a mismatch (R355, R357): detected now, recorded by the chain of event line 30. -/
def Dev.mismatch (d : Dev) (engine : Nat) (hardware : Bool) (off key value kept writer : Nat) : Dev :=
  let count := sget d.flt.repeats 0 key + 1
  let m : Mismatch := { engine, hardware, off, key, count, value, kept, writer, act := d.cue.act, pos := d.pos }
  let runs := d.chainRuns 30
  let d := { d with flt.waiting := d.flt.waiting ++ [m],
                    flt.repeats := if hardware then sput d.flt.repeats key count else d.flt.repeats }
  let d := (d.gcnt 0x03).raise 30 engine off value kept writer
  if runs then d.mismatchChain else d

/-- A check of a hardware pair that matches: its count returns to 0 (R357). -/
def Dev.pairMatched (d : Dev) (key : Nat) : Dev := { d with flt.repeats := sdel d.flt.repeats key }

/-- Check the 16-bit hardware pair of a register: its value, or none and a mismatch (R356). -/
def Dev.checkPair (d : Dev) (engine a kept : Nat) : Dev × Option Nat :=
  if d.pairHolds a then (d.pairMatched a, some (d.fld a 0 16))
  else (d.mismatch engine true a a (d.rd a).toNat kept 0, none)

end Sys2Proof.Machine
end

