-- ==== Sys2Proof/Machine/Hq.lean ====
section
/-! DEFINITION. Host rings: packets, posts, commands outstanding, deferred errors, admission and fetch
(10_host_queueing.md). -/

namespace Sys2Proof.Machine

/-! ### Registers (R281) -/

abbrev rSqBase (r : RingId) : Nat := 0x90_0000 + 0x40 * r.val
abbrev rCqBase (r : RingId) : Nat := 0x90_0008 + 0x40 * r.val
abbrev rRingCfg (r : RingId) : Nat := 0x90_0010 + 0x40 * r.val
abbrev rRingSize (r : RingId) : Nat := 0x90_0014 + 0x40 * r.val
abbrev rRingStat (r : RingId) : Nat := 0x90_0018 + 0x40 * r.val
abbrev rRingDefer (r : RingId) : Nat := 0x90_001C + 0x40 * r.val
abbrev rSqTail (r : RingId) : Nat := 0x91_0000 + 0x1000 * r.val
abbrev rCqHead (r : RingId) : Nat := 0x91_0004 + 0x1000 * r.val
abbrev rStream (s : Nat) : Nat := 0x92_0000 + 8 * s
abbrev rNs (n : Nat) : Nat := 0x93_0000 + 0x20 * (n - 1)
abbrev rHqCtl : Nat := 0x94_0000
abbrev rHqStat : Nat := 0x94_0004
abbrev rXrdy : Nat := 0x94_0008
abbrev rMsix (v : Nat) : Nat := 0x9F_8000 + 0x10 * v
abbrev rMsixPend (w : Nat) : Nat := 0x9F_C000 + 4 * w

def allRings : List RingId := List.finRange 16

def Dev.onRing (d : Dev) (r : RingId) (f : Ring → Ring) : Dev := { d with hq.rings := vmod d.hq.rings r f }

/-- A 64-bit value held in a _LO and _HI pair. -/
def Dev.rd64 (d : Dev) (a : Nat) : Nat := (d.rd a).toNat + (d.rd (a + 4)).toNat * 2 ^ 32

/-! ### Packets (R254, R255) -/

def pType (p : Slot) : Nat := slotField p 0 1
def pOp (p : Slot) : Nat := slotField p 1 1
def pFlags (p : Slot) : Nat := slotField p 2 1
def pStream (p : Slot) : Nat := slotField p 3 1
def pTag (p : Slot) : BitVec 16 := BitVec.ofNat 16 (slotField p 4 2)
def pNsid (p : Slot) : Nat := slotField p 6 2
def pLba (p : Slot) : Nat := slotField p 8 8
def pLbaN (p : Slot) : Nat := slotField p 16 8
def pLen (p : Slot) : Nat := slotField p 24 4
def pLenN (p : Slot) : Nat := slotField p 28 4
def pDptr (p : Slot) : Nat := slotField p 32 8
def pDlen (p : Slot) : Nat := slotField p 40 4
def pRefTag (p : Slot) : Nat := slotField p 44 4
def pCdw0 (p : Slot) : Nat := slotField p 48 4
def pCdw1 (p : Slot) : Nat := slotField p 52 4
def pCdw2 (p : Slot) : Nat := slotField p 56 4

def Cmd.op (c : Cmd) : Nat := pOp c.slot
def Cmd.nsid (c : Cmd) : Nat := pNsid c.slot
def Cmd.lba (c : Cmd) : Nat := pLba c.slot
def Cmd.len (c : Cmd) : Nat := pLen c.slot
def Cmd.fua (c : Cmd) : Bool := (pFlags c.slot).testBit 0
def Cmd.atomic (c : Cmd) : Bool := (pFlags c.slot).testBit 1
def Cmd.guard (c : Cmd) : Bool := (pFlags c.slot).testBit 2
def Cmd.direct (c : Cmd) : Bool := (pFlags c.slot).testBit 3
def Cmd.stream (c : Cmd) : Nat := pStream c.slot

/-- The command names an ensemble namespace (R261). -/
def Cmd.forwarded (c : Cmd) : Bool := decide (0x100 ≤ c.nsid) && (c.op == 0x10 || c.op == 0x11 || c.op == 0x12)

/-- Fill with zero bytes up to 64. -/
def pad64 (bs : List Byte) : List Byte := bs ++ List.replicate (64 - bs.length) 0

/-- A packet slot from its bytes. -/
def slotOf (bs : List Byte) : Slot := BitVec.ofNat 512 (leNat bs)

/-- The 64 bytes of a completion entry. -/
def postBytes (p : Post) (phase : Bool) (sqHead : Nat) : List Byte :=
  let head (ty fl : Nat) := leBytes 1 ty ++ leBytes 1 (b2n phase + fl) ++ leBytes 2 (sqHead % 4096)
  pad64 (match p with
    | .status tag st res info done nsid aux dg un mo =>
      head 4 (b2n dg * 2 + b2n un * 4 + b2n mo * 8) ++ leBytes 2 tag.toNat ++ leBytes 1 st ++ leBytes 1 res ++
        leBytes 8 info ++ leBytes 4 done ++ leBytes 2 nsid ++ leBytes 2 0 ++ leBytes 4 aux
    | .ready tag offer ofs count bytes =>
      head 2 0 ++ leBytes 2 tag.toNat ++ leBytes 2 offer ++ leBytes 4 ofs ++ leBytes 4 count ++ leBytes 4 bytes
    | .event code d0 d1 => head 6 0 ++ leBytes 2 code ++ leBytes 2 0 ++ leBytes 8 d0 ++ leBytes 8 d1)

/-! ### Posts (R251) -/

def Dev.ringOn (d : Dev) (r : RingId) : Bool := d.flag (rRingCfg r) 0
def Dev.sqSize (d : Dev) (r : RingId) : Nat := d.fld (rRingSize r) 0 13
def Dev.cqSize (d : Dev) (r : RingId) : Nat := d.fld (rRingSize r) 16 13
def Dev.sqHead (d : Dev) (r : RingId) : Nat := d.fld (rRingStat r) 0 12
/-- The submission tail as the admitter sampled it at the beat boundary (R10, R63). -/
def Dev.sqTailOf (d : Dev) (r : RingId) : Nat := d.smpF (rSqTail r) 0 12

/-- The completion ring holds one entry fewer than its size; its head is the one sampled at the beat boundary (R63). -/
def Dev.cqFull (d : Dev) (r : RingId) : Bool :=
  (d.hq.rings[r].cqTail + 1) % d.cqSize r == d.smpF (rCqHead r) 0 12

/-- Write one completion entry; PHASE inverts at the wrap. -/
def Dev.writePost (d : Dev) (r : RingId) (p : Post) : Dev :=
  let g := d.hq.rings[r]
  let wrap := decide (d.cqSize r ≤ g.cqTail + 1)
  (d.emit (.hostWrite (d.rd64 (rCqBase r) + 64 * g.cqTail) (postBytes p g.phase (d.sqHead r)))).onRing r fun g =>
    { g with cqTail := if wrap then 0 else g.cqTail + 1, phase := if wrap then !g.phase else g.phase,
             unsigSince := if g.unsignalled = 0 then d.beats else g.unsigSince, unsignalled := g.unsignalled + 1 }

/-- Is a held post an EVENT of this code? -/
def Post.isEvent (code : Nat) : Post → Bool
  | .event c _ _ => c == code
  | _ => false

def Post.isStatus : Post → Bool
  | .status .. => true
  | _ => false

/-- Hold a post; an EVENT merges into a held one of its code, and MODE and MEDIUM take the latest DATA (R251). -/
def holdPost (held : List Post) (p : Post) : List Post :=
  match p with
  | .event c d0 d1 =>
    if held.any (Post.isEvent c) then
      held.map fun q => if q.isEvent c && (c == 3 || c == 4) then .event c d0 d1 else q
    else held ++ [p]
  | p => held ++ [p]

/-- Post to a ring; a disabled ring takes none (R248). -/
def Dev.ringPost (d : Dev) (r : RingId) (p : Post) : Dev :=
  if !d.ringOn r then d
  else if d.hq.rings[r].held.isEmpty && !d.cqFull r then d.writePost r p
  else d.onRing r fun g => { g with held := holdPost g.held p }

/-- Write held posts while the completion ring has room. -/
def Dev.drainHeld (d : Dev) (r : RingId) : Dev :=
  let go (d : Dev) : Dev :=
    match d.hq.rings[r].held with
    | p :: rest => if d.cqFull r then d else (d.onRing r fun g => { g with held := rest }).writePost r p
    | [] => d
  d.each (List.range d.hq.rings[r].held.length) fun d _ => go d

/-- Post to where a command came from: its ring, or its entry device in a PACKETS frame. -/
def Dev.srcPost (d : Dev) (src : CmdSrc) (p : Post) : Dev :=
  match src with
  | .ring r => d.ringPost r p
  | .peer id => d.sendFrame id.val (.packets [postBytes p false 0])

/-- An event for the host, on the ring of HQ_CTL.EVENT_RING (R256). -/
def Dev.hostEvent (d : Dev) (code d0 d1 : Nat) : Dev :=
  d.ringPost (Fin.ofNat 16 (d.smpF rHqCtl 0 4)) (.event code d0 d1)

/-! ### Commands -/

/-- Commands of a ring whose STATUS has not been posted (R250). -/
def Dev.outstandingOf (d : Dev) (r : RingId) : Nat :=
  (d.hq.cmds.filter fun c => c.src == .ring r).length + (d.hq.rings[r].held.filter Post.isStatus).length

/-- Commands outstanding in the device. -/
def Dev.outstanding (d : Dev) : Nat :=
  d.hq.cmds.length + (d.hq.rings.toList.map fun g => (g.held.filter Post.isStatus).length).sum

/-- The tag is that of an outstanding command of its source. -/
def Dev.tagBusy (d : Dev) (src : CmdSrc) (tag : BitVec 16) : Bool :=
  d.hq.cmds.any (fun c => c.src == src && c.tag == tag) ||
    match src with
    | .ring r => d.hq.rings[r].held.any fun p => match p with
        | .status t _ _ _ _ _ _ _ _ _ => t == tag
        | _ => false
    | .peer _ => false

/-- The outstanding command of a source and tag with this opcode. -/
def Dev.cmdOf (d : Dev) (src : CmdSrc) (tag : BitVec 16) (op : Nat) : Option Cmd :=
  d.hq.cmds.find? fun c => c.src == src && c.tag == tag && c.op == op

/-- Change a command in its place. -/
def Dev.setCmd (d : Dev) (c : Cmd) : Dev :=
  { d with hq.cmds := d.hq.cmds.map fun x => if x.order = c.order then c else x }

/-- A command completes: it leaves the list and its STATUS is posted (R259). -/
def Dev.complete (d : Dev) (c : Cmd) (st : Nat) (res info done aux : Nat := 0) (dg un : Bool := false)
    (ns : Nat := c.nsid) : Dev :=
  let d := { d with hq.cmds := d.hq.cmds.filter fun x => x.order != c.order }
  if c.silent then d else d.srcPost c.src (.status c.tag st res info done ns aux dg un false)

/-! ### Namespaces (R261) -/

def Dev.nsOn (d : Dev) (n : Nat) : Bool := decide (1 ≤ n) && decide (n ≤ 32) && d.flag (rNs n + 0x0C) 0
def Dev.nsFirst (d : Dev) (n : Nat) : Nat := d.rd64 (rNs n)
def Dev.nsCount (d : Dev) (n : Nat) : Nat := (d.rd (rNs n + 8)).toNat
def Dev.nsReplace (d : Dev) (n : Nat) : Bool := d.flag (rNs n + 0x0C) 1
def Dev.nsSide (d : Dev) (n : Nat) : Side := Fin.ofNat 2 (d.nsFirst n / 166019072)

/-- The side a local command touches. -/
def Dev.cmdSide (d : Dev) (c : Cmd) : Side := d.nsSide c.nsid

/-! ### Buffered rows and stream use (R270) -/

/-- What the buffer holds for a medium LBA: the newest row whose space is not released. -/
def Dev.rowAt (d : Dev) (mlba : Nat) : Option Row :=
  d.hq.rows.reverse.find? fun r => r.mlba == mlba && !r.released

/-- Bytes a stream holds: unanswered offers, received data, and acknowledged rows not yet released. -/
def Dev.streamUse (d : Dev) (s : Nat) : Nat :=
  4096 * ((d.hq.cmds.map fun c => if c.stream = s && !c.acked then (c.offers.map Offer.count).sum + c.got.length else 0).sum
    + (d.hq.rows.filter fun r => r.stream == s && !r.released).length)

/-- Bytes all write data holds in the buffer. -/
def Dev.bufferUse (d : Dev) : Nat :=
  4096 * ((d.hq.cmds.map fun c => if c.acked then 0 else (c.offers.map Offer.count).sum + c.got.length).sum
    + (d.hq.rows.filter fun r => !r.released).length)

/-- A codeword of data in the buffer cannot be corrected (R289). Where the allocator has put the data the spec does not say,
so which codeword it is, is free (notes/assumptions/85.md). -/
def Dev.bufferFault (d : Dev) (req : Nat) : Dev :=
  let (d, line) := d.draw (d.mappedBytes / 8)
  let (d, s0) := d.draw 256
  let (d, s1) := d.draw 256
  d.bufUncorrectable (8 * line) req s0 s1

/-! ### Deferred errors (R273) -/

/-- Queue one deferred error on the ring that owes it, or report it to the entry device. -/
def Dev.deferOne (d : Dev) (src : CmdSrc) (nsid lba count status : Nat) : Dev :=
  let full := match src with | .ring r => decide (64 ≤ d.hq.rings[r].defers.length) | .peer _ => false
  let e : Defer := { seq := d.hq.deferSeq + 1, src, nsid, lba, count, status, reported := false, overflow := full,
                     timeSec := d.sec }
  let d := { d with hq.deferSeq := e.seq, hq.deferLog := (e :: d.hq.deferLog).take 1024 }
  let d := match src with
    | .ring r =>
      if full then d.setB (rRingDefer r) 7 true
      else (d.onRing r fun g => { g with defers := g.defers ++ [e] }).setF (rRingDefer r) 0 7
        (d.hq.rings[r].defers.length + 1)
    | .peer _ => d
  d.srcPost src (.event 1 lba nsid)

/-- Ranges of consecutive LBAs of one source and namespace: source, NSID, first LBA, count. -/
def rowRanges : List Row → List (CmdSrc × Nat × Nat × Nat)
  | [] => []
  | r :: rs =>
    match rowRanges rs with
    | (s, n, l, c) :: rest =>
      if s = r.src ∧ n = r.nsid ∧ l = r.lba + 1 then (s, n, r.lba, c + 1) :: rest
      else (r.src, r.nsid, r.lba, 1) :: (s, n, l, c) :: rest
    | [] => [(r.src, r.nsid, r.lba, 1)]

/-- Acknowledged rows have failed on the medium: they leave the buffer and become deferred errors. -/
def Dev.deferRows (d : Dev) (rows : List Row) (status : Nat) : Dev :=
  let d := { d with hq.rows := d.hq.rows.filter fun r => !rows.contains r }
  d.each (rowRanges (rows.filter fun r => !r.writes.isEmpty)) fun d g => d.deferOne g.1 g.2.1 g.2.2.1 g.2.2.2 status

/-! ### What waits for commits and completions (R265, R275, R276, R278, R280) -/

/-- Nothing is left of an acknowledged write. -/
def Dev.writeDone (d : Dev) (order : Nat) : Bool := !d.hq.rows.any fun r => r.writes.contains order && !r.committed

/-- Every row acknowledged before this order is committed. -/
def Dev.flushed (d : Dev) (order : Nat) : Bool := !d.hq.rows.any fun r => decide (r.order < order) && !r.committed

/-- SPN_STAT.STATE is STOPPED. -/
def Dev.spindleStopped (d : Dev) : Bool := d.fld 0x60_0000 0 3 == 0

/-- Every LBA of a failed sub-command has another copy that succeeded (R348). -/
def Cmd.covered (c : Cmd) (u : Sub) : Bool :=
  c.subs.any fun v => v.state == 2 && v.lba == u.lba && v.count == u.count && v.copy != u.copy

/-- The sub-commands whose failure counts: a RETRY that another copy covers does not (R348). -/
def Cmd.failures (c : Cmd) : List Sub :=
  c.subs.filter fun u => u.state == 3 && !(c.op == 0x11 && u.status == 0x51 && c.covered u)

/-- The failure that covers the lowest LBA of the command (R30). -/
def Cmd.worst (c : Cmd) : Option Sub :=
  c.failures.foldl (fun (b : Option Sub) u => match b with
    | some v => if u.lba < v.lba then some u else some v
    | none => some u) none

/-- The one STATUS of a forwarded command, once every sub-command has completed (R30). -/
def Dev.fwdStatus (d : Dev) (c : Cmd) (done : Nat) : Dev :=
  let dg := c.subs.any Sub.degraded
  match c.worst with
  | some u => d.complete c u.status (info := u.lba) (done := done) (dg := dg)
  | none =>
    let unwr := c.subs.find? Sub.unwritten
    match c.subs.find? fun u => u.status == 1 with
    | some u => d.complete c 1 (info := u.lba) (done := c.len) (dg := dg) (un := unwr.isSome)
    | none => d.complete c 0 (info := (unwr.map Sub.lba).getD 0) (done := c.len) (dg := dg) (un := unwr.isSome)

/-- A forwarded write whose data has been sent on: its own local parts end with the commit where FUA asks for it, and
the command ends with the last sub-command (R344, R348). -/
def Dev.fwdWriteOn (d : Dev) (c : Cmd) : Dev :=
  let subs := c.subs.map fun (u : Sub) =>
    if u.state = 1 ∧ u.dev = d.deviceId ∧ (!c.fua ∨ d.writeDone c.order) then { u with state := 2 } else u
  let c := { c with subs := subs }
  let d := d.setCmd c
  if subs.all fun u => u.state == 2 || u.state == 3 then d.fwdStatus c 0 else d

/-- Some acknowledged write is not committed. -/
def Dev.uncommitted (d : Dev) : Bool := d.hq.rows.any fun r => !r.committed

/-- The inactive cue-store bank. -/
def Dev.otherBank (d : Dev) : Fin 2 := if d.flag rCueStatus 1 then 0 else 1

/-- FW_ACTIVATE has reached quiescence: no other started command is left and, in PERFORMANCE, every acknowledged write is
committed; the swap waits for its act boundary (R62, R278). -/
def Dev.activationReady (d : Dev) (c : Cmd) : Dev :=
  if d.hq.activate ≠ some c.order ∨ d.cue.swap.isSome ∨ (d.hq.cmds.any fun x => x.order != c.order && x.started) ∨
      (d.performance ∧ d.uncommitted) then d
  else ({ d with cue.swap := some (d.cue.banks[d.otherBank], pCdw0 c.slot % 2) }).setB rCueStatus 2 true

/-- A head takeover is in force on a side that a command works on: its STATUS carries DEGRADED (R179). -/
def Dev.degradedCmd (d : Dev) (c : Cmd) : Bool :=
  if c.op = 0x11 then !c.forwarded && (d.sides[d.nsSide c.nsid]).takeover
  else allSides.any fun x => (d.sides[x]).takeover && (c.op == 0x20 || c.op == 0x21 || c.op == 0x13)

/-- Complete one command that has been waiting, if what it waits for has come about. -/
def Dev.settleOne (d : Dev) (c : Cmd) : Dev :=
  if !(d.hq.cmds.any fun x => x.order == c.order) then d
  else if c.op = 0x11 ∧ c.acked ∧ !c.forwarded ∧ d.writeDone c.order then d.complete c 0 (done := c.len) (dg := d.degradedCmd c)
  else if c.op = 0x11 ∧ c.acked ∧ c.forwarded then d.fwdWriteOn c
  else if !c.started then d
  else if c.op = 0x13 then if d.flushed c.order && d.hq.curtain.isNone then d.complete c 0 (dg := d.degradedCmd c) else d
  else if c.op = 0x20 then
    -- LOAD ends once every side that a head serves has its MOUNT record on the disc (R152, R280)
    if allSides.all d.sideDown then d.complete c 0x40
    else if allSides.all fun x => d.sideDown x || ((d.sides[x]).mounted && (d.sides[x]).recFlight.isNone) then
      (d.hostEvent 4 1 0).complete c 0 (dg := d.degradedCmd c)
    else d
  else if c.op = 0x42 then
    -- each affected command has posted its STATUS: none is held on the target ring, or the reset's own follows it there
    let r : RingId := Fin.ofNat 16 (pCdw0 c.slot)
    if (d.hq.cmds.any fun x => c.waitFor.contains x.order) || (c.src != .ring r && d.hq.rings[r].held.any Post.isStatus) then d
    else (d.complete c 0).setB (rRingStat r) 28 false
  else if c.op = 0x43 then
    if d.hq.cmds.any fun x => c.waitFor.contains x.order then d else d.setB rHqCtl 8 d.hq.activate.isSome
  else if c.op = 0x21 then
    if d.hq.unloaded ∧ !d.hq.ejected ∧ d.spindleStopped then
      let d := d.emit .eject
      { d with hq.ejected := true }
    else if d.hq.ejected ∧ !d.hq.disc then
      let d := d.complete c 0 (dg := d.degradedCmd c)
      { d with hq.ejected := false }
    else d
  else if c.op = 0x41 then d.activationReady c
  else d

/-- Let every waiting command see what has changed; a completion may free another command. -/
def Dev.settle (d : Dev) : Dev :=
  d.each (List.range (d.hq.cmds.length)) fun d _ => d.each d.hq.cmds Dev.settleOne

/-! ### Admission (R257, R260, R261) -/

/-- Opcodes of R257. -/
def opcodes : List Nat :=
  [0x10, 0x11, 0x12, 0x13, 0x20, 0x21, 0x30, 0x31, 0x32, 0x33, 0x34, 0x40, 0x41, 0x42, 0x43]

def isRw (op : Nat) : Bool := op == 0x10 || op == 0x11 || op == 0x12
/-- The media commands of R27. -/
def isMedia (op : Nat) : Bool := isRw op || op == 0x13 || op == 0x20 || op == 0x21

/-- Check 3: the offset of the first complement that does not match, and its value. -/
def badPair (p : Slot) : Option (Nat × Nat) :=
  let op := pOp p
  let usesRange := isRw op || op == 0x40 || (op == 0x32 && pCdw0 p % 2 ^ 16 == 2)
  if usesRange && !pairOk 64 (pLba p) (pLbaN p) then some (16, pLbaN p)
  else if usesRange && !pairOk 32 (pLen p) (pLenN p) then some (28, pLenN p)
  else if op == 0x34 && !pairOk 32 (pCdw1 p) (pCdw2 p) then some (56, pCdw2 p)
  else if op == 0x32 && pCdw0 p % 2 ^ 16 == 1 && !pairOk 16 (pCdw1 p % 2 ^ 16) (pCdw1 p / 2 ^ 16) then
    some (54, pCdw1 p / 2 ^ 16)
  else none

/-- The size of a GET_LOG page (R258). -/
def pageSize : Nat → Option Nat
  | 1 => some 32768
  | 2 => some 262144
  | 3 => some 4160
  | 4 => some 128
  | _ => none

/-- A data pointer: alignment of DPTR, and DLEN as bytes or as list entries. -/
def badPointer (dptr dlen : Nat) (direct : Bool) (oPtr oLen : Nat) : Option Nat :=
  if dptr % 4 ≠ 0 then some oPtr
  else if dlen = 0 ∨ (if direct then dlen % 4 ≠ 0 else 65536 < dlen) then some oLen
  else none

/-- The booted slot (PWR_BOOT.SLOT). -/
def Dev.bootedSlot (d : Dev) : Nat := d.fld 0xF0_0014 0 1

/-- Check 4: the offset of the first field whose value is wrong. -/
def Dev.badField (d : Dev) (src : CmdSrc) (p : Slot) : Option Nat :=
  let op := pOp p; let ns := pNsid p
  let host := match src with | .ring _ => true | .peer _ => false
  if isRw op then
    let local_ := d.nsOn ns && !(host && d.ens.memberNs.contains ns)
    if !(local_ || (host && decide (0x100 ≤ ns) && decide (ns ≤ 0xFFFE))) then some 6
    else if op = 0x11 ∧ 63 < pStream p then some 3
    else if op = 0x10 then badPointer (pDptr p) (pDlen p) ((pFlags p).testBit 3) 32 40
    else none
  else if op = 0x30 then
    if 1 < pCdw0 p then some 48
    else if pCdw0 p = 0 ∧ ns ≠ 0 then some 6
    else badPointer (pDptr p) (pDlen p) ((pFlags p).testBit 3) 32 40
  else if ns ≠ 0 then some 6
  else match op with
    | 0x31 =>
      match pageSize (pCdw0 p) with
      | none => some 48
      | some n =>
        if pDptr p % 4 ≠ 0 then some 32
        else if pDlen p = 0 ∨ pDlen p % 4 ≠ 0 ∨ n < pDlen p then some 40 else none
    | 0x32 | 0x33 =>
      let f := pCdw0 p % 2 ^ 16; let n := pCdw0 p / 2 ^ 16
      if f = 0 ∨ 5 < f ∨ (f = 2 ∧ (n = 0 ∨ 32 < n)) then some 48 else none
    | 0x34 => if 63 < pCdw0 p then some 48 else none
    | 0x40 => if 63 < pStream p then some 3 else if pCdw0 p % 2 = d.bootedSlot then some 48 else none
    | 0x42 => if 15 < pCdw0 p then some 48 else none
    | _ => none

/-- The sub-commands a piece takes: one for a read, one per copy for a write. -/
def copiesOf (op : Nat) (e : Extent) : Nat := if op = 0x11 then e.copies else 1

/-- Checks 5 to 7 of a command on an ensemble namespace: a status where one fails (R343, R344). -/
def State.ensRange (s : State) (p : Slot) : State × Option (Nat × Nat) :=
  let (s, ns) := s.ensNs (pNsid p)
  match ns with
  | none => (s, some (0x21, 6))
  | some (count, first, last) =>
    if pLba p + pLen p > count then (s, some (0x23, 0))
    else
      let (s, ps) := s.cut first last 257 (pLba p) (pLen p)
      match ps with
      | none => (s, some (0x23, 0))
      | some ps =>
        let (s, n) := ps.foldl (fun (sn : State × Nat) q =>
          let (s, e) := sn.1.extent q.ext
          (s, sn.2 + copiesOf (pOp p) e)) (s, 0)
        if 256 < n ∨ (ps.map Piece.count).sum ≠ pLen p then (s, some (0x22, 0))
        else if (pFlags p).testBit 1 ∧ 1 < ps.length then (s, some (0x21, 2))
        else (s, none)

/-- A side that no head serves, a spindle in LOCKOUT: media commands complete with NOT_READY (R180, R203). -/
def Dev.lockout (d : Dev) : Bool := d.fld 0x60_0000 0 3 == 5

/-- The rows a local command touches, as medium LBAs. -/
def Dev.mlbas (d : Dev) (p : Slot) : List Nat :=
  (List.range (pLen p)).map fun k => d.nsFirst (pNsid p) + pLba p + k

/-- The command needs the medium: R203 spares a read the buffer holds whole, a LOAD of a mounted disc and a FLUSH with
nothing to wait for. -/
def Dev.needsMedium (d : Dev) (p : Slot) : Bool :=
  if pOp p = 0x10 ∨ pOp p = 0x12 then !(d.mlbas p).all fun m => (d.rowAt m).isSome
  else if pOp p = 0x13 then d.hq.rows.any fun r => !r.committed
  else if pOp p = 0x20 then !(d.sides[0].mounted && d.sides[1].mounted)
  else true

/-- PERFORMANCE is to end by an accepted request: no media command is fetched or started any more (R25). -/
def Dev.leaving (d : Dev) : Bool := d.performance && d.cue.request == some 2

/-- A mount runs under R152. -/
def Dev.mounting (d : Dev) : Bool := d.hq.cmds.any fun c => c.op == 0x20 && c.started

/-- A media command may run: in PERFORMANCE, once it is to end only if it has started (R25, R27), and not while a mount
runs. -/
def Dev.mayRun (d : Dev) (c : Cmd) : Bool := d.performance && (c.started || !d.leaving) && (c.op == 0x20 || !d.mounting)

/-- Check 8: mode and medium. -/
def Dev.notReady (d : Dev) (p : Slot) : Option Nat :=
  let op := pOp p
  if isRw op ∧ 0x100 ≤ pNsid p ∧ d.orphaned then some 0x40
  else if !isMedia op then none
  else if !d.performance then some 0x40
  else if isRw op ∧ 0x100 ≤ pNsid p then none
  else if !d.hq.disc then some 0x41
  else if op ≠ 0x20 ∧ !d.mounting ∧ !d.sides[0].mounted ∧ !d.sides[1].mounted then some 0x40
  else if isRw op ∧ d.sideDown (d.nsSide (pNsid p)) then some 0x40
  else if op = 0x13 ∧ allSides.any (fun x => d.sideDown x && d.hq.rows.any fun r => (homeOf r.mlba).1.side == x && !r.committed) then
    some 0x40
  else if d.lockout ∧ d.needsMedium p then some 0x40
  else none

/-- Check 9, as far as the admitter knows it: log, spare and table limits. -/
def Dev.noRoom (d : Dev) (p : Slot) : Bool :=
  let x := d.nsSide (pNsid p)
  pOp p == 0x11 && decide (pNsid p < 0x100) && (d.flag (rSideLog x) 24 ||
    (d.flag (rSideSpare x) 31 && (d.mlbas p).any fun m => d.placeState (homeOf m).1 != 0))

/-- The checks of R260 in order: status, RESULT and INFO of the first that fails. -/
def State.admitCommand (s : State) (src : CmdSrc) (p : Slot) : State × Option (Nat × Nat × Nat) :=
  let d := s.dev
  let op := pOp p
  if !opcodes.contains op then (s, some (0x20, 0, 0))
  else if d.tagBusy src (pTag p) then (s, some (0x21, 4, 0))
  else match badPair p with
  | some (o, v) =>
    let ring := match src with | .ring r => r.val | .peer id => id.val
    (s.onDev fun d => d.post 0x0132 6 ring (pTag p).toNat o v, some (0x21, o, 0))
  | none =>
  match d.badField src p with
  | some o => (s, some (0x21, o, 0))
  | none =>
    let ranged := isRw op || op == 0x40
    if ranged ∧ (pLen p = 0 ∨ 1048576 < pLen p) then (s, some (0x22, 0, 0))
    else if isRw op ∧ (pFlags p).testBit 1 ∧ 2048 < pLen p then (s, some (0x21, 2, 0))
    else
      let (s, ens) := if isRw op ∧ 0x100 ≤ pNsid p then s.ensRange p else (s, none)
      match ens with
      | some (st, r) => (s, some (st, r, 0))
      | none =>
        if isRw op ∧ pNsid p < 0x100 ∧ d.nsCount (pNsid p) < pLba p + pLen p then (s, some (0x23, 0, 0))
        else if op = 0x40 ∧ 6144 < pLba p + pLen p then (s, some (0x23, 0, 0))
        else match d.notReady p with
          | some st => (s, some (st, 0, 0))
          | none => if d.noRoom p then (s, some (0x31, 0, pLba p)) else (s, none)

/-- Answer an entry with a STATUS of its own. -/
def Dev.answer (d : Dev) (src : CmdSrc) (tag : BitVec 16) (st res info : Nat) (ns aux : Nat := 0)
    (more : Bool := false) : Dev :=
  d.srcPost src (.status tag st res info 0 ns aux false false more)

/-- A command as it is fetched. -/
def Cmd.fetched (src : CmdSrc) (p : Slot) (order : Nat) : Cmd :=
  { src, tag := pTag p, slot := p, order, started := false, ready := false, offered := 0, nextOffer := 0, offers := [],
    got := [], acked := false, units := 0, subs := [], waitFor := [], silent := false, again := [] }

/-- A deferred error of the log has been reported. -/
def Dev.markReported (d : Dev) (seq : Nat) : Dev :=
  let log := d.hq.deferLog.map fun (x : Defer) => if x.seq = seq then { x with reported := true } else x
  { d with hq.deferLog := log }

/-- A COMMAND is fetched: it answers a deferred error, is refused, or joins the outstanding commands (R260, R273). -/
def State.takeCommand (s : State) (src : CmdSrc) (p : Slot) : State :=
  let owed := match src with | .ring r => s.dev.hq.rings[r].defers.head? | .peer _ => none
  match owed, src with
  | some e, .ring r =>
    s.onDev fun d =>
      let rest := d.hq.rings[r].defers.drop 1
      let d := (d.onRing r fun g => { g with defers := rest }).setF (rRingDefer r) 0 7 rest.length
      let d := d.markReported e.seq
      d.answer src (pTag p) 0x32 e.status e.lba e.nsid e.count !rest.isEmpty
  | _, _ =>
    let (s, bad) := s.admitCommand src p
    match bad with
    | some (st, res, info) => s.onDev fun d => d.answer src (pTag p) st res info (if info = 0 then 0 else pNsid p)
    | none => s.onDev fun d =>
        { d with hq.order := d.hq.order + 1, hq.cmds := d.hq.cmds ++ [Cmd.fetched src p d.hq.order] }

/-- One packet from a submission ring or a peer (R254). -/
def State.takeEntry (s : State) (src : CmdSrc) (p : Slot) : State :=
  if pType p = 1 then s.takeCommand src p
  else if pType p = 3 ∨ pType p = 5 then s.onDev fun d => { d with hq.entries := d.hq.entries ++ [(src, p)] }
  else s.onDev fun d => d.answer src (pTag p) 0x20 0 0

/-! ### Fetching (R39, R250, R251, R447) -/

/-- A ring that has new entries and may be fetched from; its enable is the one sampled at the beat boundary (R63). -/
def Dev.ringReady (d : Dev) (r : RingId) : Bool :=
  d.smpF (rRingCfg r) 0 1 == 1 && d.sqHead r != d.sqTailOf r && !d.hq.rings[r].stopped && d.hq.rings[r].held.isEmpty &&
    !d.flag (rRingStat r) 28

/-- The next ring in the round. -/
def Dev.nextRing (d : Dev) : Option RingId :=
  ((List.range 16).map fun k => (Fin.ofNat 16 (d.hq.lastRing.val + 1 + k) : RingId)).find? d.ringReady

/-- Entries the claim may take: two, what the ring holds, the act's budget, the device's limit. -/
def Dev.fetchCount (d : Dev) (r : RingId) : Nat :=
  let held := (d.sqTailOf r + d.sqSize r - d.sqHead r) % d.sqSize r
  min (min 2 held) (min (d.fld (rBudget 0) 0 24 - d.cue.used[0]) (8192 - d.outstanding))

/-- A fetch that fails: nothing is consumed and the ring waits for its next tail (R447). -/
def Dev.fetchFail (d : Dev) (r : RingId) (cause : Nat) : Dev :=
  let d := (d.setB (rRingStat r) 29 true).onRing r fun g => { g with stopped := true }
  d.post 0x0133 6 r.val (d.rd64 (rSqBase r) + 64 * d.sqHead r) cause (d.sqHead r)

/-- A fetch claim (R39). The ring served last is the last one whose entries were taken or whose read failed. -/
def State.commandFetch (s : State) (res : FetchResult) : State :=
  let d := s.dev
  if !d.fabric || d.stopped || d.engineHalted 6 || d.flag rHqCtl 8 then s
  else if 8192 ≤ d.outstanding then s.onDev fun d => d.setB rHqStat 14 true
  else match d.nextRing with
  | none => s
  | some r =>
    let s := s.onDev fun d => d.setB rHqStat 14 false
    let n := d.fetchCount r
    let serve (d : Dev) : Dev := { d with hq.lastRing := r }
    if d.fld (rBudget 0) 0 24 ≤ d.cue.used[0] then s.onDev fun d => d.hitBudget 0
    else if !d.pcie.busMaster then s.onDev fun d => (serve d).fetchFail r 4
    else match res with
      | .failed c => s.onDev fun d => (serve d).fetchFail r (c.val + 1)
      | .entries es =>
        let es := (es.take n).takeWhile fun e => !(s.dev.leaving && pType e == 1 && isMedia (pOp e))
        let head := (d.sqHead r + es.length) % d.sqSize r
        let s := s.onDev fun d => { (d.onlyIf (!es.isEmpty) serve).setF (rRingStat r) 0 12 head with
          cue.used := vmod d.cue.used 0 (· + es.length) }
        (es.foldl (fun s e => s.takeEntry (.ring r) e) s).onDev Dev.settle

def execCommandFetch (res : FetchResult) (s : State) : Host.Outcome State Fault Refusal := .next (s.commandFetch res)

/-! ### Doorbells, enables, interrupts (R250-R253) -/

/-- A write of HQ_RINGr_SQ_TAIL. -/
def Dev.sqDoorbell (d : Dev) (r : RingId) (v : W32) : Dev :=
  let t := fget v 0 12
  if d.sqSize r ≤ t then d.setB (rRingStat r) 27 true
  else (d.setF (rSqTail r) 0 12 t).onRing r fun g => { g with stopped := false }

def execSqTailDoorbell (_m : Master) (r : RingId) (v : W32) (s : State) : Host.Outcome State Fault Refusal :=
  .next { s with dev := s.dev.sqDoorbell r v }

/-- A write of HQ_RINGr_CQ_HEAD; held posts follow from the next beat boundary, which samples it (R10, R63). -/
def Dev.cqDoorbell (d : Dev) (r : RingId) (v : W32) : Dev :=
  let t := fget v 0 12
  if d.cqSize r ≤ t then d.setB (rRingStat r) 27 true else d.setF (rCqHead r) 0 12 t

def execCqHeadDoorbell (_m : Master) (r : RingId) (v : W32) (s : State) : Host.Outcome State Fault Refusal :=
  .next { s with dev := s.dev.cqDoorbell r v }

/-- The engines' samples of a register also take the value in force: the hardware itself has set it (R253, R270). -/
def Dev.resample (d : Dev) (a : Nat) : Dev := { d with sampled := sset d.sampled (regReset a) a (d.rd a) }

/-- A write of HQ_RINGr_CFG (R253); enabling also clears the samples of the two indices. -/
def Dev.ringCfgWrite (d : Dev) (r : RingId) (v : W32) : Dev :=
  let keep (d : Dev) : Dev := d.wr (rRingCfg r) ((v &&& 0xFF_FFFD) ||| (d.rd (rRingCfg r) &&& ~~~ v &&& 2))
  let sizeOk (n : Nat) : Bool := decide (2 ≤ n) && decide (n ≤ 4096)
  if v.getLsbD 0 then
    if !sizeOk (d.sqSize r) || !sizeOk (d.cqSize r) then d.setB (rRingCfg r) 1 true
    else if d.ringOn r then keep d
    else
      (((((keep d).setF (rRingStat r) 0 12 0).setF (rSqTail r) 0 12 0).setF (rCqHead r) 0 12 0).resample (rSqTail r)).resample
          (rCqHead r) |>.onRing r fun g =>
        { g with cqTail := 0, phase := true, held := [], unsignalled := 0, stopped := false }
  else if d.outstandingOf r ≠ 0 then d.setB (rRingCfg r) 1 true
  else (keep d).onRing r fun g => { g with held := [] }

def execRingEnable (_m : Master) (r : RingId) (v : W32) (s : State) : Host.Outcome State Fault Refusal :=
  .next { s with dev := s.dev.ringCfgWrite r (fset v 0 1 1) }

def execRingDisable (_m : Master) (r : RingId) (v : W32) (s : State) : Host.Outcome State Fault Refusal :=
  .next { s with dev := s.dev.ringCfgWrite r (fset v 0 1 0) }

/-- Signal MSI-X vector v: its message, or its pending bit where it is masked (R252). -/
def Dev.msix (d : Dev) (v : Nat) : Dev :=
  if d.flag (rMsix v + 0x0C) 0 then d.setB (rMsixPend (v / 32)) (v % 32) true
  else d.emit (.msi (d.rd64 (rMsix v)) (d.rd (rMsix v + 8)).toNat)

/-- IMOD_CNT posts have collected (0 acts as 1), or IMOD_TIME has passed since the first unsignalled one. State dates a post
to its beat: the time counts from the end of that beat at the earliest. -/
def Dev.signalDue (d : Dev) (r : RingId) : Bool :=
  let g := d.hq.rings[r]
  decide (0 < g.unsignalled) && (decide (max 1 (d.fld (rRingCfg r) 8 8) ≤ g.unsignalled) ||
    decide (d.fld (rRingCfg r) 16 8 * 1000 < (d.beats + 1 - g.unsigSince) * 1250))

def Dev.interruptSignal (d : Dev) (r : RingId) : Dev :=
  if !d.signalDue r then d
  else (d.onRing r fun g => { g with unsignalled := 0 }).msix (d.fld (rRingCfg r) 2 6)

def execInterruptSignal (r : RingId) (s : State) : Host.Outcome State Fault Refusal :=
  .next { s with dev := s.dev.interruptSignal r }

end Sys2Proof.Machine
end

