-- ==== Sys2Proof/Machine/Media.lean ====
section
/-! DEFINITION. Places as the format engine sees them: the reallocation table, spare places, the rows a place holds, and
writing a place (05_write_path.md: R129, R140-R144, R361). -/

namespace Sys2Proof.Machine

abbrev rCalCtl : Nat := 0x88_0000
/-- The ALLOC window (R143). -/
abbrev rAlloc (i : Nat) : Nat := 0x110_0000 + 8 * i
/-- Key of a table entry among the hardware pairs (R357). -/
def allocKey (i : Nat) : Nat := 2 ^ 32 + i

/-! ### Reallocation table (R141-R143) -/

/-- The value of an entry. -/
def entryValue (kind : Nat) (home spare : Place) : BitVec 64 :=
  BitVec.ofNat 64 (2 ^ 63 + kind % 8 * 2 ^ 60 + home.layer.val * 2 ^ 52 + home.rb.val * 2 ^ 34 +
    spare.layer.val * 2 ^ 30 + spare.rb.val * 2 ^ 12)

/-- Entry i: its value and its stored complement; an empty entry holds 0. -/
def Dev.allocEntry (d : Dev) (i : Nat) : BitVec 64 × BitVec 64 := sget d.alloc (0, BitVec.allOnes 64) i

/-- The entry of highest index on a side that names a home place (R142). -/
def Dev.allocOf (d : Dev) (home : Place) : Option Nat :=
  (d.alloc.reverse.find? fun e =>
    e.1 / 65536 == home.side.val && e.2.1.getLsbD 63 && entryHome home.side e.2.1 == home).map (·.1)

/-- Where a lookup leads: the home place itself, a spare place, or an entry whose pair does not match (R358). -/
inductive MapRes where
  | place (p : Place)
  | broken (i : Nat)
  deriving DecidableEq, Repr

def Dev.lookup (d : Dev) (home : Place) : MapRes :=
  match d.allocOf home with
  | none => .place home
  | some i =>
    let e := d.allocEntry i
    if e.2 = ~~~ e.1 then .place (entrySpare home.side e.1) else .broken i

/-- A broken entry at lookup: COMPLEMENT_MISMATCH from the format engine (R356). -/
def Dev.allocMismatch (d : Dev) (i : Nat) : Dev :=
  d.mismatch 2 true (rAlloc i) (allocKey i) (d.allocEntry i).1.toNat (d.allocEntry i).2.toNat 0

/-- A read of the ALLOC window: the stored value; a mismatch is raised, a match ends its count (R143, R357). -/
def Dev.allocRead (d : Dev) (i : Nat) (hi : Bool) : Dev × W32 :=
  let e := d.allocEntry i
  let v := if hi then BitVec.ofNat 32 (e.1.toNat / 2 ^ 32) else BitVec.ofNat 32 e.1.toNat
  if e.2 = ~~~ e.1 then (d.pairMatched (allocKey i), v) else (d.allocMismatch i, v)

def execAllocEntryRead (m : Master) (i : Fin 131072) (hi : Bool) (s : State) : Host.Outcome State Fault Refusal :=
  let (d, v) := s.dev.allocRead i.val hi
  .next { s with dev := d.emit (.data m (leBytes 4 v.toNat)) }

/-! ### Spare places (R140) -/

/-- Next free place of a spare area: 0 inner, 1 outer. -/
def SideState.spareFree (s : SideState) (layer : Nat) (outer : Bool) : Option Nat :=
  let n := (sfind s.spareNext (2 * layer + b2n outer)).getD (if outer then 164656 else 448)
  if n < (if outer then 166736 else 2528) then some n else none

/-- The areas of a layer, the nearer in RB number to a home place first. -/
def areaOrder (rb : Nat) : List Bool := if rb ≤ 83591 then [false, true] else [true, false]

/-- Layers by distance from the home layer, the lower on a tie. -/
def layerOrder (l : Nat) : List Nat :=
  l :: (List.range 15).flatMap fun k =>
    (if k + 1 ≤ l then [l - (k + 1)] else []) ++ (if l + k + 1 < 16 then [l + k + 1] else [])

/-- The spare place an RB takes. -/
def SideState.spareFor (s : SideState) (home : Place) : Option Place :=
  (layerOrder home.layer.val).findSome? fun l => (areaOrder home.rb.val).findSome? fun o =>
    (s.spareFree l o).map fun n => { side := home.side, layer := Fin.ofNat 16 l, rb := Fin.ofNat 166992 n }

/-- Take a spare place. -/
def SideState.takeSpare (s : SideState) (p : Place) : SideState :=
  { s with spareNext := sput s.spareNext (2 * p.layer.val + b2n (decide (83592 ≤ p.rb.val))) (p.rb.val + 1) }

/-- EMPTY: no spare place or table entry left on the side. -/
def Dev.showSpares (d : Dev) (x : Side) : Dev := d.setB (rSideSpare x) 31 (!d.canReplace x)

/-- Append an entry (R142): it is named by the side's next record. -/
def Dev.allocAppend (d : Dev) (kind : Nat) (home spare : Place) : Dev :=
  let x := home.side
  let n := d.fld (rSideSpare x) 0 17
  let i := x.val * 65536 + n
  let v := entryValue kind home spare
  let d := { d with alloc := sput d.alloc i (v, ~~~ v) }
  let d := (d.setF (rSideSpare x) 0 17 (n + 1)).onSide x fun s =>
    { s with toRealloc := s.toRealloc ++ [i], entriesSinceSnap := s.entriesSinceSnap + 1 }
  (d.showSpares x).post 0x0122 2 i v.toNat (~~~ v).toNat 0

/-! ### Rows of a place -/

/-- What the medium gives for one LBA: data and its tag, an unwritten row, a lost or failed row (R144, R269). -/
inductive MediaLba where
  | data (bytes : List Byte) (tagCrc : BitVec 64) (tagLba tagLbaN : BitVec 32) (recovered : Bool)
  | unwritten
  | lost
  | failed
  deriving DecidableEq, Repr

/-- Row c of a place that was read for commands: its ROW_KIND decides what it is (R86, R144); a blank place holds nothing,
and a row that was not accepted has failed. -/
def Found.row (f : Found) (c : Nat) : MediaLba :=
  if f.how = .blank then .unwritten
  else match sfind f.rows c with
    | none => .failed
    | some bs =>
      let kind := (bs.getD 4112 0).toNat
      if kind = 1 then .unwritten
      else if kind = 2 then .lost
      else .data (bs.take 4096) (BitVec.ofNat 64 (beNat ((bs.drop 4096).take 8)))
        (BitVec.ofNat 32 (beNat ((bs.drop 4104).take 4))) (BitVec.ofNat 32 (beNat ((bs.drop 4108).take 4))) f.recovered

/-- What has been read of a place. -/
def Dev.foundAt (d : Dev) (p : Place) : Option Found := d.sides[p.side].found.find? fun f => f.place == p

/-- Keep what a read of a place has found, or forget it. -/
def Dev.keepFound (d : Dev) (f : Found) : Dev :=
  d.onSide f.place.side fun s => { s with found := s.found.filter (fun g => g.place != f.place) ++ [f] }

def Dev.forget (d : Dev) (p : Place) : Dev :=
  d.onSide p.side fun s => { s with found := s.found.filter fun g => g.place != p }

def Row.home (r : Row) : Place := (homeOf r.mlba).1
def Row.ix (r : Row) : Fin 64 := (homeOf r.mlba).2

/-- Buffered rows of a home place that are not on the medium. -/
def Dev.dirtyRows (d : Dev) (home : Place) : List Row := d.hq.rows.filter fun r => r.home == home && r.place.isNone

/-- Rows that a place on the medium holds and no record has committed. -/
def Dev.placedRows (d : Dev) (p : Place) : List Row := d.hq.rows.filter fun r => r.place == some p

/-- The payload of a buffered row. -/
def Rec.payload (r : Rec) : List Nat :=
  rowPayload r.data r.crc.toNat r.lba.toNat 0

/-- The payload of a carried row: data as read, or marked unwritten or lost (R144). -/
def carriedPayload : MediaLba → List Nat
  | .data bs crc lba _ _ => rowPayload bs crc.toNat lba.toNat 0
  | .unwritten => markedRow 1
  | .lost => markedRow 2
  | .failed => markedRow 2

/-- The payload of row c of an RB: a buffered row, else what was carried, else unwritten; a row that fails the check of
R361 is written as lost. -/
def rowOf (rows : List Row) (carried : List (Fin 64 × MediaLba)) (bad : BitVec 64) (c : Fin 64) : List Nat :=
  match rows.find? fun r => r.ix == c with
  | some r => if bad.getLsbD c.val then markedRow 2 else r.body.payload
  | none => match carried.find? fun q => q.1 == c with
    | some (_, m) => carriedPayload m
    | none => markedRow 1

/-- A write gate opens at bit 640 of a place: the place is consumed from now on (R90). -/
def Dev.startWrite (d : Dev) (h : Head) (w : WriteJob) : Dev :=
  (((d.setPlace w.place 2).forget w.place).setB (rWrpStat h) 0 true).onHead h fun s => { s with writing := some w }

/-! ### Gate conditions (R129) -/

/-- Powers of a spot's four levels: PEAK, MID and COOL as percentages of it, BIAS (R125). -/
def Dev.levels (d : Dev) (h : Head) (j : Spot) : List Nat :=
  let peak := d.fld (rPeak h j) 0 16
  [peak, (quot (peak * d.fld (rLevelCfg h) 0 8) 100).toNat, (quot (peak * d.fld (rLevelCfg h) 8 8) 100).toNat,
   d.fld (rBias h) 0 16]

/-- Send a spot's POWER blocks (R126). -/
def Dev.sendPower (d : Dev) (h : Head) (j : Spot) : Dev :=
  d.emits ((d.levels h j).zipIdx.map fun (q : Nat × Nat) => Output.control h (powerBlock j.val q.2 q.1))

/-- Send a spot's EDGE blocks: entries 1 to 12 of both tables, TOP and COOL_LEN (R126). -/
def Dev.sendEdges (d : Dev) (h : Head) (j : Spot) : Dev :=
  d.emits (((List.range 24).map fun (e : Nat) =>
      Output.control h (edgeBlock j.val (decide (12 ≤ e)) (e % 12 + 1) (uns 8 (d.calCur h j (18 + e)))))
    ++ [.control h (edgeBlock j.val false 13 (d.fld (rLevelCfg h) 16 8)),
        .control h (edgeBlock j.val false 14 (d.fld (rLevelCfg h) 24 8))])

/-- A spot's OPC value where its head stands: between the layer's two zones it is interpolated in radius (R131). -/
def Dev.opcValue (d : Dev) (h : Head) (j : Spot) : Option Nat :=
  match sfind (d.heads[h].spots[j]).opc (d.fld (rWaddrHi h) 16 4) with
  | none => none
  | some (inner, outer, _) =>
    let t := d.fld (rWaddrHi h) 0 15; let a := placeTurn 0; let b := placeTurn 166736
    if t ≤ a then some inner
    else if b ≤ t then some outer
    else some ((inner : Int) + quot (((outer : Int) - inner) * ((t - a : Nat) : Int)) (b - a)).toNat

/-- OPC results take effect at the next place the head writes: PEAK, its POWER blocks, its count (R241). -/
def Dev.applyPeaks (d : Dev) (h : Head) : Dev :=
  let act := d.cue.act
  d.each allSpots fun d j =>
    match d.heads[h].spots[j].peakNew with
    | none => d
    | some p =>
      (((d.setPair (rPeak h j) ((d.opcValue h j).getD p)).onSpot h j fun s => { s with peakNew := none, peakAct := some act }).bump (rCalCnt h j 42) 0 16).sendPower h j

/-- Every PEAK value of a head has a matching complement; a mismatch is raised (R129, R356). -/
def Dev.checkPeaks (d0 : Dev) (h : Head) : Dev × Bool :=
  let d := d0.applyPeaks h
  allSpots.foldl (fun (p : Dev × Bool) j =>
    let (d, v) := p.1.checkPair 2 (rPeak h j) 0
    (d, p.2 && v.isSome)) (d, true)

/-- PERFORMANCE, or a curtain in REHEARSAL with FULL_DONE. -/
def Dev.mayWrite (d : Dev) : Bool :=
  d.performance || (d.hq.curtain.isSome && d.rehearsal && d.flag rCalCtl 3)

/-- The format engine starts no write while the spindle is in START, COAST, RECATCH or LOCKOUT (R198). -/
def Dev.spindleWrites (d : Dev) : Bool := [0, 2].contains (d.fld 0x60_0000 0 3)

/-- The gate conditions of a head other than its PEAK pairs and its place (R129, R198). INHIBIT is taken as sampled at the
beat boundary (R10). -/
def Dev.gateReady (d : Dev) (h : Head) : Bool :=
  d.mayWrite && d.cue.fault.isNone && !d.engineHalted 2 && d.spindleWrites && d.inService h && !d.ladderHolds h &&
    (d.heads[h].writing).isNone && d.flag (rSrvStat h) 1 && d.flag (rSrvStat h) 2 && d.flag (rSrvStat h) 3 &&
    d.flag (rWaddrLo h) 31 && d.flag (rWrpStat h) 1 && d.smpF (rWrpStat h) 4 1 == 0 && !d.flag (rWrpStat h) 4 &&
    !d.flag (rWrpStat h) 0

/-- The position names the place's side and layer, and the head is in the place's band: at the word in which it starts, and
no further than its channel bit 640, 11 wobbles on (R91, R129). -/
def Dev.atPlace (d : Dev) (h : Head) (p : Place) : Bool :=
  let w := d.heads[h].wobble
  let at_ := w.next * 512 + w.count / 1350000000
  sideOf h == p.side && w.side == p.side && w.layer == p.layer && turnOf (512 * w.next) == placeTurn p.rb.val &&
    decide (placeWord p.rb.val * 512 ≤ at_) && decide (at_ ≤ p.rb.val * 9178 + 12)

/-- A side writes with verification: VERIFY is set and no takeover is in force (R135, R139). -/
def Dev.verified (d : Dev) (x : Side) : Bool := d.flag (rSideCfg x) 0 && !d.sides[x].takeover

/-- A curtain starts no data place later than 1.8 s after it began (R384). -/
def Dev.curtainOpen (d : Dev) : Bool :=
  match d.hq.curtain with
  | some c => decide (d.beats < c.start + 1440000)
  | none => true

end Sys2Proof.Machine
end

