-- ==== Sys2Proof/Machine/HqData.lean ====
section
/-! DEFINITION. Data commands: WRITE and its offers, READ, VERIFY, ABORT, and forwarding to members of the ensemble
(10_host_queueing.md, R29, R30, R343-R349). -/

namespace Sys2Proof.Machine

/-! ### WRITE: what the LBAs hold, offers (R262, R264, R267, R271) -/

/-- The first LBA of a home RB, as an LBA of a namespace. -/
def Dev.homeLba (d : Dev) (n : Nat) (p : Place) : Nat :=
  p.side.val * 166019072 + p.layer.val * 10376192 + (p.rb.val - 2528) * 64 - d.nsFirst n

/-- The place that holds an LBA's content on the medium: where an uncommitted row lies, else where the lookup leads. -/
def Dev.mediumPlace (d : Dev) (mlba : Nat) : Option Place :=
  match (d.hq.rows.reverse.find? fun r => r.mlba == mlba && r.place.isSome).bind Row.place with
  | some p => some p
  | none => match d.lookup (homeOf mlba).1 with
    | .place p => some p
    | .broken _ => none

/-- What has been read of an LBA; none while its place has not been read. -/
def Dev.mediaAt (d : Dev) (mlba : Nat) : Option MediaLba :=
  (d.mediumPlace mlba).bind fun p => (d.foundAt p).map fun f => f.row (homeOf mlba).2.val

/-- Does an LBA hold data on the medium? None where a committed place's rows are not known and it has not been read. -/
def Dev.holdsData (d : Dev) (mlba : Nat) : Option Bool :=
  let (home, c) := homeOf mlba
  if d.hq.rows.any fun r => r.mlba == mlba && r.place.isSome then some true
  else match d.lookup home with
    | .broken _ => some false
    | .place p =>
      if d.placeState p ≠ 1 then some false
      else match sfind d.sides[home.side].rows (placeKey home) with
        | some b => some (b.getLsbD c.val)
        | none => (d.mediaAt mlba).map fun m => m != .unwritten

/-- The first LBA offset that holds data; the outer none means that a place has to be read first. -/
def Dev.firstHeld (d : Dev) : List Nat → Nat → Option (Option Nat)
  | [], _ => some none
  | m :: ms, k =>
    match d.holdsData m with
    | some true => some (some k)
    | some false => d.firstHeld ms (k + 1)
    | none => none

/-- The first broken table entry that a command's LBAs meet, with its home place. -/
def Dev.firstBroken (d : Dev) (ms : List Nat) : Option (Nat × Place) :=
  ms.findSome? fun m => match d.lookup (homeOf m).1 with
    | .broken i => some (i, (homeOf m).1)
    | .place _ => none

/-- A WRITE's decisions before its first offer: the rewrite policy, spares, table entries (R267). -/
def Dev.write (d : Dev) (src : CmdSrc) (tag : BitVec 16) : Dev :=
  match d.cmdOf src tag 0x11 with
  | none => d
  | some c =>
    if c.ready || !d.mayRun c then d
    else if c.forwarded then d.setCmd { c with ready := true }
    else
      let ms := d.mlbas c.slot
      match d.firstBroken ms with
      | some (i, home) => (d.allocMismatch i).complete c 0x50 (info := d.homeLba c.nsid home)
      | none =>
        match d.firstHeld ms 0, d.nsReplace c.nsid with
        | none, _ => d
        | some (some k), false => d.complete c 0x24 (info := c.lba + k)
        | _, _ =>
          let used := ms.any fun m => d.placeState (homeOf m).1 != 0
          if used && !d.canReplace (d.cmdSide c) then d.complete c 0x31 (info := c.lba)
          else d.setCmd { c with ready := true }

def execWrite (src : CmdSrc) (tag : BitVec 16) (s : State) : Host.Outcome State Fault Refusal :=
  .next { s with dev := (s.dev.write src tag).settle }

/-- Two LBA ranges of one namespace overlap. -/
def overlap (n1 l1 c1 n2 l2 c2 : Nat) : Bool := n1 == n2 && decide (l1 < l2 + c2) && decide (l2 < l1 + c1)

/-- An earlier command of the same source that a range has to wait for: a read of it, or a write not yet acknowledged. -/
def Dev.ordered (d : Dev) (c : Cmd) (lba n : Nat) (reads : Bool) : Bool :=
  d.hq.cmds.any fun x => x.src == c.src && decide (x.order < c.order) &&
    ((x.op == 0x11 && !x.acked) || (reads && (x.op == 0x10 || x.op == 0x12))) && overlap c.nsid lba n x.nsid x.lba x.len

/-- Forwarding use in bytes (R347): of a write, what has been offered until every worker has answered for it. -/
def Dev.fwdUse (d : Dev) : Nat :=
  4096 * (d.hq.cmds.map fun c =>
    if c.forwarded then
      if c.op = 0x11 then
        if !c.acked then c.offered
        else (((c.subs.filter fun u => u.state == 1 && u.dev != d.deviceId).map fun u => (u.lba, u.count)).eraseDups.map
          (·.2)).sum
      else ((c.subs.filter fun u => (u.state == 1 || u.state == 2) && u.dev != d.deviceId).map Sub.count).sum
    else 0).sum

/-- Bytes of the forwarding budget (R347). -/
def Dev.fwdBudget (d : Dev) : Nat := d.smpF rFwdBudget 0 21 * 65536

/-- Bytes of one LBA as the host moves it. -/
def Cmd.lbaBytes (c : Cmd) : Nat := if c.guard && c.op != 0x40 then 4112 else 4096

/-- A TRANSFER_READY is posted for the next part of the range, once everything allows it (R262). -/
def Dev.offerPost (d : Dev) (c : Cmd) : Dev :=
  let left := c.len - c.offered
  let budget := d.smpF (rStream c.stream) 0 21 * 65536
  let room := (budget - d.streamUse c.stream) / 65536 * 16
  let n := min left (min 1024 room)
  let bytes := n * c.lbaBytes
  if d.stopped ∨ d.engineHalted 6 ∨ !c.ready ∨ left = 0 ∨ n < min 16 left ∨ (c.op = 0x11 ∧ !c.started ∧ !d.mayRun c) then d
  else if d.fld rXrdy 0 4 ≤ c.offers.length then d
  else if d.allocBytes < d.bufferUse + 4096 * n then d
  else if c.op = 0x11 ∧ d.ordered c (c.lba + c.offered) n true then d
  else if c.forwarded ∧ d.fwdBudget < d.fwdUse + 4096 * n then d
  else if d.fld (rBudget 1) 0 24 * 65536 < d.cue.used[1] + bytes then d.hitBudget 1
  else
    let d := { d with cue.used := vmod d.cue.used 1 (· + bytes) }
    let d := d.setCmd { c with started := true, offered := c.offered + n, nextOffer := c.nextOffer + 1,
                               offers := c.offers ++ [{ id := c.nextOffer, ofs := c.offered, count := n, since := d.beats }] }
    d.srcPost c.src (.ready c.tag c.nextOffer c.offered n bytes)

/-- The write-like command of a source and tag. -/
def Dev.writeLike (d : Dev) (src : CmdSrc) (tag : BitVec 16) : Option Cmd :=
  d.hq.cmds.find? fun c => c.src == src && c.tag == tag && (c.op == 0x11 || c.op == 0x40)

def execOfferPost (src : CmdSrc) (tag : BitVec 16) (s : State) : Host.Outcome State Fault Refusal :=
  .next { s with dev := match s.dev.writeLike src tag with
    | some c => s.dev.offerPost c
    | none => s.dev }

/-- An offer has been unanswered for XRDY_TIMEOUT, in ms. -/
def Dev.offerStale (d : Dev) (o : Offer) : Bool := decide (o.since + d.fld rXrdy 4 16 * 800 ≤ d.beats)

/-- An offer has been unanswered for XRDY_TIMEOUT: its write ends with ABORTED (R264). -/
def execOfferTimeout (src : CmdSrc) (tag : BitVec 16) (offer : Nat) (s : State) : Host.Outcome State Fault Refusal :=
  .next { s with dev := match s.dev.writeLike src tag with
    | some c => if c.offers.any fun o => o.id == offer && s.dev.offerStale o then (s.dev.complete c 0x10).settle else s.dev
    | none => s.dev }

/-! ### DATA_DESCRIPTOR (R263, R268) -/

/-- Take an entry that has been fetched and not acted on. -/
def Dev.takePending (d : Dev) (src : CmdSrc) (p : Slot) : Option Dev :=
  if d.hq.entries.contains (src, p) then some { d with hq.entries := d.hq.entries.erase (src, p) } else none

/-- The tag of an LBA as generated where GUARD is clear. -/
def makeRec (data : List Byte) (lba : Nat) : Rec :=
  let t : BitVec 32 := BitVec.ofNat 32 lba
  { data, crc := BitVec.ofNat 64 (crc64 data), lba := t, lbaN := ~~~ t }

/-- A guarded record of 4,112 bytes (R268). -/
def readRec (bs : List Byte) : Rec :=
  { data := bs.take 4096, crc := BitVec.ofNat 64 (bytesField bs 4096 8), lba := BitVec.ofNat 32 (bytesField bs 4104 4),
    lbaN := BitVec.ofNat 32 (bytesField bs 4108 4) }

/-- The record of an LBA as the host or a peer receives it with GUARD. -/
def Rec.bytes (r : Rec) : List Byte := r.data ++ leBytes 8 r.crc.toNat ++ leBytes 4 r.lba.toNat ++ leBytes 4 r.lbaN.toNat

/-- The check of R360: CRC, expected TAG_LBA, complement. -/
def Rec.good (r : Rec) (expected : Nat) : Bool :=
  r.crc.toNat == crc64 r.data && r.lba == BitVec.ofNat 32 expected && r.lbaN == ~~~ r.lba

/-- Expected TAG_LBA of LBA offset k: from REF_TAG on the Sceral link, else from LBA (R268). -/
def Cmd.tagOf (c : Cmd) (k : Nat) : Nat :=
  match c.src with
  | .ring _ => c.lba + k
  | .peer _ => pRefTag c.slot + k

/-- The records of an offer's data. -/
def Cmd.records (c : Cmd) (ofs n : Nat) (data : List Byte) : List (Nat × Rec) :=
  (List.range n).map fun i =>
    let bs := (data.drop (i * c.lbaBytes)).take c.lbaBytes
    (ofs + i, if c.guard && c.op != 0x40 then readRec bs else makeRec bs (c.tagOf (ofs + i)))

/-- A transfer met host memory that does not answer: INTERNAL_FAULT with the channel's DECODE_ERROR (R263). -/
def Dev.dmaNoResponse (d : Dev) (c : Cmd) (ptr k done : Nat) : Dev :=
  let d' := d.drawn
  (d'.post 0x0130 0x11 (d.fresh % 32) 3 0 ptr).complete c 0x50 (info := c.lba + k) (done := done)

/-- LBAs a transfer moves before it ends, of n. A buffer that is no list has no list entries. -/
def transferMoved (x : TransferEnd) (direct : Bool) (n : Nat) : Nat :=
  match x with
  | .complete | .bufferFault _ => n
  | .noResponse k => min k n
  | .listShort k | .badEntry k => if direct then n else min k n

/-- The data of an offer arrives, or the write ends. -/
def Dev.descriptorFor (d : Dev) (c : Cmd) (o : Offer) (p : Slot) (data : List Byte) (xfer : TransferEnd) : Dev :=
  let flags := slotField p 1 1
  let direct := flags.testBit 3
  let dptr := slotField p 8 8
  let dlen := slotField p 16 4
  let need := o.count * c.lbaBytes
  if flags.testBit 0 then d.complete c 0x10
  else match badPointer dptr dlen direct 8 16 with
  | some f => d.complete c 0x21 (res := f)
  | none =>
    let n := min (transferMoved xfer direct o.count) (if direct then dlen / c.lbaBytes else o.count)
    let d := { d with cue.used := vmod d.cue.used 2 (· + if direct then min dlen need else n * c.lbaBytes) }
    if n < o.count then
      match xfer with
      | .badEntry _ => d.complete c 0x21 (res := 8)
      | .noResponse _ => d.dmaNoResponse c dptr (o.ofs + n) 0
      | _ => d.complete c 0x25 (info := c.lba + o.ofs + n)
    else
        let rs := c.records o.ofs o.count data
        match rs.find? fun r => c.guard && c.op == 0x11 && !r.2.good (c.tagOf r.1) with
        | some r => (d.gcnt 8).complete c 0x33 (info := c.lba + r.1)
        | none =>
          let d := d.setCmd { c with offers := c.offers.filter fun x => x.id != o.id,
                                     got := rs.foldl (fun g r => sput g r.1 r.2) c.got }
          -- each 4 KiB unit of a firmware stage is a flash operation of its own (R277, R418)
          if c.op = 0x40 then { d with cfg.waiting := d.cfg.waiting ++ (List.range o.count).map fun i => FlashOp.fwStage c.order (o.ofs + i) } else d

/-- A DATA_DESCRIPTOR is acted on; with CUE_BUD_HIN used up it waits for the next act. -/
def Dev.dataDescriptor (d : Dev) (src : CmdSrc) (p : Slot) (data : List Byte) (xfer : TransferEnd) : Dev :=
  match d.takePending src p with
  | none => d
  | some d1 =>
    let offer := slotField p 6 2
    match d.writeLike src (pTag p) with
    | some c =>
      match c.offers.find? fun o => o.id % 65536 == offer with
      | some o =>
        if d.fld (rBudget 2) 0 24 * 65536 < d.cue.used[2] + o.count * c.lbaBytes then d.hitBudget 2
        else d1.descriptorFor c o p data xfer
      | none => drop d1 offer
    | none => drop d1 offer
where
  /-- No unanswered offer matches: counted and recorded (R263). -/
  drop (d : Dev) (offer : Nat) : Dev :=
    let ring := match src with | .ring r => r.val | .peer id => id.val
    (d.bump rHqStat 16 16).post 0x0131 6 ring (pTag p).toNat offer 0

def execDataDescriptor (src : CmdSrc) (p : Slot) (data : List Byte) (xfer : TransferEnd) (s : State) :
    Host.Outcome State Fault Refusal :=
  .next { s with dev := (s.dev.dataDescriptor src p data xfer).settle }

/-! ### Acknowledgement (R265, R386, R138) -/

/-- One row is acknowledged: it supersedes an older one not yet on the medium, and joins or opens a range (R386). -/
def Dev.ackRow (d : Dev) (c : Cmd) (nsid lba : Nat) (body : Rec) : Dev :=
  let mlba := d.nsFirst nsid + lba
  let old := d.hq.rows.find? fun r => r.mlba == mlba && r.place.isNone
  let near := d.hq.rows.find? fun r => r.src == c.src && r.nsid == nsid && r.lba + 1 == lba
  let range := match near with | some r => r.range | none => d.hq.ranges
  let old := old.filter fun r => !r.committed
  let writes := c.order :: (match old with | some o => o.writes | none => [])
  let order := match old with | some o => o.order | none => d.hq.order
  let r : Row :=
    { mlba, body, src := c.src, nsid, lba, stream := c.stream, writes, order, atomic := c.atomic, place := none,
      released := false, committed := false, range }
  let rows := d.hq.rows.filter fun (x : Row) => !(x.mlba == mlba && x.place.isNone)
  { d with hq.rows := rows ++ [r], hq.ranges := if near.isNone then d.hq.ranges + 1 else d.hq.ranges }

/-- An RB whose home place is used needs a replacement (R267, "When a write meets a place already written"). -/
def Dev.wantReplacement (d : Dev) (home : Place) : Dev :=
  if d.placeState home = 0 ∨ d.sides[home.side].replQ.any fun q => q.home == home then d
  else d.onSide home.side fun s =>
    { s with replQ := s.replQ ++ [{ home, kind := 2, attempts := 0, spare := none }] }

/-- The place of a row awaits its verdict, or its RB a replacement: should that fail, the row becomes a deferred error
(R138). -/
def Dev.unjudged (d : Dev) (r : Row) : Bool :=
  let s := d.sides[r.home.side]
  (match r.place with | some p => s.verifyQ.any fun v => v.place == p | none => false) || s.replQ.any fun q => q.home == r.home

/-- Rows committed and released are done with, once their place has been judged. -/
def Dev.sweepRows (d : Dev) : Dev :=
  let rows := d.hq.rows.filter fun r => !(r.committed && r.released) || d.unjudged r
  { d with hq.rows := rows }

/-- Release the buffer space of the rows a place holds. -/
def Dev.releasePlace (d : Dev) (p : Place) : Dev :=
  let rows := d.hq.rows.map fun (r : Row) => if r.place = some p then { r with released := true } else r
  { d with hq.rows := rows }.sweepRows

/-- Unverified RBs keep their space up to HOLD/16 of the buffer; beyond it the oldest verify-queued ones release theirs
(R138). -/
def Dev.releaseUnverified (d : Dev) (x : Side) : Dev :=
  if d.verified x then d
  else d.each d.sides[x].verifyQ fun d v =>
    let held := 4096 * (d.hq.rows.filter fun r => r.home.side == x && r.place.isSome && !r.released).length
    if d.fld (rSideCfg x) 4 4 * (d.mappedBytes / 16) < held then d.releasePlace v.place else d

/-- Rows of a local range are acknowledged. -/
def Dev.ackRange (d : Dev) (c : Cmd) (nsid lba : Nat) (bodies : List Rec) : Dev :=
  let d := d.each bodies.zipIdx fun d b => d.ackRow c nsid (lba + b.2) b.1
  let d := { d with hq.order := d.hq.order + 1, hq.curtained := false }
  let homes := (bodies.zipIdx.map fun b => (homeOf (d.nsFirst nsid + lba + b.2)).1).dedup
  (d.each homes Dev.wantReplacement).releaseUnverified (d.nsSide nsid)

/-- A local write is acknowledged: STATUS now, or with its commit where FUA is set. -/
def Dev.ackLocal (d : Dev) (c : Cmd) : Dev :=
  let d := d.ackRange c c.nsid c.lba (c.got.map (·.2))
  if c.fua then
    (d.setCmd { c with acked := true, got := [] }).onSide (d.cmdSide c) fun s => { s with recWanted := true }
  else d.complete c 0 (done := c.len) (dg := d.degradedCmd c)

/-! ### Forwarding (R343-R348) -/

/-- The internal address of the forwarding region's byte at a DRAM offset, as a window address of this device. -/
def Dev.fwdWindow (d : Dev) (off : Nat) : Nat :=
  0x4000_0000_0000 + d.deviceId * 2 ^ 36 + 0x8_0000_0000 + off % 2 ^ 35

/-- Space in the forwarding region for n records: where it lies is left open (R346). -/
def Dev.fwdSpace (d : Dev) : Dev × Nat := (d.drawn, d.fresh % 2 ^ 31 * 4)

/-- The bytes of a COMMAND packet. -/
def commandBytes (op flags stream : Nat) (tag : BitVec 16) (nsid lba len dptr dlen ref : Nat) : List Byte :=
  pad64 (leBytes 1 1 ++ leBytes 1 op ++ leBytes 1 flags ++ leBytes 1 stream ++ leBytes 2 tag.toNat ++ leBytes 2 nsid ++
    leBytes 8 lba ++ leBytes 8 (compl 64 lba) ++ leBytes 4 len ++ leBytes 4 (compl 32 len) ++ leBytes 8 dptr ++
    leBytes 4 dlen ++ leBytes 4 ref)

/-- Send one sub-command to its worker (R344). -/
def Dev.sendSub (d : Dev) (c : Cmd) (u : Sub) : Dev :=
  let flags := b2n c.fua + b2n c.atomic * 2 + 12
  d.sendFrame u.dev (.packets [commandBytes c.op flags c.stream u.tag u.nsid u.loc u.count (d.fwdWindow u.region)
    (u.count * 4112) (u.lba % 2 ^ 32)])

/-- A member of an extent is usable for a read: not STALE, and on a member device. -/
def State.usable (s : State) (m : Nat) : State × Bool :=
  if memStale m then (s, false)
  else if memDev m = s.dev.deviceId then (s, true)
  else s.reachable (memDev m)

/-- The copies of a piece a read may use, from copy `lo` on in ascending order; a copy on this device first where
`own` (R344). -/
def State.readCopy (s : State) (e : Extent) (column lo : Nat) (own : Bool) : State × Option Nat :=
  let cs := (List.range e.copies).filter fun k => decide (lo ≤ k)
  let (s, ok) := cs.foldl (fun (p : State × List Nat) k =>
    let (s, b) := p.1.usable (e.member k column)
    (s, if b then p.2 ++ [k] else p.2)) (s, [])
  let mine := if own then ok.find? fun k => memDev (e.member k column) == s.dev.deviceId else none
  (s, mine.orElse fun _ => ok.head?)

/-- A sub-command for a piece and copy. -/
def State.newSub (s : State) (e : Extent) (q : Piece) (copy : Nat) : State × Sub :=
  let m := e.member copy q.column
  let (d, off) := s.dev.fwdSpace
  let tag := BitVec.ofNat 16 d.hq.order
  ({ s with dev := { d with hq.order := d.hq.order + 1 } },
    { lba := q.lba, count := q.count, extent := q.ext, column := q.column, copy, dev := memDev m, nsid := memNsid m,
      loc := memFirst m + q.rel, tag, region := off, state := 0, status := 0, degraded := false, unwritten := false })

/-- The sub-commands of a command (R343, R344): one copy for a read, every copy that is not STALE for a write. -/
def State.makeSubs (s : State) (c : Cmd) : State × List Sub :=
  let (s, ns) := s.ensNs c.nsid
  match ns with
  | none => (s, [])
  | some (_, first, last) =>
    let (s, ps) := s.cut first last 257 c.lba c.len
    (ps.getD []).foldl (fun (p : State × List Sub) q =>
      let (s, e) := p.1.extent q.ext
      if c.op = 0x11 then
        (List.range e.copies).foldl (fun (p : State × List Sub) k =>
          if memStale (e.member k q.column) then p
          else let (s, u) := p.1.newSub e q k; (s, p.2 ++ [u])) (s, p.2)
      else
        let (s, k) := s.readCopy e q.column 0 true
        let (s, u) := s.newSub e q (k.getD 0)
        -- with no usable copy the sub-command fails with RETRY
        (s, p.2 ++ [if k.isSome then u else { u with state := 3, status := 0x51 }])) (s, [])

/-! ### Reading LBAs (R268, R269) -/

/-- What reading one LBA gives. -/
inductive LbaRes where
  | good (r : Rec)
  | fail (status info : Nat)
  | unwritten
  | guardBad
  deriving DecidableEq, Repr

/-- How far a read has come. -/
structure ReadAcc where
  /-- A place has to be read first. -/
  wait : Bool
  out : List Rec
  stop : Option (Nat × Nat)
  unwritten : Option Nat
  recovered : Option Nat
  deriving DecidableEq, Repr

/-- The record of an unwritten LBA: zeros, and the tag of R269. -/
def unwrittenRec : Rec :=
  let zeros := List.replicate 4096 (0 : Byte)
  { data := zeros, crc := BitVec.ofNat 64 (crc64 zeros), lba := 0xFFFF_FFFE#32, lbaN := 1#32 }

/-- An LBA that is not in the buffer: unwritten by the place map, lost until the next mount, or to be read. -/
def Dev.onMedium (d : Dev) (mlba : Nat) : Option LbaRes :=
  let (home, c) := homeOf mlba
  let placed := d.hq.rows.find? fun r => r.mlba == mlba && r.place.isSome
  if ((sfind d.sides[home.side].lostRows (placeKey home)).getD 0).getLsbD c.val then some (.fail 0x30 0)
  else if placed.isSome then none
  else match d.lookup home with
    | .broken _ => some (.fail 0x50 0)
    | .place p => if d.placeState p = 1 then none else some .unwritten

/-- Read one LBA of a local range. -/
def Dev.readLba (d : Dev) (nsid lba : Nat) (expected : Nat) (a : ReadAcc) : ReadAcc :=
  if a.stop.isSome || a.wait then a
  else
    let mlba := d.nsFirst nsid + lba
    let put (r : Rec) (a : ReadAcc) : ReadAcc :=
      if r.good expected then { a with out := a.out ++ [r] } else { a with stop := some (0x33, lba) }
    let blank (a : ReadAcc) : ReadAcc :=
      { a with out := a.out ++ [unwrittenRec], unwritten := some (a.unwritten.getD lba) }
    match d.rowAt mlba with
    | some r => put r.body a
    | none =>
      match d.onMedium mlba with
      | some (.fail st _) => { a with stop := some (st, if st = 0x50 then d.homeLba nsid (homeOf mlba).1 else lba) }
      | some _ => blank a
      | none =>
        match d.mediaAt mlba with
        | none => { a with wait := true }
        | some (.data bs crc t tn rec) =>
          let a := if rec then
              { a with recovered := some (a.recovered.getD (d.homeLba nsid (homeOf mlba).1)) } else a
          put { data := bs, crc, lba := t, lbaN := tn } a
        | some .unwritten => blank a
        | _ => { a with stop := some (0x30, lba) }

/-- Read a local range. -/
def Dev.readRange (d : Dev) (nsid lba n tag : Nat) : ReadAcc :=
  (List.range n).foldl (fun a k => d.readLba nsid (lba + k) (tag + k) a)
    { wait := false, out := [], stop := none, unwritten := none, recovered := none }

/-- Bytes of a record as they are delivered. -/
def Cmd.deliver (c : Cmd) (r : Rec) : List Byte := if c.guard then r.bytes else r.data

/-- Move bytes to where a command's data goes, `skip` bytes on in it: the host buffer or list, or an entry device's
window. -/
def Dev.sendData (d : Dev) (c : Cmd) (skip : Nat) (bytes : List Byte) : Dev :=
  if bytes.isEmpty then d
  else match c.src with
    | .ring _ =>
      if c.direct then d.emit (.hostWrite (pDptr c.slot + skip) bytes)
      else d.emit (.hostList (pDptr c.slot) (pDlen c.slot) skip bytes)
    | .peer id =>
      d.each (chunks 8224 (bytes.length / 8224 + 1) bytes).zipIdx fun d b =>
        (d.sendFrame id.val (.writeReq d.ens.nextTag ((pDptr c.slot + skip + 8224 * b.2) % 2 ^ 36) b.1 (d.fld 0xD0_0008 0 2))) |> fun d =>
          { d with ens.nextTag := (d.ens.nextTag + 1) % 65536 }

/-- Take bytes of an admission budget: all of them, or none while fewer are left in this act (R37, R50). -/
def Dev.takeBytes (d : Dev) (k : Fin 7) (n : Nat) : Option Dev :=
  if d.cue.used[k] + n ≤ d.fld (rBudget k) 0 24 * 65536 then some { d with cue.used := vmod d.cue.used k (· + n) } else none

/-- The budget that carries a command's data to where it goes: host-outbound, or forwarding. -/
def Cmd.outBudget (c : Cmd) : Fin 7 := match c.src with | .ring _ => 3 | .peer _ => 4

/-- Move what a command still has to deliver, in units, as far as the budget of this act allows; true when nothing is
left. The units moved are counted in the command; the rest waits for the next act (R37, R50). -/
def Dev.moveBy (d : Dev) (c : Cmd) (unit : Nat) (bytes : List Byte) (send : Dev → Nat → List Byte → Dev) : Dev × Bool :=
  let left := bytes.drop (c.offered * unit)
  let room := (d.fld (rBudget c.outBudget) 0 24 * 65536 - d.cue.used[c.outBudget]) / unit
  let part := left.take (room * unit)
  let d := match part, d.takeBytes c.outBudget part.length with
    | [], _ | _, none => d
    | _, some d => send d (c.offered * unit) part
  if part.length = left.length then (d, true)
  else ((d.setCmd { c with started := true, offered := c.offered + part.length / unit }).hitBudget c.outBudget, false)

/-- The same, to the command's own data pointer. -/
def Dev.moveOut (d : Dev) (c : Cmd) (unit : Nat) (bytes : List Byte) : Dev × Bool :=
  d.moveBy c unit bytes fun d skip bs => d.sendData c skip bs

/-- LBAs a direct buffer takes. -/
def Cmd.directRoom (c : Cmd) : Nat := if c.direct then pDlen c.slot / c.lbaBytes else c.len

/-- The end of a read whose first `out.length` LBAs are good: delivery and the one STATUS (R259, R263, R269). While the
budget of the act lasts, data moves; the STATUS follows the last of it. -/
def Dev.endReadCmd (d : Dev) (c : Cmd) (a : ReadAcc) (xfer : TransferEnd) (dg : Bool) : Dev :=
  let move := c.op == 0x10
  let n := a.out.length
  let sent := if move then min (transferMoved xfer c.direct n) c.directRoom else n
  let (d, moved) := if move then d.moveOut c c.lbaBytes ((a.out.take sent).flatMap c.deliver) else (d, true)
  if !moved then d
  else if sent < n then
    match xfer with
    | .badEntry _ => d.complete c 0x21 (res := 32) (done := sent) (dg := dg)
    | .noResponse _ => d.dmaNoResponse c (pDptr c.slot) sent sent
    | _ => d.complete c 0x25 (info := c.lba + sent) (done := sent) (dg := dg)
  else match a.stop with
    | some (st, info) => (if st = 0x33 then d.gcnt 8 else d).complete c st (info := info) (done := n) (dg := dg)
    | none =>
      match a.recovered with
      | some l => d.complete c 1 (info := l) (done := n) (dg := dg) (un := a.unwritten.isSome)
      | none => d.complete c 0 (info := a.unwritten.getD 0) (done := n) (dg := dg) (un := a.unwritten.isSome)

/-- The places that outstanding local reads need and that have not been read. -/
def Dev.wanted (d : Dev) : List Place :=
  (d.hq.cmds.flatMap fun c =>
    if (c.op = 0x10 ∨ c.op = 0x12) ∧ !c.forwarded then (d.mlbas c.slot).filterMap fun m =>
      if (d.rowAt m).isSome || (d.onMedium m).isSome || (d.mediaAt m).isSome then none else d.mediumPlace m
    else []).dedup

/-- The places that a local range was read from are done with. -/
def Dev.forgetRange (d : Dev) (nsid lba n : Nat) : Dev :=
  d.each (((List.range n).filterMap fun k => d.mediumPlace (d.nsFirst nsid + lba + k)).dedup) Dev.forget

/-- A codeword of LBA k of a READ is uncorrectable in the buffer (R289): data staged from the medium is read from it once more;
a second failure, or one of a buffered write, ends the read before that LBA. -/
def Dev.faultAt (d : Dev) (c : Cmd) (k : Nat) (a : ReadAcc) : Dev × Option ReadAcc :=
  let (d, ch) := d.draw 32
  let d := d.bufferFault (writerCode (.dma (Fin.ofNat 32 ch)))
  let mlba := d.nsFirst c.nsid + c.lba + k
  let ended : ReadAcc := { a with out := a.out.take k, stop := some (0x50, c.lba + k) }
  match d.mediumPlace mlba with
  | none => (d, some ended)
  | some p =>
    if (d.rowAt mlba).isSome || c.again.contains p then (d, some ended)
    else ((d.setCmd { c with started := true, again := c.again ++ [p] }).forget p, none)

/-- A local READ or VERIFY. It waits for an earlier overlapping write of its ring, for the places it needs, and for its
transfer budget. -/
def Dev.readLocal (d : Dev) (c : Cmd) (xfer : TransferEnd) : Dev :=
  let a := d.readRange c.nsid c.lba c.len (c.tagOf 0)
  if d.ordered c c.lba c.len false || a.wait then d
  else
    let (d, a) := match xfer with
      | .bufferFault k => if c.op = 0x10 ∧ k < a.out.length then d.faultAt c k a else (d, some a)
      | _ => (d, some a)
    match a with
    | none => d
    | some a =>
    let dg := d.sides[d.cmdSide c].takeover
    let d := match a.stop, d.firstBroken (d.mlbas c.slot) with
      | some (0x50, _), some (i, _) => d.allocMismatch i
      | _, _ => d
    let d := d.endReadCmd c a xfer dg
    if d.hq.cmds.any fun x => x.order == c.order then d else d.forgetRange c.nsid c.lba c.len

/-- Records of this device's own copy go into the forwarding region. -/
def State.writeRegion (s : State) (off : Nat) (rs : List Rec) : State :=
  (s.writeInternal .admitter (0x40_0000_0000 + off) (rs.flatMap Rec.bytes)).1

/-- Start the sub-commands of a forwarded read that are not sent: those on this device run at once (R344, R347). -/
def State.startSubs (s : State) (c : Cmd) : State × Cmd :=
  let (s, subs) := c.subs.foldl (fun (p : State × List Sub) u =>
    let (s, done) := p
    if u.state ≠ 0 then (s, done ++ [u])
    else if u.dev = s.dev.deviceId then
      let a := s.dev.readRange u.nsid u.loc u.count u.lba
      if a.wait then (s, done ++ [u])
      else
        let s := if c.op = 0x10 then s.writeRegion u.region a.out else s
        let dg := u.degraded || s.dev.sides[s.dev.nsSide u.nsid].takeover
        let u := match a.stop with
          | some (st, _) => { u with state := 3, status := st, degraded := dg }
          | none => { u with state := 2, status := if a.recovered.isSome then 1 else 0, degraded := dg,
                             unwritten := a.unwritten.isSome }
        (s.onDev fun d => d.forgetRange u.nsid u.loc u.count, done ++ [u])
    else if s.dev.fwdBudget < s.dev.fwdUse + 4096 * u.count then (s, done ++ [u])
    else (s.onDev fun d => d.sendSub c u, done ++ [{ u with state := 1 }])) (s, [])
  let c := { c with started := true, subs }
  (s.onDev fun d => d.setCmd c, c)

/-- Read the records of a finished sub-command back from the forwarding region and check them (R345). -/
def State.readRegion (s : State) (u : Sub) : State × List Rec :=
  match s.readInternal .admitter (0x40_0000_0000 + u.region) (u.count * 4112) with
  | (s, .ok bs) => (s, (List.range u.count).map fun i => readRec ((bs.drop (4112 * i)).take 4112))
  | (s, .error _) => (s, [])

/-- A record of an unwritten LBA carries the marker tag. -/
def Rec.goodOrUnwritten (r : Rec) (expected : Nat) : Bool :=
  r.good expected || (r.lba == 0xFFFF_FFFE#32 && r.lbaN == 1#32 && r.crc.toNat == crc64 r.data)

/-- Every sub-command of a forwarded read has ended: check, deliver, one STATUS (R30, R345). -/
def State.endForwarded (s : State) (c : Cmd) : State :=
  let (s, subs, recs) := c.subs.foldl (fun (p : State × List Sub × List Rec) u =>
    let (s, done, recs) := p
    if u.state ≠ 2 ∨ c.op ≠ 0x10 then (s, done ++ [u], recs)
    else
      let (s, rs) := s.readRegion u
      let ok := rs.length == u.count && rs.zipIdx.all fun r => r.1.goodOrUnwritten (u.lba + r.2)
      (s, done ++ [if ok then u else { u with state := 3, status := 0x33 }],
        if done.all (fun v => v.state == 2) && ok then recs ++ rs else recs)) (s, [], [])
  let bad := (subs.zip c.subs).countP fun u => u.1.state == 3 && u.2.state == 2
  let c := { c with subs }
  s.onDev fun d =>
    let d := d.each (List.range bad) fun d _ => d.gcnt 8
    let (d, moved) := if c.op = 0x10 then d.moveOut c c.lbaBytes (recs.flatMap c.deliver) else (d, true)
    if moved then d.fwdStatus c recs.length else d

/-- A forwarded read goes on: failed sub-commands that may be retried go to the next usable copy (R348). -/
def State.fwdReadOn (s : State) (c : Cmd) : State :=
  let (s, subs) := c.subs.foldl (fun (p : State × List Sub) u =>
    let (s, done) := p
    if u.state = 3 ∧ (u.status = 0x30 ∨ u.status = 0x40 ∨ u.status = 0x51) then
      let (s, e) := s.extent u.extent
      let (s, k) := s.readCopy e u.column (u.copy + 1) false
      match k with
      | some k =>
        let m := e.member k u.column
        let rel := u.loc - memFirst (e.member u.copy u.column)
        (s, done ++ [{ u with copy := k, dev := memDev m, nsid := memNsid m, loc := memFirst m + rel, state := 0,
                              status := 0, tag := BitVec.ofNat 16 (u.tag.toNat + 0x4000) }])
      | none => (s, done ++ [u])
    else (s, done ++ [u])) (s, [])
  let (s, c) := s.startSubs { c with subs }
  if c.subs.all fun u => u.state == 2 || u.state == 3 then s.endForwarded c else s

/-- A READ or VERIFY runs. -/
def State.readCommand (s : State) (src : CmdSrc) (tag : BitVec 16) (op : Nat) (xfer : TransferEnd) : State :=
  match s.dev.cmdOf src tag op with
  | none => s
  | some c =>
    if !s.dev.mayRun c then s
    else if !c.forwarded then s.onDev fun d => (d.readLocal c xfer).settle
    else if s.dev.ordered c c.lba c.len false then s
    else
      let (s, subs) := if c.started then (s, c.subs) else s.makeSubs c
      (s.fwdReadOn { c with subs }).onDev Dev.settle

def execRead (src : CmdSrc) (tag : BitVec 16) (xfer : TransferEnd) (s : State) : Host.Outcome State Fault Refusal :=
  .next (s.readCommand src tag 0x10 xfer)

def execVerify (src : CmdSrc) (tag : BitVec 16) (s : State) : Host.Outcome State Fault Refusal :=
  .next (s.readCommand src tag 0x12 .complete)

/-- A forwarded write has all its data: the records go to the forwarding region, and every copy gets its sub-command;
those on this device are acknowledged here (R344, R345). -/
def State.forwardWrite (s : State) (c : Cmd) : State :=
  let (s, subs) := s.makeSubs c
  let s := subs.foldl (fun s u =>
    let rs := (c.got.filter fun g => decide (u.lba ≤ c.lba + g.1) && decide (c.lba + g.1 < u.lba + u.count)).map (·.2)
    if u.dev = s.dev.deviceId then s.onDev fun d => d.ackRange c u.nsid u.loc rs
    else (s.writeRegion u.region rs).onDev fun d =>
      let rec_ : FwdRec :=
        { dev := u.dev, nsid := u.nsid, loc := u.loc, count := u.count, src := c.src, ensNsid := c.nsid, ensLba := u.lba }
      { d.sendSub c u with hq.fwd := (rec_ :: d.hq.fwd).take 65536 }) s
  let subs := subs.map fun (u : Sub) => { u with state := 1 }
  s.onDev fun d => (d.setCmd { c with subs, acked := true, got := [] }).settle

/-- All of a write's data is in the buffer with its tags checked: it is acknowledged (R265). In GHOST_LIGHT a FUA write ends
with NOT_READY once its transfer is done (R58). -/
def execWriteAck (src : CmdSrc) (tag : BitVec 16) (s : State) : Host.Outcome State Fault Refusal :=
  .next (match s.dev.cmdOf src tag 0x11 with
    | none => s
    | some c =>
      if !c.ready ∨ c.acked ∨ c.got.length ≠ c.len then s
      else if c.forwarded then s.forwardWrite c
      else s.onDev fun d => (if d.ghostLight && c.fua then d.complete c 0x40 else d.ackLocal c).settle)

/-- A worker's STATUS for a sub-command, or for an ABORT sent to it, arrives (R30, R348). -/
def State.subStatus (s : State) (id : Nat) (p : Slot) : State :=
  let st := slotField p 6 1
  let fl := slotField p 1 1
  let hit (u : Sub) : Bool := u.dev == id && u.tag == pTag p && u.state == 1
  match s.dev.hq.cmds.find? fun c => c.subs.any hit with
  | none => s
  | some c =>
    let abort := c.op != 0x10 && c.op != 0x11 && c.op != 0x12
    let subs := c.subs.map fun (u : Sub) =>
      if hit u then { u with state := if st = 0 ∨ st = 1 then 2 else 3,
                             status := if abort then slotField p 7 1 else st,
                             degraded := u.degraded || fl.testBit 1, unwritten := fl.testBit 2 } else u
    let c := { c with subs }
    let s := s.onDev fun d => d.setCmd c
    if c.op = 0x10 ∨ c.op = 0x12 then (s.fwdReadOn c).onDev Dev.settle
    else if abort then
      if subs.any fun u => u.state == 1 then s
      else s.onDev fun d =>
        -- every answer to the ABORTs is in: the target ends if each one was caught
        let caught := subs.all fun u => u.status == 0
        let d := match d.hq.cmds.find? fun x => c.waitFor.contains x.order with
          | some t => if caught then d.complete t 0x10 else d
          | none => d
        (d.complete c 0 (res := b2n (!caught)) (ns := 0)).settle
    else s.onDev Dev.settle

/-! ### ABORT (R274) -/

/-- The source whose command an ABORT names. -/
def abortTarget (src : CmdSrc) (p : Slot) : CmdSrc :=
  match src with
  | .ring _ => .ring (Fin.ofNat 16 (slotField p 2 1))
  | .peer id => .peer id

/-- The bytes of an ABORT packet. -/
def abortBytes (tag target : BitVec 16) : List Byte :=
  pad64 (leBytes 1 5 ++ leBytes 1 0 ++ leBytes 1 0 ++ leBytes 1 0 ++ leBytes 2 tag.toNat ++ leBytes 2 target.toNat)

/-- ABORTs go to every worker with an outstanding sub-command of the target; the answer waits for theirs. -/
def Dev.abortForwarded (d : Dev) (src : CmdSrc) (p : Slot) (t : Cmd) : Dev :=
  let d := { d with hq.order := d.hq.order + 1 }
  let sent := (t.subs.filter fun u => u.state == 1 && u.dev != d.deviceId).map fun (u : Sub) =>
    { u with tag := u.tag + 0x2000, status := 0 }
  let a := { Cmd.fetched src p d.hq.order with started := true, subs := sent, waitFor := [t.order] }
  let d := { d with hq.order := d.hq.order + 1, hq.cmds := d.hq.cmds ++ [a] }
  d.each sent fun d u => d.sendFrame u.dev (.packets [abortBytes u.tag (u.tag - 0x2000)])

/-- A started READ or VERIFY stops at the next RB boundary: what is left of the RB is delivered where it has been read and
the budget allows it, ladders of its places end after their step, and DONE counts the LBAs completed (R274, R276). -/
def Dev.stopRead (d : Dev) (c : Cmd) (status : Nat) : Dev :=
  let before := d.wanted
  let at_ := d.nsFirst c.nsid + c.lba + c.offered
  let n := if c.op = 0x12 then c.len else if c.offered = 0 then 0 else min c.len (c.offered + (64 - at_ % 64) % 64)
  let a := d.readRange c.nsid c.lba n (c.tagOf 0)
  let whole := a.out.length == n && !c.silent
  let (d, moved) := if c.op = 0x10 ∧ whole then d.moveOut c c.lbaBytes (a.out.flatMap c.deliver) else (d, false)
  let sent := match d.hq.cmds.find? fun x => x.order == c.order with | some x => x.offered | none => 0
  let done := if c.op = 0x12 then (if c.started then a.out.length else 0) else if moved then n else sent
  let d := d.complete c status (done := done)
  let after := d.wanted
  d.each allHeads fun d h => d.onHead h fun s =>
    { s with recover := s.recover.map fun j =>
        if before.contains j.place && !after.contains j.place then { j with last := true } else j }

/-- An ABORT is acted on. -/
def Dev.abort (d : Dev) (src : CmdSrc) (p : Slot) (lastTransfer : Bool) : Dev :=
  match d.takePending src p with
  | none => d
  | some d =>
    let answer (d : Dev) (r : Nat) : Dev := d.answer src (pTag p) 0 r 0
    let tsrc := abortTarget src p
    let ttag := BitVec.ofNat 16 (slotField p 6 2)
    match d.hq.cmds.find? fun c => c.src == tsrc && c.tag == ttag with
    | none => answer d (if d.tagBusy tsrc ttag then 1 else 2)
    | some c =>
      if c.forwarded ∧ c.subs.any fun u => u.state == 1 && u.dev != d.deviceId then d.abortForwarded src p c
      else if c.acked then answer d 1
      else if c.op = 0x10 ∧ lastTransfer then answer d 1
      else if c.started ∧ c.op ≠ 0x11 ∧ !isRw c.op then answer d 1
      else if (c.op = 0x10 ∨ c.op = 0x12) ∧ !c.forwarded then answer (d.stopRead c 0x10) 0
      else answer (d.complete c 0x10) 0

def execAbort (src : CmdSrc) (a : Slot) (lastTransfer : Bool) (s : State) : Host.Outcome State Fault Refusal :=
  .next { s with dev := (s.dev.abort src a lastTransfer).settle }

end Sys2Proof.Machine
end

