-- ==== Sys2Proof/Machine/Reach.lean ====
section
/-! DEFINITION. How soon a head reaches a place: its own spiral, or a seek and the rotational wait after it; and the head the
format engine chooses (R29, R177, R448). -/

namespace Sys2Proof.Machine

abbrev rAngle (h : Head) : Nat := 0x50_082C + 0x1_0000 * h.val

/-- The band-turn a head stands on. -/
def Dev.turnNow (d : Dev) (h : Head) : Nat := d.fld (rWaddrHi h) 0 15

/-- The layer in focus. -/
def Dev.layerOf (d : Dev) (h : Head) : Nat := d.fld (rSrvStat h) 12 4

/-- Microsteps of a coarse move over a number of bands (R177): bands times 1.92 µm over USTEP_CODES times 4.578 nm; ties are
rounded away from zero (notes/assumptions/76.md). -/
def Dev.coarseSteps (d : Dev) (h : Head) (bands : Int) : Int :=
  let u := d.fld (rSledCfg h) 0 16
  let num := bands * 1920000 * 256
  if u = 0 then Config.divZero num else divRound num (u * 4578)

/-- Beats of a part of a revolution, in 1/65,536 turn, at the measured speed. -/
def Dev.turnBeats (d : Dev) (part : Nat) : Nat := part * 48000000 / (65536 * d.fld 0x60_0008 0 16)

/-- Where a head stands along its spiral, in wobbles from band-turn 0 (R92). -/
def Wobble.at (w : Wobble) : Nat := w.next * 512 + w.count / 1350000000

/-- The position of a head is known. -/
def Dev.placed (d : Dev) (h : Head) : Bool := d.flag (rWaddrLo h) 31

/-- Beats of a trapezoidal move of n microsteps on a head's sled axis, at VMAX and ACCEL. -/
def Dev.moveBeats (d : Dev) (h : Head) (n : Nat) : Nat :=
  let v := d.fld (0x70_0018 + 0x100 * h.val) 0 25
  let a := d.fld (0x70_001C + 0x100 * h.val) 0 32
  if v * v ≤ n * a * 2 ^ 16 then n * 2 ^ 24 / v + v * 2 ^ 8 / a else 2 * isqrt 60 (n * 2 ^ 32 / a) 0

/-- Beats of a fine jump of n bands at VMAX (R174). -/
def Dev.jumpBeats (d : Dev) (h : Head) (n : Nat) : Nat :=
  let v := 10 * d.fld (rJumpCfg h) 8 8
  24 + (1536 * n + v - 1) / v

/-- Beats of a layer jump of m layers (R175). -/
def layerBeats (m : Nat) : Nat := if m = 0 then 0 else 160 + 80 * m

/-- Beats of an address read: two words of T0 at most. -/
def Dev.addressBeats (d : Dev) (h : Head) : Nat := 1024 * 800000 / d.heads[h].wobble.freq

/-- Seek-and-settle time in beats of a seek to a layer and band-turn, by the steps of R177. -/
def Dev.seekBeats (d : Dev) (h : Head) (layer turn : Nat) : Nat :=
  let bands := ((turn : Int) - d.turnNow h).natAbs
  let layers := ((layer : Int) - d.layerOf h).natAbs
  let confirm := 8 + d.addressBeats h
  if layers = 0 ∧ bands ≤ d.fld (rJumpCfg h) 0 8 then (if bands = 0 then 0 else d.jumpBeats h bands) + confirm
  else 8 + d.moveBeats h (d.coarseSteps h bands).natAbs + 80 + layerBeats layers + confirm

/-- Part of a turn under a head now, in 1/65,536: its own, or that of a head whose position is known, by their angles
(R448). -/
def Dev.angleNow (d : Dev) (h : Head) : Nat :=
  match (h :: headsOf (sideOf h)).find? d.placed with
  | some g => ((turnFine d.heads[g].wobble.at + d.fld (rAngle g) 0 16 + 65536) - d.fld (rAngle h) 0 16) % 65536
  | none => 0

/-- Beats until a place's first wobble passes the head by its own spiral; none where the spiral does not lead there. -/
def Dev.followBeats (d : Dev) (h : Head) (p : Place) : Option Nat :=
  let at_ := d.heads[h].wobble.at
  let first := p.rb.val * 9178
  if d.placed h ∧ d.heads[h].wobble.layer = p.layer ∧ at_ ≤ first + 12 then
    some (d.turnBeats (turnFine first - turnFine at_))
  else none

/-- Beats until a place's first wobble passes the head after a seek: the wait runs from the seek's end. -/
def Dev.seekReach (d : Dev) (h : Head) (p : Place) : Nat :=
  let seek := d.seekBeats h p.layer.val (placeTurn p.rb.val)
  let turned := seek * 65536 * d.fld 0x60_0008 0 16 / 48000000
  seek + d.turnBeats ((turnFine (p.rb.val * 9178) + (turned / 65536 + 2) * 65536 - (d.angleNow h + turned)) % 65536)

/-- The smaller of the two (R29). -/
def Dev.reachBeats (d : Dev) (h : Head) (p : Place) : Nat :=
  match d.followBeats h p with
  | some n => min n (d.seekReach h p)
  | none => d.seekReach h p

/-- The head the format engine chooses for a place: in service, the least time, the lower-numbered on a tie (R29). -/
def Dev.headFor (d : Dev) (p : Place) : Option Head :=
  ((headsOf p.side).filter d.inService).foldl (fun (b : Option Head) h => match b with
    | some g => if d.reachBeats h p < d.reachBeats g p then some h else some g
    | none => some h) none

end Sys2Proof.Machine
end

