-- ==== Sys2Proof/Machine/Rch.lean ====
section
/-! DEFINITION. The read channels, the LDPC pool and the recovery ladder (04_read_channel.md). -/

namespace Sys2Proof.Machine

/-! ### Defects (R103-R105) -/

/-- A criterion has held for 32 bits: the marked span begins GUARD bits before its first qualifying bit. -/
def Dev.defectStart (d : Dev) (h : Head) (j : Spot) (crit : DefectCriterion) : Dev :=
  let c := d.chan h j
  let i : Fin 5 := match crit with | .dropout => 0 | .bright => 1 | .baseline => 2 | .metric => 3 | .laneCrc => 4
  if d.flag (rSpotStat h j) 3 ∨ c.runs[i] < 32 then d
  else
    let first : Int := (c.pos : Int) - c.runs[i] - d.guardBits h
    (((d.setB (rSpotStat h j) 3 true).setB (rSpotStat h j) 4 true).bump (rSpotDefects h j) 0 16).onSpot h j fun s =>
      { s with span := some (first, crit == .dropout) }

def execDefectStart (h : Head) (j : Spot) (crit : DefectCriterion) (s : State) : Host.Outcome State Fault Refusal :=
  .next { s with dev := s.dev.defectStart h j crit }

/-! ### Lanes (R94-R97, "When the lanes from a head fail") -/

/-- The states a loop has when the input of this beat is replaced by the one before it (R167): those before the beat,
advanced once more with that input. -/
def LoopState.lateFail (l : LoopState) : LoopState := 
  if l.secs = l.before then l else { l with secs := l.before, last := l.prev, again := true }

/-- A multiblock's RF blocks: those of its 32 positions in the transport period that carry RF samples (R95). -/
def multiblockRf (pos : Nat) (blocks : List (List Byte)) : List (List Byte) :=
  (blocks.zipIdx.filter fun q => rfBlock ((pos + q.2) % 3750)).map (·.1)

/-- A multiblock arrives and its CRC-12 is checked. Its samples go through the channels of the lane's spots. A failure
counts, makes its samples a defect of both spots, and marks its servo samples bad. -/
def Dev.multiblock (d : Dev) (h : Head) (lane : Fin 4) (blocks : List (List Byte)) (crc : BitVec 12) : Dev :=
  let ok := Config.laneCrc blocks.flatten == crc
  let pos := d.heads[h].laneBlock[lane]
  let rf := (multiblockRf pos blocks).map (d.polarity h lane.val)
  let spots := d.laneSpots h lane
  let d := d.onHead h fun s => { s with laneBlock := s.laneBlock.set lane ((pos + blocks.length) % 480000) }
  let d := d.onlyIf (spots.contains 0) fun d => d.countWobbles h (4 * rf.length)
  let d := d.each spots fun d j =>
    let locked := d.fresh % 2 == 1
    (d.drawn.setB (rSpotStat h j) 16 locked).rfSamples h j rf !ok
  if ok then d.onHead h fun s => { s with crcRun := s.crcRun.set lane 0 }
  else
    let d := (d.setB (rJesd h) (4 + lane.val) true).bump (rJesd h) 16 16
    let d := d.onHead h fun s =>
      let s := { s with crcRun := vmod s.crcRun lane (· + 1) }
      if !s.advanced then s
      else
        -- every sample of the group counts as one that qualifies (R167)
        { (List.range 8).foldl (fun s m => s.scan (8 * s.groupBeat + m) true false) s with
          loops := s.loops.map LoopState.lateFail, advanced := false }
    d.each spots fun d j => d.defectStart h j .laneCrc

def execMultiblockReceived (h : Head) (lane : Fin 4) (blocks : List (List Byte)) (crc : BitVec 12) (s : State) :
    Host.Outcome State Fault Refusal :=
  .next { s with dev := s.dev.multiblock h lane blocks crc }

/-- Lane loss: every channel of the head stops, and HEAD_FAULT is raised with cause 2. -/
def Dev.laneLoss (d : Dev) (h : Head) (cause : LaneCause) (lane : Fin 4) : Dev :=
  let d := match cause with
    | .crc => d
    | .syncLock => d.setB (rJesd h) lane.val false
    | .alignment => d.setB (rJesd h) 9 false
  if cause = .crc ∧ d.heads[h].crcRun[lane] < 8 then d
  else ((d.setB (rJesd h) 8 true).dropReads h).headFault h 2

def execLaneLoss (h : Head) (cause : LaneCause) (lane : Fin 4) (s : State) : Host.Outcome State Fault Refusal :=
  .next { s with dev := s.dev.laneLoss h cause lane }

/-! ### Zone tables (R106, R107) -/

/-- A zone entry's bytes pass their CRC (R106, R107). -/
def zoneEntryOk (bs : List Byte) : Bool :=
  crcBits 16 0x1021 (8 * 62) (beNat (bs.take 62)) 0xFFFF == leNat ((bs.drop 62).take 2)

/-- A signed byte as a 6-bit target tap. -/
def tapBits (b : Byte) : Nat := b.toNat % 64

/-- Load a zone entry into a spot (R107): all values with the named target, or without the target. The windows of known
bits restart (R244). -/
def Dev.loadEntry (d : Dev) (h : Head) (j : Spot) (bs : List Byte) (t : ZoneTrigger) : Dev :=
  let w (o : Nat) : Nat := leNat ((bs.drop o).take 2)
  let d := ((d.setF (rSpotGain h j) 0 16 (w 0)).setF (rSpotBase h j) 0 8 (w 2)).setF (rSpotBase h j) 16 10 (w 4)
  let d := d.setF (rSpotTiming h j) 16 16 (w 6)
  let d := d.each (List.range 15) fun d t => if t = 7 then d else d.setF (rSpotTap h j t) 0 12 (w (8 + 2 * t))
  let target (d : Dev) (o : Nat) (alt : Bool) : Dev :=
    (d.each (List.range 5) fun d k => d.setF (rSpotTarget h j) (6 * k) 6 (tapBits (bs.getD (o + k) 0))).setB
      (rSpotTarget h j) 30 alt
  let all (d : Dev) : Dev := d.onSpot h j fun s =>
    { s with noise := (bs.getD 48 0).toNat, dropTh := (bs.getD 49 0).toNat }
  let d := match t with
    | .acquisition => all (target d 38 false)
    | .ladder false => all (target d 38 false)
    | .ladder true => all (target d 43 true)
    | _ => d
  ((d.setB (rSpotStat h j) 6 true).onSpot h j fun s => { s with win := .reset }).calLoaded h j

/-- Load the spot's entry of a layer and zone from the zone table; an entry that fails its CRC is not loaded
(R106, R107). -/
def State.zoneLoadAt (s : State) (h : Head) (j : Spot) (layer zone : Nat) (t : ZoneTrigger) : State :=
  let d := s.dev
  let index := (((sideOf h).val * 16 + layer) * 32 + zone) * 8 + j.val
  let base := (d.rd rZoneBaseLo).toNat + d.fld rZoneBaseHi 0 16 * 2 ^ 32
  let (s, r) := s.readInternal .format (base + 64 * index) 64
  match r with
  | .ok bs => if zoneEntryOk bs then s.onDev fun d => d.loadEntry h j bs t
      else s.onDev fun d => d.setB (rSpotStat h j) 7 true
  | .error _ => s.onDev fun d => d.setB (rSpotStat h j) 7 true

/-- The spot is at a sync or in the VFO of a link gap (R107); places follow one another every 513,968 bits. -/
def SpotPath.atSync (c : SpotPath) : Bool :=
  let q := c.pos % 513968
  (decide (640 ≤ q) && decide (q < 1152)) || (decide (2048 ≤ q) && decide ((q - 2048) % 9480 < 48))

/-- A pending load takes effect at the spot's next sync or VFO: the entry of the layer and zone the head is in (R107). -/
def State.zoneLoad (s : State) (h : Head) (j : Spot) : State :=
  match s.dev.heads[h].spots[j].load with
  | none => s
  | some t =>
    if !(s.dev.chan h j).atSync then s
    else
      let s := s.onDev fun d => d.onSpot h j fun p => { p with load := none }
      s.zoneLoadAt h j (s.dev.fld (rSrvStat h) 12 4) (zoneOf (s.dev.fld (rWaddrHi h) 0 15) % 32) t

def execZoneLoad (h : Head) (j : Spot) (s : State) : Host.Outcome State Fault Refusal := .next (s.zoneLoad h j)

/-- A trigger of R107: the load is to take effect at the next sync or VFO. -/
def Dev.wantLoad (d : Dev) (h : Head) (j : Spot) (t : ZoneTrigger) : Dev := d.onSpot h j fun s => { s with load := some t }

/-- No criterion has held for 64 bits: the marked span ends GUARD bits after its last qualifying bit, and the loops
resume. A span longer than LONG is to load the zone entry, target unchanged (R104, R107). -/
def Dev.defectEnd (d : Dev) (h : Head) (j : Spot) : Dev :=
  let c := d.chan h j
  match d.heads[h].spots[j].span with
  | none => d
  | some (first, _) =>
    if c.clear < 64 then d
    else
      let last : Int := (c.pos : Int) - c.clear - 1 + d.guardBits h
      let len := (last - first + 1).toNat
      let long := decide (len > d.fld (rDefCfg h) 24 8 * 256)
      let d := ((d.setB (rSpotStat h j) 3 false).setB (rSpotStat h j) 4 false).onSpot h j fun p =>
        { p with span := none, spans := p.spans ++ [(first, last)], longest := max p.longest len }
      d.onlyIf long fun d => (d.bump (rSpotDefects h j) 16 8).wantLoad h j .longDefect

def execDefectEnd (h : Head) (j : Spot) (s : State) : Host.Outcome State Fault Refusal :=
  .next { s with dev := s.dev.defectEnd h j }

/-- The condition of R108 that a cause names: 1,024 bits at a limit, or the metric criterion in four frames of LOCK. -/
def Dev.diverges (d : Dev) (h : Head) (j : Spot) (c : DivergeCause) : Bool :=
  let l := (d.chan h j).limits
  match c with
  | .gain => decide (1024 ≤ l[0])
  | .offset => decide (1024 ≤ l[1])
  | .tap => (l.toList.drop 2).take 15 |>.any fun n => decide (1024 ≤ n)
  | .timing => decide (1024 ≤ l[17])
  | .metric => decide (4 ≤ (d.chan h j).metricFrames)

/-- A loop diverges: DIVERGED, counted, and the zone entry is to be loaded (R108). -/
def Dev.loopDiverge (d : Dev) (h : Head) (j : Spot) (c : DivergeCause) : Dev :=
  if !d.diverges h j c then d
  else (((d.setB (rSpotStat h j) 5 true).bump (rSpotDefects h j) 24 8).wantLoad h j .divergence).onChan h j fun x =>
    { x with limits := Vector.replicate 18 0, metricFrames := 0 }

def execLoopDiverge (h : Head) (j : Spot) (c : DivergeCause) (s : State) : Host.Outcome State Fault Refusal :=
  .next { s with dev := s.dev.loopDiverge h j c }

/-! ### Known bits (R234, R236) -/

/-- Reads that the recovery ladder serves: READ and VERIFY, and a mount's own (R118, R243). -/
def laddered (w : ReadPurpose) : Bool := w == .command || w == .mount

/-- Free head time: TRK_LOCK and SKW_LOCK, no write, and no command's place (R235). -/
def Dev.freeHead (d : Dev) (h : Head) : Bool :=
  d.flag (rSrvStat h) 2 && d.flag (rSrvStat h) 3 && !d.flag (rWrpStat h) 0 &&
    !(d.heads[h].job.any fun x => laddered x.why)

/-- One known bit: its error enters the spot's window, and the shadow equaliser adapts on it. The errors at PROBE away
come from an interpolator whose coefficients are not stated. -/
def Dev.knownBit (d : Dev) (h : Head) (j : Spot) (q : Int) (hist : List Int) : Dev :=
  let c := d.chan h j
  let at_ := ((c.pos : Int) - 1 - q).toNat
  if d.marked h j q 1 ∨ q < 0 ∨ c.ys.length ≤ at_ then d
  else
    let ideal := idealOf (d.target h j) hist
    let e := c.ys.getD at_ 0 - ideal
    let xs := c.xs.drop at_
    let w := d.heads[h].spots[j].win
    let taps := if w.shadow.isEmpty then d.taps h j else w.shadow
    let (d, y) := d.near (List.zipWith (· * ·) taps xs).sum 1024
    let sh := d.fld (rLoopCfg h) 15 5
    let r := (List.range 15).foldl (fun (r : Dev × List Int) t =>
      let c0 := taps.getD t 0
      if t = 7 then (r.1, r.2 ++ [c0])
      else
        let (d, step) := r.1.near ((y - ideal) * xs.getD t 0 * 1024) (2 ^ sh)
        (d, r.2 ++ [clampI (-2048) 2047 (c0 + step)])) (d, [])
    let d := r.1
    let plus := d.fresh; let d := d.drawn
    let minus := d.fresh; let d := d.drawn
    let sq := (e * e).natAbs
    let free := d.freeHead h
    let d := d.onSpot h j fun s =>
      { s with win := { bits := w.bits + 1, e0 := w.e0 + sq, ePlus := w.ePlus + plus, eMinus := w.eMinus + minus,
                        shadow := r.2 } }
    if free then { d with cal := { d.cal with meas := vmod d.cal.meas h fun m => (m.1 + 1, m.2 + sq) } } else d

/-- Known channel bits from a place position on; the NRZ levels before them are the detector's. -/
def Dev.knownBits (d : Dev) (h : Head) (j : Spot) (first : Int) (bits : List Bool) : Dev :=
  let c := d.chan h j
  let before := (decisions (d.target h j) ((c.ys.drop ((c.pos : Int) - first).toNat).take 64).reverse).reverse.take 4
  let levels := bits.foldl (fun (l : List Int) b => (if b then -l.headD (-1) else l.headD (-1)) :: l) before
  d.each (List.range bits.length) fun d i => d.knownBit h j (first + i) (levels.drop (bits.length - 1 - i))

/-- The link gap's known bits: VFO, calibration pattern, pre-sync (R81, R234). -/
def gapBits : List Bool :=
  (List.replicate 128 [true, false, false, false]).flatten ++ modulate (pairsOf (lfsrBits 340 0x8001))

def preSync : List Bool := (List.replicate 64 [true, false, false, false, false, false]).flatten

/-- Ladder steps 3 to 5 of a head keep its known bits out of every window (R242). -/
def Dev.inReread (d : Dev) (h : Head) : Bool :=
  (match d.heads[h].job with | some x => decide (3 ≤ x.step) | none => false) ||
    allHeads.any fun g => d.heads[g].recover.any fun x => decide (3 ≤ x.step) && (x.owner == h || g == h)

/-- The known bits of a frame accepted in LOCK: its sync, its header if it decoded, and before frame 0 the link gap. -/
def Dev.collectKnown (d : Dev) (h : Head) (j : Spot) (frame : Nat) (m : FrameMark) (header : List Nat) : Dev :=
  if d.inReread h ∨ m.flywheel ∨ m.ambig ∨ m.erased ∨ !(d.inService h && !d.ghostLight) then d
  else
    let d := d.onlyIf (frame == 0) fun d =>
      (d.knownBits h j (m.pos - 1408) gapBits).knownBits h j (m.pos - 384) preSync
    let d := d.knownBits h j m.pos (bitsOf 48 (if frame = 0 then sy0 else sy1))
    d.onlyIf m.decoded fun d => d.knownBits h j (m.pos + 48) (modulate (pairsOf (headerBits header)))

/-! ### Sync (R109-R113) -/

/-- Bits that differ. -/
def hamming (a b : BitVec 48) : Nat := ((List.range 48).filter fun i => (a ^^^ b).getLsbD i).length

/-- Distance of a window from the nearer sync pattern. -/
def syncDistance (b : BitVec 48) : Nat := min (hamming b (BitVec.ofNat 48 sy0)) (hamming b (BitVec.ofNat 48 sy1))

/-- The type of a candidate is SY0: the nearer pattern, and on a tie the one expected at the frame (R109). -/
def syncFirst (frame : Nat) (b : BitVec 48) : Bool :=
  let a := hamming b (BitVec.ofNat 48 sy0); let c := hamming b (BitVec.ofNat 48 sy1)
  decide (a < c) || (a == c && frame == 0)

/-- A decoded header names this spot, place and frame (R110). -/
def headerMatches (h : Head) (j : Spot) (p : Place) (frame : Nat) (b : List Nat) : Bool :=
  b.getD 0 0 == (sideOf h).val * 128 + p.layer.val * 8 + j.val &&
    b.getD 1 0 * 65536 + b.getD 2 0 * 256 + b.getD 3 0 == p.rb.val && b.getD 4 0 / 4 == frame

/-- The bytes of a list of pairs; an erasure reads as 00 (R76). -/
def pairBytes (l : List (Option Nat)) : List Nat :=
  (chunks 4 12 (l.take 48)).map fun q => q.foldl (fun n p => 4 * n + p.getD 0) 0

/-- The header's 144 channel bits at a position, decoded hard (R76, R101) and corrected (R83); none where it fails or lies
in a marked span (R105). -/
def Dev.headerAt (d : Dev) (h : Head) (j : Spot) (q : Int) : Option (List Nat) :=
  if q < 0 ∨ d.marked h j q 144 then none
  else headerDecode (pairBytes (demodulate ((chunks 3 50 (((d.chan h j).soft.drop q.toNat).take 150)).map groupNat)))

/-- The header decodes for this place and frame (R110). -/
def Dev.goodHeader (d : Dev) (h : Head) (j : Spot) (p : Place) (frame : Nat) (q : Int) : Option (List Nat) :=
  (d.headerAt h j q).filter (headerMatches h j p frame)

/-- The 48 hard decisions at a position, first bit at the most significant end. -/
def Dev.windowAt (d : Dev) (h : Head) (j : Spot) (q : Int) : BitVec 48 :=
  BitVec.ofNat 48 ((((d.chan h j).soft.drop q.toNat).take 48).foldl (fun n l => 2 * n + b2n (hardBit l)) 0)

/-- Candidates within ±win of a predicted position, outside marked spans: offset and distance (R105, R109). -/
def Dev.candidates (d : Dev) (h : Head) (j : Spot) (predicted : Int) (win : Nat) : List (Int × Nat) :=
  ((List.range (2 * win + 1)).map fun (i : Nat) => (i : Int) - win).filterMap fun o =>
    let q := predicted + o
    let n := syncDistance (d.windowAt h j q)
    if 0 ≤ q ∧ n ≤ d.fld (rSyncCfg h) 12 3 ∧ !d.marked h j q 48 then some (o, n) else none

/-- Is candidate a tested before candidate b: smaller distance, then smaller |d|, then earlier (R113). -/
def candBefore (a b : Int × Nat) : Bool :=
  decide (a.2 < b.2) || (a.2 == b.2 && (decide (a.1.natAbs < b.1.natAbs) ||
    (a.1.natAbs == b.1.natAbs && decide (a.1 < b.1))))

/-- The candidate that is tested first. -/
def bestCand : List (Int × Nat) → Option (Int × Nat)
  | [] => none
  | c :: r => match bestCand r with
    | none => some c
    | some b => some (if candBefore b c then b else c)

/-- The selectors of a frame's segments from its header; free where the header does not decode. -/
def Dev.selectors (d : Dev) (header : Option (List Nat)) : Dev × List Nat :=
  match header with
  | some b => (d, [b.getD 5 0 / 64, b.getD 5 0 / 16 % 4, b.getD 5 0 / 4 % 4, b.getD 5 0 % 4, b.getD 6 0 / 64,
      b.getD 6 0 / 16 % 4])
  | none => (d.drawn, (List.range 6).map fun i => d.fresh / 4 ^ i % 4)

/-- A frame is done with: it is recorded, the spot's state becomes `st`, and the next frame is expected one frame on. -/
def Dev.putMark (d : Dev) (h : Head) (j : Spot) (st : Nat) (m : FrameMark) : Dev :=
  (d.setF (rSpotStat h j) 0 3 st).onSpot h j fun s =>
    { s with frames := sput s.frames s.frame m, frame := s.frame + 1, predicted := m.pos + 9480 }

/-- The frame is accepted at a position: LOCK, and predictions go on from there. Its known bits are collected. -/
def Dev.acceptFrame (d : Dev) (h : Head) (j : Spot) (p : Place) (q : Int) (ambig : Bool) : Dev :=
  let f := d.heads[h].spots[j].frame
  let hd := d.goodHeader h j p f (q + 48)
  let (d, sels) := d.selectors hd
  let m : FrameMark := { pos := q, first := syncFirst f (d.windowAt h j q), sels, decoded := hd.isSome, erased := false,
                         flywheel := false, ambig }
  (d.putMark h j 2 m).collectKnown h j f m (hd.getD [])

/-- No acceptable candidate in HUNT or LOST: the frame is erased. -/
def Dev.eraseFrame (d : Dev) (h : Head) (j : Spot) (st : Nat) : Dev :=
  d.putMark h j st { pos := d.heads[h].spots[j].predicted, first := false, sels := [], decoded := false, erased := true,
                      flywheel := false, ambig := false }

/-- The first miss: the frame is read at the predicted position and marked flywheel. -/
def Dev.flywheel (d : Dev) (h : Head) (j : Spot) (p : Place) : Dev :=
  let s := d.heads[h].spots[j]
  let hd := d.goodHeader h j p s.frame (s.predicted + 48)
  let (d, sels) := d.selectors hd
  ((d.bump (rSpotCounts h j) 0 8).putMark h j 3
    { pos := s.predicted, first := false, sels, decoded := hd.isSome, erased := false, flywheel := true, ambig := false
      }).onSpot h j fun s => { s with flywheels := s.flywheels + 1 }

/-- SYNC_LOST Hn: a spot has entered LOST (R112). -/
def Dev.spotLost (d : Dev) (h : Head) (j : Spot) : Dev :=
  ((d.bump (rSpotCounts h j) 24 8).eraseFrame h j 4).raise (headLine 9 h) 0x03 (rSpotStat h j) j.val 0 0

/-- A read of a place for a command or a mount has brought its rows into the buffer. -/
def Dev.recordRead (d : Dev) (h : Head) (job : ReadJob) (how : ReadEnd) (recovered : Bool) : Dev :=
  let d := d.onHead h fun s => { s with lastRead := some (job.place, how) }
  if job.why = .command ∨ job.why = .mount then
    d.keepFound { place := job.place, how, rows := job.rows, recovered }
  else d

/-- The place is reported blank: no sync in HUNT on any spot for the whole place, with dropout throughout (R110; that the
criterion never clears is read as a dropout span open since before frame 0, notes/assumptions/70.md). -/
def Dev.blankCheck (d : Dev) (h : Head) : Dev :=
  match d.heads[h].job with
  | none => d
  | some job =>
    let blank := allSpots.all fun j =>
      let s := d.heads[h].spots[j]
      decide (54 ≤ s.frame) && d.fld (rSpotStat h j) 0 3 == 1 &&
        (match s.span with | some (first, drop) => drop && decide (first ≤ 2048) | none => false)
    if blank then (d.idleChannels h).recordRead h job .blank false else d

/-- The frame just read counts toward the metric criterion's four frames in LOCK (R108). -/
def Dev.metricFrame (d : Dev) (h : Head) (j : Spot) (locked : Bool) : Dev :=
  d.onChan h j fun c =>
    { c with metricFrames := if locked && c.metricHere then c.metricFrames + 1 else 0, metricHere := false }

/-- A frame's sync window passes (R105, R109, R110, R113). In LOCK and FLY a candidate exactly at the predicted position
is accepted without a contest (notes/assumptions/71.md). -/
def Dev.syncWindow (d : Dev) (h : Head) (j : Spot) : Dev :=
  match d.heads[h].job with
  | none => d
  | some job =>
    let st := d.fld (rSpotStat h j) 0 3
    let s := d.heads[h].spots[j]
    let wide := st == 1 || st == 4
    let win := if wide then d.fld (rSyncCfg h) 4 8 else d.fld (rSyncCfg h) 0 4
    if st = 0 ∨ 54 ≤ s.frame ∨ (s.chan.soft.length : Int) < s.predicted + win + 198 then d
    else
      let cs := d.candidates h j s.predicted win
      let ok (o : Int) : Bool := (d.goodHeader h j job.place s.frame (s.predicted + o + 48)).isSome
      let d := d.metricFrame h j (st == 2)
      let d :=
        if wide then
          match bestCand (cs.filter fun c => ok c.1) with
          | some c => d.acceptFrame h j job.place (s.predicted + c.1) false
          | none => d.eraseFrame h j st
        else if cs.any fun c => c.1 == 0 then d.acceptFrame h j job.place s.predicted false
        else
          match bestCand cs with
          | some c =>
            if ok c.1 && !ok 0 then (d.bump (rSpotCounts h j) 16 8).acceptFrame h j job.place (s.predicted + c.1) false
            else if ok 0 && !ok c.1 then d.acceptFrame h j job.place s.predicted false
            else (d.bump (rSpotCounts h j) 8 8).acceptFrame h j job.place s.predicted true
          | none => if st = 2 then d.flywheel h j job.place else d.spotLost h j
      d.blankCheck h

def execSyncWindow (h : Head) (j : Spot) (s : State) : Host.Outcome State Fault Refusal :=
  .next { s with dev := s.dev.syncWindow h j }

/-- The SYNC_LOST chain: the timing loop of the spot that raised it is re-seeded from the wobble rate (its trim is 0), and
the LOST window is open (R112). -/
def Dev.syncLostChain (d : Dev) (h : Head) (j : Spot) : Dev :=
  if d.fld (rSpotStat h j) 0 3 = 4 then d.setF (rSpotTiming h j) 16 16 0 else d

/-! ### Reading a place: contexts and iterations (R114-R117) -/

/-- Rows not accepted yet. -/
def ReadJob.failed (j : ReadJob) : BitVec 72 := ~~~ j.accepted

def popcount72 (b : BitVec 72) : Nat := ((List.range 72).filter fun i => b.getLsbD i).length

/-- The failed rows in order. -/
def ReadJob.failedRows (j : ReadJob) : List Nat := (List.range 72).filter fun c => j.failed.getLsbD c

/-- Rows of an RB in recovery that decoder k holds contexts for. -/
def ReadJob.onDecoder (j : ReadJob) (k : Nat) : Nat := (j.failedRows.filter fun c => c % 8 == k).length

/-- Contexts of decoder k in use for places in progress, nine each, and for rows in recovery beyond the twelve kept for
them (R115). -/
def Dev.contexts (d : Dev) (k : Fin 8) : Nat :=
  9 * (allHeads.filter fun h => (d.heads[h].job).isSome).length +
    (((allHeads.map fun h => ((d.heads[h].recover.map fun j => j.onDecoder k.val).sum)).sum) - 12)

/-- A new read of a place. -/
def ReadJob.new (p : Place) (why : ReadPurpose) (owner : Head) : ReadJob :=
  { place := p, why, accepted := 0, rows := [], corrected := [], msgs := [], progressive := 0, closed := false, step := 0,
    reread := 0, outer := false, waiting := false, last := false, owner, llrs := [], iters := [] }

/-- The ladder's re-read of this place that the head is to make: its own, or at step 5 its partner's. -/
def Dev.rereadFor (d : Dev) (h : Head) (p : Place) : Option (Head × ReadJob) :=
  [h, partner h].findSome? fun g =>
    (d.heads[g].recover.find? fun x => x.waiting && x.place == p &&
      (if x.step = 5 then x.owner != h else x.owner == h)).map fun x => (g, x)

/-- A place that the head may read to verify: in the side's verify queue or the record in flight, and written by its
partner, unless that is out of service or the side does not verify (R135, R138, R139, R145). -/
def Dev.mayVerify (d : Dev) (h : Head) (p : Place) : Bool :=
  let s := d.sides[sideOf h]
  let other (w : Head) : Bool := w != h || !d.inService (partner h)
  (s.verifyQ.any fun v => v.place == p && (other v.writer || !d.verified (sideOf h))) ||
    (match s.recFlight with
      | some r => r.sent && logPlace (sideOf h) r.index == p && other r.writer
      | none => false)

/-- What a read of a place for a purpose needs: the head chosen under R29 for commands, a place to verify, and for idle
verification the oldest one queued on an unverified side (R138). A place that was abandoned is never decoded for a command
(R90). -/
def Dev.mayRead (d : Dev) (h : Head) (p : Place) : ReadPurpose → Bool
  | .command => d.headFor p == some h && !(d.placeState p == 2 && (d.placedRows p).isEmpty)
  | .verify => d.mayVerify h p
  | .idleVerify => !d.verified (sideOf h) && (d.sides[sideOf h].verifyQ.head?.map VerifyItem.place) == some p
  | .mount => d.mounting && d.headFor p == some h
  | .opc | .calibration => true

/-- The head is at the start of the place: layer, and the word and wobble carried forward (R91, R92). -/
def Dev.atStart (d : Dev) (h : Head) (p : Place) : Bool :=
  let w := d.heads[h].wobble
  d.flag (rWaddrLo h) 31 && sideOf h == p.side && w.side == p.side && w.layer == p.layer &&
    (w.next == placeWord p.rb.val && decide (w.count / 1350000000 ≤ placeOffset p.rb.val + 11))

/-- Sync of every spot goes to HUNT at the start of a place; positions count from its first bit. -/
def Dev.startSpots (d : Dev) (h : Head) : Dev :=
  let d := d.onHead h fun s => { s with spots := s.spots.map fun s =>
    { s with frame := 0, predicted := 2048, frames := [], longest := 0, flywheels := 0, spans := [],
             span := s.span.map fun x => (x.1 - s.chan.pos, x.2),
             chan := { s.chan with pos := 0, soft := [] } } }
  d.each allSpots fun d j => d.setF (rSpotStat h j) 0 3 1

/-- A head starts a place once every decoder has nine free contexts; otherwise it takes it at its next pass (R115). A
re-read of the ladder has the zone entry of its step loaded at
the next sync or VFO (R107, R118). -/
def Dev.placeReadStart (d : Dev) (h : Head) (p : Place) (why : ReadPurpose) : Dev :=
  let free := (List.finRange 8).all fun k => decide (d.contexts k + 9 ≤ 36)
  if !free || d.engineHalted 3 || !d.inService h || d.heads[h].job.isSome || !d.atStart h p || !d.flag (rSrvStat h) 2 then d
  else match d.rereadFor h p with
    | some (g, x) =>
      let alt := x.step == 3 || (x.step == 5 && x.reread == 1)
      let d := d.onHead g fun s => { s with recover := s.recover.erase x }
      let d := d.onHead h fun s =>
        { s with job := some { x with waiting := false, progressive := 0, closed := false, msgs := [], llrs := [], iters := [] } }
      (d.startSpots h).each allSpots fun d j => d.wantLoad h j (.ladder alt)
    | none =>
      if d.ladderHolds h || !d.mayRead h p why then d
      else
        let old := (d.heads[h].resume).filter fun x => x.place == p && x.why == why
        let job : ReadJob := match old with
          | some x => { x with progressive := 0, closed := false, msgs := [], llrs := [], iters := [] }
          | none => .new p why h
        let d := (d.onHead h fun s => { s with job := some job, resume := none }).startSpots h
        if why = .verify ∨ why = .idleVerify then d.setB (rWrpStat h) 2 true else d

def execPlaceReadStart (h : Head) (p : Place) (why : ReadPurpose) (s : State) : Host.Outcome State Fault Refusal :=
  .next { s with dev := s.dev.placeReadStart h p why }

/-- Decoder-slots of the recovery budget left in this act (R37, R40, R50). -/
def Dev.ldpcLeft (d : Dev) : Nat := d.fld (rBudget 6) 0 24 * 64 - d.cue.used[6]

/-- Decoder-slots of n iterations of one row each: 7.5 apiece. -/
def iterSlots (n : Nat) : Nat := (15 * n + 1) / 2

/-- Take decoder-slots of the recovery budget: all of them, or the work waits and HIT is set. -/
def Dev.takeLdpc (d : Dev) (slots : Nat) : Option Dev :=
  if slots ≤ d.ldpcLeft then some { d with cue.used := vmod d.cue.used 6 (· + slots) } else none

/-- A ladder's decoding is under way: idle verification's iterations come after it (R115, R138). -/
def Dev.ladderDecodes (d : Dev) : Bool := allHeads.any fun h =>
  d.heads[h].recover.any fun x => x.closed && !x.waiting && !x.outer

/-- What an iteration over the rows of a place in progress costs the recovery budget: idle verification and re-reads pay
for it, other reads have the media reserve (R40, R115). -/
def Dev.payIteration (d : Dev) (job : ReadJob) : Option Dev :=
  if job.why = .idleVerify then if d.ladderDecodes then none else d.takeLdpc (iterSlots 72)
  else if 3 ≤ job.step then d.takeLdpc (iterSlots job.failedRows.length)
  else some d

/-- One iteration on each row that is not accepted, with the LLRs read so far (R114). -/
def ReadJob.iterate (j : ReadJob) (place : List (List (List Int))) (rows : List Nat) : ReadJob :=
  { j with msgs := rows.foldl (fun m c =>
      sput m c (minSumIteration (rowLlrs place c) ((sfind m c).getD noMsgs))) j.msgs,
           iters := rows.foldl (fun m c => sput m c ((sfind m c).getD 0 + 1)) j.iters }

/-- The syndrome checks: rows with a zero syndrome are accepted under R116; each keeps its payload, and the bits its decoder
corrected are counted. -/
def ReadJob.check (j : ReadJob) (llrs : Nat → List Int) (rows : List Nat) : ReadJob :=
  rows.foldl (fun (j : ReadJob) c =>
    let llr := llrs c
    let bits := decided (posterior llr ((sfind j.msgs c).getD noMsgs))
    if rowAccepted c bits then
      { j with accepted := j.accepted ||| BitVec.ofNat 72 (2 ^ c), rows := sput j.rows c (payloadOf bits),
               corrected := sput j.corrected c ((List.zipWith (fun l b => b2n (hardBit l != b)) llr bits).sum) }
    else j) j

/-- A data row decoded to a zero syndrome whose guard tag does not match (R116, class 0x09). -/
def ReadJob.wrongRow (j : ReadJob) (llrs : Nat → List Int) (rows : List Nat) : Bool := rows.any fun c =>
  let bits := decided (posterior (llrs c) ((sfind j.msgs c).getD noMsgs))
  decide (c < 64) && syndromeZero bits && !rowTagOk (payloadOf bits)

/-- The frame after which progressive iteration n runs: 5, 11, ... 47. -/
def progressiveFrame (n : Nat) : Nat := 6 * n + 5

/-- The end of a read of a place (R114): the closing iteration and a syndrome check decide each row, and a row that fails has
one further iteration and a second check. -/
def ReadJob.close (j : ReadJob) (place : List (List (List Int))) : ReadJob :=
  let first := j.iterate place j.failedRows
  let once := first.check (rowLlrs place) first.failedRows
  let twice := once.iterate place once.failedRows
  { twice.check (rowLlrs place) twice.failedRows with closed := true }

/-- A data row had a zero syndrome and a wrong guard tag at one of the two checks. -/
def ReadJob.closeWrong (j : ReadJob) (place : List (List (List Int))) : Bool :=
  let first := j.iterate place j.failedRows
  let once := first.check (rowLlrs place) first.failedRows
  let twice := once.iterate place once.failedRows
  first.wrongRow (rowLlrs place) j.failedRows || twice.wrongRow (rowLlrs place) twice.failedRows

/-- Outer erasure decoding of the failed rows; a restored data row whose guard tag does not match is not accepted (R117). -/
def ReadJob.restore (j : ReadJob) : ReadJob :=
  let rows := (outerRestore j.failedRows j.rows).filter fun q => decide (64 ≤ q.1) || rowTagOk q.2
  { j with outer := false, rows := rows.foldl (fun l q => sput l q.1 q.2) j.rows,
           accepted := rows.foldl (fun a q => a ||| BitVec.ofNat 72 (2 ^ q.1)) j.accepted }

/-- All eight spots have read frame f. -/
def Dev.frameRead (d : Dev) (h : Head) (f : Nat) : Bool := allSpots.all fun j => decide (f < d.heads[h].spots[j].frame)

/-- One progressive iteration, of eight, once its frame has been read on all eight spots (R114). -/
def Dev.progressiveIteration (d : Dev) (h : Head) : Dev :=
  match d.heads[h].job with
  | none => d
  | some job =>
    if d.engineHalted 4 ∨ job.closed ∨ 8 ≤ job.progressive ∨ !d.frameRead h (progressiveFrame job.progressive) then d
    else match d.payIteration job with
      | none => d.hitBudget 6
      | some d => d.onHead h fun s =>
          { s with job := some { (job.iterate (d.placeLlrs h) job.failedRows) with progressive := job.progressive + 1 } }

def execProgressiveIteration (h : Head) (s : State) : Host.Outcome State Fault Refusal :=
  .next { s with dev := s.dev.progressiveIteration h }

/-- RCH_Hn_LADDER shows the step, the rows still failing and the place of the oldest RB in the head's ladder. -/
def Dev.setRecover (d : Dev) (h : Head) (l : List ReadJob) : Dev :=
  (d.onHead h fun s => { s with recover := l }).wr (rLadder h) (match l with
    | [] => 0
    | j :: _ => BitVec.ofNat 32 (min j.step 5 + popcount72 j.failed * 8 + j.place.layer.val * 2 ^ 10 +
        j.place.rb.val * 2 ^ 14))

/-- Put a job in its owner's ladder: in place of the one for the same RB, else behind the others. -/
def Dev.putRecover (d : Dev) (job : ReadJob) : Dev :=
  let l := d.heads[job.owner].recover
  d.setRecover job.owner (if l.any fun x => x.place == job.place
    then l.map fun x => if x.place = job.place then job else x else l ++ [job])

/-- The read of a place ends. -/
def Dev.endRead (d : Dev) (h : Head) (job : ReadJob) (e : ReadEnd) : Dev :=
  (((d.idleChannels h).setB (rWrpStat h) 2 false).onHead h fun s => { s with ladderOfs := (0, 0) }).recordRead h job e false

/-! ### The recovery ladder (R118-R121) -/

/-- The recovered content of an RB is held in the buffer as acknowledged rows that no host write waits for (R120). -/
def Dev.holdRecovered (d : Dev) (home : Place) (job : ReadJob) : Dev :=
  let base := home.side.val * 166019072 + home.layer.val * 10376192 + (home.rb.val - 2528) * 64
  let new := job.rows.filterMap fun q =>
    if 64 ≤ q.1 ∨ (q.2.getD 4112 0) ≠ 0 ∨ d.hq.rows.any fun r => r.mlba == base + q.1 then none
    else
      let body : Rec := { data := q.2.take 4096, crc := BitVec.ofNat 64 (beNat ((q.2.drop 4096).take 8)),
                          lba := BitVec.ofNat 32 (beNat ((q.2.drop 4104).take 4)),
                          lbaN := BitVec.ofNat 32 (beNat ((q.2.drop 4108).take 4)) }
      some ({ mlba := base + q.1, body, src := .ring 0, nsid := 0, lba := base + q.1, stream := 0, writes := [],
              order := d.hq.order, atomic := false, place := none, released := false, committed := false,
              range := d.hq.ranges } : Row)
  { d with hq.rows := d.hq.rows ++ new, hq.order := d.hq.order + 1, hq.ranges := d.hq.ranges + 1 }

/-- The ladder stops with every row accepted. An RB recovered at step 3 to 5 is to be rewritten to a spare place, or the skip
is recorded (R120); a record or power-calibration place is neither (notes/assumptions/72.md). -/
def Dev.ladderDone (d : Dev) (job : ReadJob) : Dev :=
  let d := d.setRecover job.owner (d.heads[job.owner].recover.filter fun x => x.place != job.place)
  let data := areaOf job.place.rb == .user || areaOf job.place.rb == .innerSpare || areaOf job.place.rb == .outerSpare
  if job.step < 3 ∨ !data then d.recordRead job.owner job (.passed job.step) false
  else if d.canReplace job.place.side then
    let home := d.homeOfPlace job.place
    let d := (d.holdRecovered home job).onSide job.place.side fun s =>
      { s with replQ := s.replQ ++ [{ home, kind := 1, attempts := 0, spare := none }] }
    d.recordRead job.owner job (.passed job.step) true
  else
    (d.post 0x0124 0x02 (job.place.side.val + job.place.layer.val * 16) job.place.rb.val job.step 0).recordRead job.owner
      job (.passed job.step) false

/-- Rows still fail after the last step: the RB is unrecovered (R121). -/
def Dev.ladderFailed (d : Dev) (job : ReadJob) : Dev :=
  let f := job.failed.toNat
  let d := d.setRecover job.owner (d.heads[job.owner].recover.filter fun x => x.place != job.place)
  ((d.bump rLdpcStat 24 8).post 0x0121 0x02 (job.place.side.val + job.place.layer.val * 16) job.place.rb.val
    (f % 2 ^ 64) (f / 2 ^ 64)).recordRead job.owner job (.unrecovered job.failed) false

/-- Re-reads of a step: one at step 3, four at step 4, two at step 5 (R118). -/
def rereads (step : Nat) : Nat := if step = 3 then 1 else if step = 4 then 4 else if step = 5 then 2 else 0

/-- A step is run: its enable bit is set, and step 5 needs the other head in service and no takeover in force. -/
def Dev.stepEnabled (d : Dev) (h : Head) (step : Nat) : Bool :=
  match step with
  | 3 => d.flag rLadderCfg 16
  | 4 => d.flag rLadderCfg 17
  | 5 => d.flag rLadderCfg 18 && d.inService (partner h) && !(d.sides[sideOf h]).takeover
  | _ => false

/-- The step after `step`, if one is left. -/
def Dev.nextStep (d : Dev) (h : Head) (step : Nat) : Option Nat :=
  [3, 4, 5].find? fun k => decide (step < k) && d.stepEnabled h k

/-- Focus and tracking offsets of a re-read: at step 4, +FOC_OFS, -FOC_OFS, +TRK_OFS, -TRK_OFS in turn, in nm (R118). -/
def Dev.rereadOfs (d : Dev) (job : ReadJob) : Int × Int :=
  let f : Int := d.fld rLadderCfg 0 8; let t : Int := d.fld rLadderCfg 8 8
  if job.step ≠ 4 then (0, 0)
  else if job.reread = 0 then (f, 0) else if job.reread = 1 then (-f, 0) else if job.reread = 2 then (0, t) else (0, -t)

/-- The head that re-reads: the other head at step 5. -/
def ReadJob.reader (j : ReadJob) : Head := if j.step = 5 then partner j.owner else j.owner

/-- A re-read is to be made; its offsets are applied during the rotational wait. -/
def Dev.wantReread (d : Dev) (job : ReadJob) : Dev :=
  (d.putRecover { job with waiting := true, outer := false }).onHead job.reader fun s => { s with ladderOfs := d.rereadOfs job }

/-- Steps 1 and 2 have failed for this read: another re-read of the step, the next step, or the end; the end as well where
the command it served has been stopped (R274). -/
def Dev.ladderOn (d : Dev) (job : ReadJob) : Dev :=
  if 3 ≤ job.step ∧ job.reread + 1 < rereads job.step then d.wantReread { job with reread := job.reread + 1 }
  else if job.last then d.setRecover job.owner (d.heads[job.owner].recover.filter fun x => x.place != job.place)
  else match d.nextStep job.owner job.step with
    | some k => d.wantReread { job with step := k, reread := 0 }
    | none => d.ladderFailed job

/-- After frame 53 the read of the place closes. Rows that fail start the ladder, or go on in it after a re-read (R114, R116,
R118). A verify read is judged by VERIFY_READ_DONE. -/
def Dev.closingIteration (d : Dev) (h : Head) : Dev :=
  match d.heads[h].job with
  | none => d
  | some job =>
    if d.engineHalted 4 ∨ job.closed ∨ !d.frameRead h 53 then d
    else match d.payIteration job with
      | none => d.hitBudget 6
      | some d =>
        let place := d.placeLlrs h
        let job' := job.close place
        let d := (d.onlyIf (job.closeWrong place) fun d => d.gcnt 0x09).onlyIf (job'.failed != 0#72) fun d => d.gcnt 0x0A
        if job.why = .verify ∨ job.why = .idleVerify then d.onHead h fun s => { s with job := some job' }
        else if job'.failed == 0#72 then
          if 3 ≤ job.step then (d.endRead h job' (.passed job.step)).ladderDone job' else d.endRead h job' (.passed 0)
        else if !laddered job.why then d.endRead h job' (.unrecovered job'.failed)
        else ((d.idleChannels h).onHead h fun s => { s with ladderOfs := (0, 0) }).putRecover
          { job' with step := max job'.step 1, llrs := job'.failedRows.map fun c => (c, rowLlrs place c) }

def execClosingIteration (h : Head) (s : State) : Host.Outcome State Fault Refusal :=
  .next { s with dev := s.dev.closingIteration h }

/-- Extended iterations on one row until it is accepted or has had MAX in all, 7.5 decoder-slots each; true when the
recovery budget runs out first (R37, R118). -/
def Dev.extendRow : Nat → Dev → ReadJob → Nat → Dev × ReadJob × Bool
  | 0, d, job, _ => (d, job, false)
  | n + 1, d, job, c =>
    let done := (sfind job.iters c).getD 0
    if job.accepted.getLsbD c ∨ d.fld rLdpcCfg 8 6 ≤ done then (d, job, false)
    else match d.takeLdpc (iterSlots (done + 1) - iterSlots done) with
      | none => (d, job, true)
      | some d =>
        let llr := (sfind job.llrs c).getD []
        let job := { job with msgs := sput job.msgs c (minSumIteration llr ((sfind job.msgs c).getD noMsgs)),
                              iters := sput job.iters c (done + 1) }
        let wrong := job.wrongRow (fun _ => llr) [c]
        Dev.extendRow n (d.onlyIf wrong fun d => d.gcnt 0x09) (job.check (fun _ => llr) [c]) c

/-- Every failed row in order, until the budget runs out. -/
def Dev.extendRows (d : Dev) (job : ReadJob) : Dev × ReadJob × Bool :=
  job.failedRows.foldl (fun (p : Dev × ReadJob × Bool) c => if p.2.2 then p else Dev.extendRow 64 p.1 p.2.1 c) (d, job, false)

/-- The RB of a head's ladder whose rows are to have their extended iterations. -/
def Dev.extending (d : Dev) (h : Head) : Option ReadJob :=
  d.heads[h].recover.find? fun x => x.closed && !x.waiting && !x.outer

/-- Step 1, or the decoding of a re-read of steps 3 to 5: extended iterations on each failed row. With no decoder-slots
left they wait for the next act. With at most eight rows failing, outer decoding comes next (R117, R118). -/
def Dev.ladderStep (d : Dev) (h : Head) : Dev :=
  match d.extending h with
  | none => d
  | some job =>
    if d.engineHalted 4 then d else
    let (d, new, short) := d.extendRows job
    if short then (d.putRecover new).hitBudget 6
    else
      let d := d.onlyIf (job.step == 1) fun d => d.bump rLdpcStat 0 16 (popcount72 job.failed - popcount72 new.failed)
      if new.failed == 0#72 then d.ladderDone new
      else if popcount72 new.failed ≤ 8 then d.putRecover { new with outer := true, step := max new.step 2 }
      else d.ladderOn new

def execLadderStep (h : Head) (s : State) : Host.Outcome State Fault Refusal :=
  .next { s with dev := s.dev.ladderStep h }

/-- Outer erasure decoding restores the failed rows, at most eight (R116, R117). -/
def Dev.outerDecode (d : Dev) (h : Head) : Dev :=
  match d.heads[h].recover.find? fun x => x.outer with
  | none => d
  | some job =>
    if d.engineHalted 4 then d else
    let new := job.restore
    if new.failed == 0#72 then (d.onlyIf (job.step == 2) fun d => d.bump rLdpcStat 16 8).ladderDone new
    else d.ladderOn new

def execOuterDecode (h : Head) (s : State) : Host.Outcome State Fault Refusal :=
  .next { s with dev := s.dev.outerDecode h }

end Sys2Proof.Machine
end

