-- ==== Sys2Proof/Machine/Wrp.lean ====
section
/-! DEFINITION. The write path: gate, write clock, power calibration, verification, spares and the disc-information log
(05_write_path.md). -/

namespace Sys2Proof.Machine

/-! ### The write clock (R128) -/

/-- A phase in 1/256 wobble, from -128 to 127. -/
def wrapPhase (x : Int) : Int := (x + 128) % 256 - 128

/-- The phase error of one wobble: the mean of the carriers of S0 to S7 against the write clock, that of Sj advanced by
j times 45° (R70, R128). -/
def clkError (carriers : List Int) : Int :=
  quot (sumInts (carriers.zipIdx.map fun q => wrapPhase (q.1 + 32 * q.2))) 8

/-- WRP_Hn_CLK shows the last phase error and the write clock's frequency: 56 times the wobble's. -/
def Dev.showClk (d : Dev) (h : Head) (errs : List Int) : Dev :=
  (d.setF (rWrpClk h) 0 8 (uns 8 (clampI (-128) 127 (errs.getLastD 0)))).setF (rWrpClk h) 16 16
    (quot (56 * d.heads[h].wobble.freq) 100000).toNat

/-- The phase error has stayed within 1/16 wobble for 256 wobbles. -/
def Dev.clkLockSet (d : Dev) (h : Head) (carriers : List (List Int)) : Dev :=
  let errs := carriers.map clkError
  let d := d.showClk h errs
  if 256 ≤ errs.length ∧ errs.all fun e => decide (e.natAbs ≤ 16) then d.setB (rWrpStat h) 1 true else d

def execClkLockSet (h : Head) (carriers : List (List Int)) (s : State) : Host.Outcome State Fault Refusal :=
  .next { s with dev := s.dev.clkLockSet h carriers }

/-- The phase error has exceeded 1/8 wobble for 8 wobbles: the gate goes at the next beat boundary. -/
def Dev.clkLockLost (d : Dev) (h : Head) (carriers : List (List Int)) : Dev :=
  let errs := carriers.map clkError
  let d := d.showClk h errs
  if 8 ≤ errs.length ∧ errs.all fun e => decide (32 < e.natAbs) then
    ((d.setB (rWrpStat h) 1 false).gcnt 0x10).gateOffNext h
  else d

def execClkLockLost (h : Head) (carriers : List (List Int)) (s : State) : Host.Outcome State Fault Refusal :=
  .next { s with dev := s.dev.clkLockLost h carriers }

/-! ### Opening and closing the gate on a home place (R129, R361) -/

/-- Rows that are written as lost; their writes become deferred errors with this status. -/
def Dev.rowsLost (d : Dev) (home : Place) (rows : List Row) (status : Nat) : Dev :=
  if rows.isEmpty then d
  else
    let mask := rows.foldl (fun m r => m ||| BitVec.ofNat 64 (2 ^ r.ix.val)) 0#64
    let d := d.onSide home.side fun s =>
      { s with lostRows := sput s.lostRows (placeKey home) ((sfind s.lostRows (placeKey home)).getD 0 ||| mask) }
    d.deferRows rows status

/-- Rows with an uncorrectable codeword in the buffer (R289) or that fail the check of R361 are written as lost (R273, R360). -/
def Dev.guardFailed (d : Dev) (home : Place) (bad faults : BitVec 64) : Dev :=
  let rows := d.dirtyRows home
  let gone := rows.filter fun r => faults.getLsbD r.ix.val
  let failed := rows.filter fun r => bad.getLsbD r.ix.val && !faults.getLsbD r.ix.val
  let d := (d.each gone fun d _ => d.bufferFault (writerCode .format)).rowsLost home gone 0x50
  (d.each failed fun d _ => d.gcnt 8).rowsLost home failed 0x33

/-- Rows of a home place that are not on the medium are now in place p. -/
def Dev.placeRows (d : Dev) (home p : Place) : Dev :=
  let rows := d.hq.rows.map fun (r : Row) =>
    if r.home = home ∧ r.place.isNone then { r with place := some p } else r
  { d with hq.rows := rows }

/-- The partner stands in the way: on a verified side only one head writes at a time (R135), on an unverified one both do, on
different bands (R138). -/
def Dev.partnerBusy (d : Dev) (h : Head) (p : Place) : Bool :=
  match d.heads[partner h].writing with
  | some w => d.verified (sideOf h) || (w.place.layer == p.layer && placeTurn w.place.rb == placeTurn p.rb)
  | none => false

/-- The next place of a layer's calibration zone: 0 inner, 1 outer. -/
def Dev.opcPlace (d : Dev) (x : Side) (layer : Layer) (outer : Bool) : Option Place :=
  let used := (sfind d.sides[x].opcUsed (2 * layer.val + b2n outer)).getD 0
  if used < 256 then some { side := x, layer, rb := Fin.ofNat 166992 ((if outer then 166736 else 0) + used) } else none

/-- Both zones of a layer are used up (R132). -/
def Dev.opcExhausted (d : Dev) (x : Side) (layer : Layer) : Bool :=
  (d.opcPlace x layer false).isNone && (d.opcPlace x layer true).isNone

/-- The head has calibrated the layer since LOAD. -/
def Dev.calibrated (d : Dev) (h : Head) (layer : Layer) : Bool :=
  (sfind (d.heads[h].spots[0]).opc layer.val).isSome

/-- The power calibration the head owes on a layer: both zones where it has not calibrated it since LOAD, what running power
control or a takeover has asked for, the nearer zone where the AFE's temperature has moved by more than 5 °C since (R131). -/
def Dev.opcWanted (d : Dev) (h : Head) (layer : Layer) : OpcNeed :=
  let s := d.heads[h]
  if s.opcDue ≠ .none then s.opcDue
  else if !d.calibrated h layer then .both
  else match sfind s.opcTemps layer.val with
    | some t => if 5000 < (s.temp - t).natAbs then .nearer else .none
    | none => .none

/-- The head owes no power calibration on the layer, or its zones are used up (R131, R132). -/
def Dev.opcDone (d : Dev) (h : Head) (layer : Layer) : Bool :=
  d.opcWanted h layer == .none || d.opcExhausted (sideOf h) layer

/-- The place the head reaches is the home place of buffered rows, blank and within the horizon. A verified side's writing
head is chosen under R29 (R135). -/
def Dev.homeWritable (d : Dev) (h : Head) (p : Place) : Bool :=
  areaOf p.rb == .user && d.placeState p == 0 && d.sides[p.side].mounted &&
    d.sides[p.side].horizon.contains (placeKey p) && !(d.dirtyRows p).isEmpty && !d.sides[p.side].stopHome &&
    !d.partnerBusy h p && d.curtainOpen && d.opcDone h p.layer && (!d.verified p.side || d.headFor p == some h)

/-- The gate opens at channel bit 640 of a home place. -/
def Dev.openGate (d : Dev) (h : Head) (p : Place) (bad faults : BitVec 64) : Dev :=
  if !(d.gateReady h && d.atPlace h p && d.homeWritable h p) then d
  else
    let (d, ok) := d.checkPeaks h
    if !ok then d
    else
      let rows := d.dirtyRows p
      let d := (d.guardFailed p bad faults).placeRows p p
      let now := d.beats
      (d.onSide p.side fun s => { s with reached := s.reached ++ [(placeKey p, now)] }).startWrite h
        { place := p, home := some p, rows := (List.finRange 64).map (rowOf rows [] (bad ||| faults)), type := 0, rpl := false, kind := 0,
          attempts := 0 }

def execWriteGateOpen (h : Head) (p : Place) (badRows faultRows : BitVec 64) (s : State) :
    Host.Outcome State Fault Refusal :=
  .next { s with dev := s.dev.openGate h p badRows faultRows }

/-- An RB is on the medium: it joins the side's verify queue. On a side that does not verify it may be committed at once,
and a spare place gets its table entry (R137, R138, R142). -/
def Dev.written (d : Dev) (h : Head) (home : Place) (w : WriteJob) : Dev :=
  let p := w.place
  let early := !d.verified p.side
  let d := d.onSide p.side fun s =>
    { s with verifyQ := s.verifyQ ++ [{ place := p, home, writer := h, attempts := w.attempts, kind := w.kind, early }] }
  if early then
    ((d.onlyIf (home != p) fun d => d.allocAppend w.kind home p).onSide p.side fun s =>
      { s with toCommit := s.toCommit ++ [placeKey p] }).releaseUnverified p.side
  else d

/-- The gate closes at bit 511 of the following place, and the place has been written: a home or spare place is to be
verified, a record awaits its verdict, a power-calibration place its readback. -/
def Dev.closeGate (d : Dev) (h : Head) : Dev :=
  match d.heads[h].writing with
  | none => d
  | some w =>
    let d := ((d.sendWritten h w 513840).setB (rWrpStat h) 0 false).onHead h fun s => { s with writing := none }
    match w.home with
    | some home => d.written h home w
    | none =>
      if w.type = 1 then d.onSide w.place.side fun s => { s with recFlight := s.recFlight.map fun r =>
        { r with sent := true, failed := false } }
      else d.each allSpots fun d j => d.sendPower h j

def execWriteGateClose (h : Head) (s : State) : Host.Outcome State Fault Refusal :=
  .next { s with dev := s.dev.closeGate h }

/-! ### Power calibration (R130-R132) -/

/-- The layer the head's position names. -/
def Dev.headLayer (d : Dev) (h : Head) : Layer := Fin.ofNat 16 (d.fld (rWaddrHi h) 16 4)

/-- The place on a layer that the side is to write next: the home of its oldest buffered row there, or a spare place. -/
def Dev.writeTarget (d : Dev) (x : Side) (layer : Layer) : Option Place :=
  match (d.hq.rows.find? fun r => r.place.isNone && r.home.side == x && r.home.layer == layer && d.placeState r.home == 0) with
  | some r => some r.home
  | none => d.sides[x].replQ.findSome? fun q => (d.sides[x].spareFor q.home).filter fun p => p.layer == layer

/-- The zone of a layer nearer to the write radius: outer or not. With nothing to write there, the one asked for
(notes/assumptions/74.md). -/
def Dev.nearerZone (d : Dev) (x : Side) (layer : Layer) (asked : Bool) : Bool :=
  match d.writeTarget x layer with
  | none => asked
  | some p => decide (placeTurn 0 + placeTurn 166736 < 2 * placeTurn p.rb)

/-- A zone serves a need: the zone named, or the nearer one, or the other where that one is used up. -/
def Dev.zoneServes (d : Dev) (x : Side) (layer : Layer) (need : OpcNeed) (outer : Bool) : Bool :=
  let wanted := match need with
    | .none => none
    | .nearer | .both => some (d.nearerZone x layer outer)
    | .zone z => some z
  match wanted with
  | some z => z == outer || (d.opcPlace x layer z).isNone
  | none => false

/-- The row payload of a power-calibration place: zeros, with the tag of record content (R86, R130). -/
def recordRow (data : List Byte) : List Nat :=
  let bs := data ++ List.replicate (4096 - data.length) (0 : Byte)
  rowPayload bs (crc64 bs) 0xFFFF_FFFF 3

/-- PEAK of step i, in 10 µW: P0 × (1 + (i - 13) × STEP) (R130). -/
def Dev.stepPeak (d : Dev) (h : Head) (j : Spot) (i : Nat) : Nat :=
  (quot ((d.fld (rPeak h j) 0 16 : Int) * (1000 + ((i : Int) - 13) * d.fld rOpcCfg 0 8)) 1000).toNat

/-- The POWER blocks of step i for every spot: PEAK, and MID and COOL as percentages of it (R125, R130). -/
def Dev.sendStep (d : Dev) (h : Head) (i : Nat) : Dev :=
  d.each allSpots fun d j =>
    let p := d.stepPeak h j i
    d.emits (([p, (quot (p * d.fld (rLevelCfg h) 0 8) 100).toNat, (quot (p * d.fld (rLevelCfg h) 8 8) 100).toNat].zipIdx).map
      fun q => Output.control h (powerBlock j.val q.2 q.1))

/-- A head writes a power-calibration place, frames 2i and 2i + 1 at the power of step i; a layer whose zones are used up
sets OPC_EXHAUSTED (R130, R132). -/
def Dev.opcWrite (d : Dev) (h : Head) (outer : Bool) : Dev :=
  let x := sideOf h
  let l := d.headLayer h
  if !d.gateReady h || !d.sides[x].mounted then d
  else
  let need := d.opcWanted h l
  if need = .none then d
  else if d.opcExhausted x l then (d.setB (rWrpStat h) 7 true).onHead h fun s => { s with opcDue := .none }
  else if !d.zoneServes x l need outer then d
  else match d.opcPlace x l outer with
    | none => d
    | some p =>
      if !d.atPlace h p || d.partnerBusy h p || d.placeState p != 0 then d
      else
        let (d, ok) := d.checkPeaks h
        if !ok then d
        else
          let d := (d.startWrite h { place := p, home := none, rows := List.replicate 64 (recordRow []), type := 2, rpl := false,
                                     kind := 0, attempts := 0 }).setB (rWrpStat h) 3 true
          let d := d.each (List.range 27) fun d i => d.sendStep h i
          let k := 2 * l.val + b2n outer
          (d.onSide x fun s => { s with opcUsed := sput s.opcUsed k ((sfind s.opcUsed k).getD 0 + 1) }).onHead h fun s =>
            { s with opcRun := some (p, outer), opcDue := need }

def execOpcRun (h : Head) (outer : Bool) (s : State) : Host.Outcome State Fault Refusal :=
  .next { s with dev := s.dev.opcWrite h outer }

/-- The power of step i in 10 µW: P0 × (1 + (i - 13) × STEP), as a fraction over 1,000. -/
def opcStep (p0 : Nat) (step : Nat) (i : Nat) : Int := (p0 : Int) * (1000 + ((i : Int) - 13) * step)

/-- β of a frame in 1/1,024, from the levels above and below (R130). -/
def betaOf (top bot : Int) : Int :=
  if top < bot then quot (-1024 * (top + bot)) (bot - top).toNat else quot (1024 * (top + bot)) (top - bot).toNat

/-- The sum of β over the two frames of each step. -/
def stepBetas (frames : List (Int × Int)) : List Int := (List.range 27).map fun i =>
  let f (k : Nat) : Int := let q := frames.getD k (0, 0); betaOf q.1 q.2
  f (2 * i) + f (2 * i + 1)

/-- The power at which β equals the target, interpolated between the two steps that bracket it. Where β crosses the target
between more than one pair of steps, the lowest is taken (notes/assumptions/74.md). -/
def opcPower (p0 step : Nat) (target : Int) (beta : List Int) : Option Nat :=
  let i := (List.range 26).find? fun i =>
    let a := beta.getD i 0; let b := beta.getD (i + 1) 0
    (decide (a ≤ target) && decide (target ≤ b)) || (decide (b ≤ target) && decide (target ≤ a))
  i.map fun i =>
    let a := beta.getD i 0; let b := beta.getD (i + 1) 0
    if a = b then (quot (opcStep p0 step i) 1000).toNat
    else
      let up := decide (a < b)
      let num := if up then target - a else a - target
      let den := (if up then b - a else a - b).toNat
      (quot (opcStep p0 step i * den + (p0 : Int) * step * num) (1000 * den)).toNat

/-- The result of a spot's OPC: its PEAK, and the results of both zones of the layer. The other zone's is scaled by the same
ratio, but for the second run of a trigger that runs both (R131). -/
def Dev.opcSpot (d : Dev) (h : Head) (j : Spot) (layer : Nat) (outer scale : Bool) (power ratio : Nat) : Dev :=
  let p0 := d.fld (rPeak h j) 0 16
  let old := (sfind (d.heads[h].spots[j]).opc layer).getD (p0, p0, 0)
  let scaled (q : Nat) : Nat := if scale then (quot ((q : Int) * power) p0).toNat else q
  let new := if outer then (scaled old.1, power, ratio) else (power, scaled old.2.1, ratio)
  let d := (d.onSpot h j fun s => { s with opc := sput s.opc layer new, peakNew := some power }).setCalTgt h j 42 power true
  (d.setF (rRpc h j) 0 12 ratio).setF (rRpc h j) 16 8 0

/-- What is still owed after a run in a zone has succeeded. -/
def OpcNeed.after (outer : Bool) : OpcNeed → OpcNeed
  | .both => .zone !outer
  | _ => .none

/-- The readback of the calibration place (R130, R132). -/
def Dev.opcRead (d : Dev) (h : Head) (levels : List (List (Int × Int))) (ratio : List (BitVec 12)) : Dev :=
  match d.heads[h].opcRun with
  | none => d
  | some (p, outer) =>
    if (d.heads[h].writing).isSome then d
    else
    let need := d.heads[h].opcDue
    let d := (d.setB (rWrpStat h) 3 false).onHead h fun s => { s with opcRun := none, opcTemps := sput s.opcTemps p.layer.val s.temp }
    let target := 2 * d.sfld rOpcCfg 8 10
    let powers := allSpots.map fun j =>
      opcPower (d.fld (rPeak h j) 0 16) (d.fld rOpcCfg 0 8) target (stepBetas (levels.getD j.val []))
    let scale := match need with | .zone _ => false | _ => true
    let d := d.each (allSpots.zip powers) fun d q => match q.2 with
      | some w => d.opcSpot h q.1 p.layer.val outer scale w (ratio.getD q.1.val 0).toNat
      | none => d
    if powers.all Option.isSome then d.onHead h fun s => { s with opcFails := 0, opcDue := need.after outer }
    else
      let d := d.setB (rWrpStat h) 6 true
      let n := d.heads[h].opcFails + 1
      let d := d.onHead h fun s => { s with opcFails := n }
      if 2 ≤ n then d.setB (rWrpStat h) 4 true else d

def execOpcResult (h : Head) (levels : List (List (Int × Int))) (ratio : List (BitVec 12)) (s : State) :
    Host.Outcome State Fault Refusal :=
  .next { s with dev := s.dev.opcRead h levels ratio }

/-- The forward monitor has been off for 8 beats; the third fault within 64 acts inhibits the head (R134). -/
def Dev.laserFault (d : Dev) (h : Head) : Dev :=
  if d.heads[h].laserBad < 8 then d
  else
    let recent := d.cue.act :: (d.heads[h].laserActs.filter fun a => decide (d.cue.act < a + 64))
    let d := (((d.gateOffNext h).gcnt 0x11).setB (rWrpStat h) 5 true).onHead h fun s =>
      { s with laserActs := recent, laserBad := 0 }
    if 3 ≤ recent.length then d.setB (rWrpStat h) 4 true else d

def execLaserFault (h : Head) (s : State) : Host.Outcome State Fault Refusal := .next { s with dev := s.dev.laserFault h }

/-! ### Verification (R135-R139) -/

/-- The longest marked span of the place on a spot, in channel bits, one that is still open included (R136). -/
def SpotState.longestSpan (s : SpotState) : Nat :=
  match s.span with
  | some (first, _) => max s.longest (s.chan.pos - first).toNat
  | none => s.longest

/-- Every header of the place has decoded on a spot. -/
def SpotState.headersOk (s : SpotState) : Bool :=
  (List.range 54).all fun f => match sfind s.frames f with | some m => m.decoded | none => false

/-- The first criterion of R136 that a verify read fails: 1 to 5. -/
def Dev.verifyFails (d : Dev) (h : Head) (j : ReadJob) : Option Nat :=
  let spots := d.heads[h].spots.toList
  if j.failed ≠ 0#72 then some 1
  else if j.corrected.any fun n => decide (d.fld rVfyCfg 0 12 < n.2) then some 2
  else if d.fld rVfyCfg 12 4 < (spots.map SpotState.flywheels).sum then some 3
  else if spots.any fun s => decide (d.fld rVfyCfg 16 12 < s.longestSpan) then some 4
  else if !(spots.all SpotState.headersOk) then some 5
  else none

/-- The verify read of a place that a head has finished. -/
def Dev.verifyJob (d : Dev) (h : Head) : Option ReadJob :=
  (d.heads[h].job).filter fun j => j.closed && (j.why == .verify || j.why == .idleVerify)

/-- The RB goes nowhere else: its places stay consumed, its rows read as lost until the next mount where a place of
theirs failed, and its acknowledged writes become deferred errors. -/
def Dev.giveUp (d : Dev) (home : Place) (rows : List Row) (lost : Bool) (status : Nat) : Dev :=
  let mask := rows.foldl (fun m r => m ||| BitVec.ofNat 64 (2 ^ r.ix.val)) 0#64
  let d := d.onlyIf lost fun d => d.onSide home.side fun s =>
    { s with lostRows := sput s.lostRows (placeKey home) ((sfind s.lostRows (placeKey home)).getD 0 ||| mask) }
  d.deferRows rows status

/-- With nothing left to replace, the writing head takes home places again. -/
def Dev.endStop (d : Dev) (x : Side) : Dev :=
  d.onSide x fun s => { s with stopHome := s.stopHome && (!s.replQ.isEmpty || s.verifyQ.any fun v => v.home != v.place) }

/-- A place passes: its space is released, and unless it was written unverified a spare place gets its table entry and the RB
may be committed. -/
def Dev.verifyPassed (d : Dev) (v : VerifyItem) : Dev :=
  let d := d.releasePlace v.place
  let d :=
    if v.early then d
    else
      let d := d.onlyIf (v.home != v.place) fun d => d.allocAppend v.kind v.home v.place
      d.onSide v.place.side fun s => { s with toCommit := s.toCommit ++ [placeKey v.place] }
  (d.endStop v.place.side).sweepRows

/-- A place fails: VERIFY_FAIL for the writing head, and the chain's marking for replacement (R137). A record that is not yet
written does not cover the place, nor the table entry that names it. -/
def Dev.verifyFailed (d : Dev) (v : VerifyItem) (criterion : Nat) : Dev :=
  let x := v.place.side
  let who := x.val + v.place.layer.val * 16
  let d := (((d.bump (rWrpStat v.writer) 8 8).gcnt 0x0B).post 0x0120 2 who v.place.rb.val criterion v.writer.val).raise
    (headLine 13 v.writer) 2 who v.place.rb.val criterion v.writer.val
  let k := placeKey v.place
  let names (i : Nat) : Bool := v.home != v.place && entrySpare x (d.allocEntry i).1 == v.place
  let d := d.onSide x fun s =>
    { s with toCommit := s.toCommit.filter fun q => q != k,
             toRealloc := s.toRealloc.filter fun i => !names i,
             reached := s.reached.filter fun q => q.1 != k,
             toConsume := if s.toCommit.contains k || !s.map.contains (k, 1) then s.toConsume ++ [k] else s.toConsume,
             stopHome := s.stopHome || d.verified x }
  let rows := d.placedRows v.place
  if d.fld rVfyCfg 28 2 ≤ v.attempts ∨ !d.canReplace x then ((d.giveUp v.home rows true 0x31).endStop x).sweepRows
  else
    let rows := d.hq.rows.map fun (r : Row) =>
      if r.place = some v.place ∧ !r.released then { r with place := none } else r
    let d := { d with hq.rows := rows }
    d.onSide x fun s => { s with replQ := s.replQ ++ [{ home := v.home, kind := v.kind, attempts := v.attempts,
                                                        spare := none }] }

/-- A verify read ends: its place is judged (R135-R138). -/
def Dev.verifyRead (d : Dev) (h : Head) : Dev :=
  let x := sideOf h
  match d.verifyJob h with
  | none => d
  | some j =>
    match d.sides[x].verifyQ.find? fun v => v.place == j.place with
    | none => d
    | some v =>
      let verdict := d.verifyFails h j
      let d := (d.endRead h j (if j.failed == 0#72 then .passed 0 else .unrecovered j.failed)).onSide x fun s =>
        { s with verifyQ := s.verifyQ.erase v }
      let d := match verdict with
        | none => d.verifyPassed v
        | some c => d.verifyFailed v c
      (d.releaseUnverified x).settle

/-- Command work is claimed for a head: it writes, reads or seeks, or a read that waits is to be served by it (R29, R138). -/
def Dev.workClaimed (d : Dev) (h : Head) : Bool :=
  (d.heads[h].writing).isSome || (d.heads[h].job).isSome || (d.heads[h].seek).isSome || (d.heads[h].opcRun).isSome ||
    d.wanted.any fun p => d.headFor p == some h

/-- A head of an unverified side with no command work reads the oldest queued place (R138), once it has had its reserved idle
beats in this act (R235). -/
def Dev.idleVerify (d : Dev) (h : Head) : Dev :=
  let x := sideOf h
  match d.sides[x].verifyQ.head? with
  | some v =>
    if d.verified x || d.workClaimed h || decide (d.heads[h].freeBeats < d.fld 0x88_0048 0 11) then d
    else (d.placeReadStart h v.place .idleVerify).releaseUnverified x
  | none => d

def execIdleVerify (h : Head) (s : State) : Host.Outcome State Fault Refusal :=
  .next { s with dev := s.dev.idleVerify h }

/-! ### Replacements (R140-R142) -/

/-- The replacement that a side writes next, once the partner has read every place the writer wrote. -/
def Dev.nextRepl (d : Dev) (x : Side) : Option ReplItem :=
  if d.verified x && !d.sides[x].verifyQ.isEmpty then none else d.sides[x].replQ.head?

/-- The first medium LBA of a home place. -/
def firstLba (p : Place) : Nat := p.side.val * 166019072 + p.layer.val * 10376192 + (p.rb.val - 2528) * 64

/-- What row c of an RB carries when it is written again and the buffer does not hold it: what its current place holds; none
while that place has still to be read (R138, R144). -/
def Dev.carryRow (d : Dev) (home : Place) (c : Fin 64) : Option MediaLba :=
  let m := firstLba home + c.val
  match d.mediumPlace m with
  | none => some .failed
  | some p =>
    if (d.placedRows p).any (fun r => r.mlba == m) || d.placeState p == 1 then d.mediaAt m else some .unwritten

/-- The carried rows of an RB; none while a place has still to be read. -/
def Dev.carried (d : Dev) (home : Place) : Option (List (Fin 64 × MediaLba)) :=
  (List.finRange 64).foldr (fun c acc =>
    if (d.dirtyRows home).any fun r => r.ix == c then acc
    else match acc, d.carryRow home c with
      | some l, some x => some ((c, x) :: l)
      | _, _ => none) (some [])

/-- Rows of an RB whose buffer space has been released and that could not be read back become deferred errors with
UNRECOVERED_READ (R138). -/
def Dev.carryLost (d : Dev) (home : Place) (carried : List (Fin 64 × MediaLba)) : Dev :=
  let rows := d.hq.rows.filter fun r => r.home == home && r.released &&
    carried.any fun q => q.1 == r.ix && (q.2 == .failed || q.2 == .lost)
  if rows.isEmpty then d else d.deferRows rows 0x30

/-- Take a replacement off the list. -/
def Dev.dropRepl (d : Dev) (q : ReplItem) : Dev :=
  d.onSide q.home.side fun s => { s with replQ := s.replQ.erase q }

/-- The gate opens on a spare place for an RB. -/
def Dev.writeSpare (d : Dev) (h : Head) (q : ReplItem) (sp : Place) (carried : List (Fin 64 × MediaLba))
    (bad faults : BitVec 64) : Dev :=
  let x := q.home.side
  let (d, ok) := d.checkPeaks h
  if !ok then d
  else
    let rows := d.dirtyRows q.home
    let d := ((d.dropRepl q).guardFailed q.home bad faults).carryLost q.home carried
    let now := d.beats
    let d := d.onSide x fun s => { s.takeSpare sp with reached := s.reached ++ [(placeKey sp, now)] }
    -- rows of the RB that were elsewhere are in the spare place now
    let placed := d.hq.rows.map fun (r : Row) => if r.home = q.home then { r with place := some sp } else r
    (({ d with hq.rows := placed }).showSpares x).startWrite h
      { place := sp, home := some q.home, rows := (List.finRange 64).map (rowOf rows carried (bad ||| faults)), type := 0, rpl := true,
        kind := q.kind, attempts := q.attempts + 1 }

/-- An RB is written to a spare place, or given up where no spare place or table entry is left. -/
def Dev.spareWrite (d : Dev) (h : Head) (bad faults : BitVec 64) : Dev :=
  let x := sideOf h
  match d.nextRepl x with
  | none => d
  | some q =>
    match (if d.canReplace x then d.sides[x].spareFor q.home else none) with
    | none => (((d.dropRepl q).giveUp q.home (d.dirtyRows q.home) (q.kind == 0) 0x31).endStop x).settle
    | some sp =>
      match d.carried q.home with
      | none => d
      | some carried =>
        if !(d.gateReady h && d.atPlace h sp && d.sides[x].mounted && d.sides[x].horizon.contains (placeKey sp) &&
            d.curtainOpen && d.opcDone h sp.layer && !d.partnerBusy h sp) then d
        else (d.writeSpare h q sp carried bad faults).settle

def execSpareWrite (h : Head) (badRows faultRows : BitVec 64) (s : State) : Host.Outcome State Fault Refusal :=
  .next { s with dev := s.dev.spareWrite h badRows faultRows }

/-! ### The disc-information log (R145-R151) -/

/-- Log places left on a side, and the marks of R153; LOG_LOW is told to the host when it sets (R256). -/
def Dev.showLog (d : Dev) (x : Side) (next : Nat) : Dev :=
  let free := 3072 - next
  let was := d.flag (rSideLog x) 24
  let d := (((d.setF (rSideLog x) 0 12 next).setF (rSideLog x) 12 12 free).setB (rSideLog x) 24 (decide (free < 16))).setB
    (rSideLog x) 25 (free == 0)
  if free < 16 ∧ !was then d.hostEvent 5 x.val free else d

/-- A head of the side that could write the log place now. -/
def Dev.logHead (d : Dev) (x : Side) (p : Place) : Option Head :=
  (headsOf x).find? fun h => d.gateReady h && d.atPlace h p && d.opcDone h p.layer && !d.partnerBusy h p

/-- Ranges of consecutive RBs on a layer among rising keys: layer, first RB, count (R147). -/
def keyRanges : List Nat → List (Nat × Nat × Nat)
  | [] => []
  | k :: ks =>
    let l := k / placesPerLayer; let rb := k % placesPerLayer
    match keyRanges ks with
    | (l2, f, c) :: rest => if l = l2 ∧ f = rb + 1 then (l, rb, c + 1) :: rest else (l, rb, 1) :: (l2, f, c) :: rest
    | [] => [(l, rb, 1)]

/-- A range entry: LAYER in [63:60], FIRST_RB in [59:42], COUNT in [41:24]. -/
def rangeEntry (r : Nat × Nat × Nat) : List Byte :=
  beBytes 8 (r.1 % 16 * 2 ^ 60 + r.2.1 % 2 ^ 18 * 2 ^ 42 + r.2.2 % 2 ^ 18 * 2 ^ 24)

/-- Keys in rising order, without repeats. -/
def sortKeys (l : List Nat) : List Nat := ((l.foldl (fun m k => sput m k ()) ([] : List (Nat × Unit))).map (·.1))

/-- The places a side may write before the next record: the home places of its buffered writes, and the next free spare
places of each area (R150). -/
def Dev.newHorizon (d : Dev) (x : Side) : List Nat :=
  let homes := sortKeys ((d.hq.rows.filter fun r => r.home.side == x && r.place.isNone && d.placeState r.home == 0).map
    fun r => placeKey r.home)
  let s := d.sides[x]
  let spares := (List.range 16).flatMap fun l => [false, true].flatMap fun o =>
    match s.spareFree l o with
    | none => []
    | some n => (List.range 4).filterMap fun k =>
        if n + k < (if o then 166736 else 2528) then some (l * placesPerLayer + n + k) else none
  -- at most 256 ranges and 4,096 places in all
  let homes := ((keyRanges (homes.take 3968)).take 224).flatMap fun r =>
    (List.range r.2.2).map fun k => r.1 * placesPerLayer + r.2.1 + k
  sortKeys (homes ++ spares)

/-- The header of a record (R146). -/
def recHeader (type : Nat) (side : Nat) (clean : Bool) (part sequence snapSeq sec nC nX nH nR : Nat) : List Byte :=
  beBytes 4 0x5A44_494C ++ beBytes 1 type ++ beBytes 1 (side * 128 + b2n clean * 64) ++ beBytes 2 part ++
    beBytes 8 sequence ++ beBytes 8 snapSeq ++ beBytes 8 (sec % 2 ^ 48 * 2 ^ 16) ++ beBytes 4 nC ++ beBytes 4 nX ++
    beBytes 4 nH ++ beBytes 4 nR

/-- The 64 rows of a record place: the header in row 0, the body from row 1 on. -/
def recRows (header body : List Byte) : List (List Nat) :=
  recordRow header :: (List.range 63).map fun i => recordRow ((body.drop (4096 * i)).take 4096)

/-- An entry of the reallocation table as a record holds it: value, then complement. -/
def Dev.entryBytes (d : Dev) (i : Nat) : List Byte :=
  beBytes 8 (d.allocEntry i).1.toNat ++ beBytes 8 (d.allocEntry i).2.toNat

/-- SNAP_SEQ with no snapshot is all ones. -/
def snapField (s : SideState) : Nat := s.snapSeq.getD 0xFFFF_FFFF_FFFF_FFFF

/-- The contents of a MOUNT or COMMIT record (R146, R147). -/
def Dev.recContent (d : Dev) (x : Side) (r : LogRec) : List (List Nat) :=
  let s := d.sides[x]
  let c := keyRanges (sortKeys r.committed); let u := keyRanges (sortKeys r.consumed); let hz := keyRanges r.horizon
  recRows (recHeader r.type x.val r.clean 0 s.sequence (snapField s) d.sec c.length u.length hz.length r.realloc.length)
    (c.flatMap rangeEntry ++ u.flatMap rangeEntry ++ hz.flatMap rangeEntry ++ r.realloc.flatMap d.entryBytes)

/-- Bits of the place map in a snapshot: two for each user-data-area place (R147). -/
def SideState.mapBits (s : SideState) : List Nat :=
  (List.range 16).flatMap fun l => (List.range 162128).map fun i =>
    (sfind s.map (l * placesPerLayer + 2528 + i)).getD 0

/-- Four places a byte, the first in the highest bits. -/
def packMap (l : List Nat) : List Byte :=
  (chunks 4 (l.length / 4 + 1) l).map fun q =>
    BitVec.ofNat 8 (q.getD 0 0 * 64 + q.getD 1 0 * 16 + q.getD 2 0 * 4 + q.getD 3 0)

/-- The bodies' parts of a SNAPSHOT's stream: all entry pairs of the side, then its map. -/
def Dev.snapStream (d : Dev) (x : Side) : List (List Byte) :=
  let stream := (List.range 65536).flatMap (fun i => d.entryBytes (x.val * 65536 + i)) ++ packMap (d.sides[x]).mapBits
  (List.range 7).map fun p => (stream.drop (p * 258048)).take 258048

/-- The rows of a record. -/
def Dev.recBody (d : Dev) (x : Side) (r : LogRec) : List (List Nat) :=
  if r.type = 3 then
    let s := d.sides[x]
    recRows (recHeader 3 x.val false r.part s.sequence (snapField s) d.sec 0 0 0 0) ((d.snapStream x).getD r.part [])
  else d.recContent x r

/-- The gate opens on the next log place for a record (R145). -/
def Dev.putRecord (d : Dev) (h : Head) (x : Side) (r : LogRec) : Dev :=
  let next := d.fld (rSideLog x) 0 12
  let r := { r with index := next, failed := false, sent := false, writer := h }
  let rows := d.recBody x r
  ((d.showLog x (next + 1)).onSide x fun s => { s with recFlight := some r }).startWrite h
    { place := logPlace x next, home := none, rows, type := 1, rpl := false, kind := 0, attempts := 0 }

/-- Places that may be committed now: never a part of an atomic write (R148, R266). -/
def Dev.committable (d : Dev) (keys : List Nat) (x : Side) : List Nat :=
  let good (ks : List Nat) (k : Nat) : Bool :=
    (d.placedRows (placeOfKey x k)).all fun r => !r.atomic ||
      d.hq.rows.all fun q => q.committed || !q.atomic || !(q.writes.any r.writes.contains) ||
        match q.place with
        | some p => ks.contains (placeKey p) && p.side == x
        | none => false
  (List.range keys.length).foldl (fun ks _ => ks.filter (good ks)) keys

/-- Table entries a record may name: those of spare places that it commits, or that are committed (R148). -/
def Dev.reallocReady (d : Dev) (x : Side) (covered : List Nat) : List Nat :=
  (d.sides[x].toRealloc.filter fun i =>
    let k := placeKey (entrySpare x (d.allocEntry i).1)
    covered.contains k || d.placeState (placeOfKey x k) == 1).take 8192

/-- 75 % of the horizon's places are consumed (R149). A buffered write whose blank home place the horizon does not name, while
no home place of the horizon is left, also asks for a record (notes/assumptions/79.md). -/
def Dev.horizonUsed (d : Dev) (x : Side) : Bool :=
  let hz := d.sides[x].horizon
  let used := (hz.filter fun k => d.placeState (placeOfKey x k) != 0).length
  let homesLeft := hz.any fun k => areaOf (k % placesPerLayer) == .user && d.placeState (placeOfKey x k) == 0
  let outside := d.hq.rows.any fun r => r.home.side == x && r.place.isNone && d.placeState r.home == 0 &&
    !hz.contains (placeKey r.home)
  (!hz.isEmpty && decide (3 * hz.length ≤ 4 * used)) || (outside && !homesLeft)

/-- The COMMIT record that is due, if a trigger of R149 holds. -/
def Dev.commitDue (d : Dev) (x : Side) : Option LogRec :=
  let s := d.sides[x]
  let covered := d.committable (sortKeys s.toCommit) x
  let entries := d.reallocReady x covered
  let something := !covered.isEmpty || !entries.isEmpty
  let spaced := match s.lastRec with
    | some b => decide (b + d.fld rCommitCfg 0 16 * 800 ≤ d.beats)
    | none => true
  let waits := s.recWanted && something && (spaced || d.hq.curtain.isSome)
  let age := something && s.reached.any fun q => decide (q.2 + d.fld rCommitCfg 16 16 * 80000 ≤ d.beats)
  let clean := s.cleanWanted && !(d.hq.rows.any fun r => r.home.side == x && !r.committed)
  if clean || waits || d.horizonUsed x || age || decide (1024 ≤ s.toRealloc.length) || (d.hq.curtain.isSome && something) then
    some { type := 2, clean, index := 0, committed := covered, consumed := s.toConsume,
           realloc := entries, horizon := d.newHorizon x, part := 0, writer := 0, failed := true, sent := false }
  else none

/-- A record takes its sections: what it names is no longer pending. -/
def Dev.takeSections (d : Dev) (x : Side) (r : LogRec) : Dev :=
  let now := d.beats
  d.onSide x fun s =>
    { s with toCommit := s.toCommit.filter fun k => !r.committed.contains k,
             toConsume := s.toConsume.filter fun k => !r.consumed.contains k,
             toRealloc := s.toRealloc.filter fun i => !r.realloc.contains i,
             lastRec := if s.recWanted then some now else s.lastRec }

/-- No log place remains: every uncommitted write on the side becomes a deferred error. -/
def Dev.logFull (d : Dev) (x : Side) : Dev :=
  let rows := d.hq.rows.filter fun r => r.home.side == x && !r.committed
  ((d.setB (rSideLog x) 25 true).deferRows rows 0x31).settle

/-- A record is to be written now: one that is new or failed, or else a COMMIT that is due. -/
def Dev.recordNext (d : Dev) (x : Side) : Option LogRec :=
  match d.sides[x].recFlight with
  | some r => if r.failed && r.type != 3 then some r else none
  | none => d.commitDue x

/-- A MOUNT or COMMIT record is written to the side's log, or one that failed is written again (R145, R149). With fewer than
16 places left, the log is kept for UNLOAD and CURTAIN. -/
def Dev.commitRecord (d : Dev) (x : Side) : Dev :=
  let next := d.fld (rSideLog x) 0 12
  if !d.sides[x].mounted then d
  else match d.recordNext x with
    | none => d
    | some r =>
      if 3072 ≤ next then d.logFull x
      else if 3056 < next ∧ d.hq.curtain.isNone ∧ !d.sides[x].recWanted ∧ !r.clean then d
      else match d.logHead x (logPlace x next) with
        | none => d
        | some h =>
          let (d, ok) := d.checkPeaks h
          if ok then (d.takeSections x r).putRecord h x r else d

def execCommitRecord (x : Side) (s : State) : Host.Outcome State Fault Refusal :=
  .next { s with dev := s.dev.commitRecord x }

/-- Places of a side become committed: their rows hold data on the medium. -/
def Dev.commitPlaces (d : Dev) (x : Side) (keys : List Nat) : Dev :=
  let d := d.each keys fun d k => d.setPlace (placeOfKey x k) 1
  let covers (r : Row) : Bool := match r.place with
    | some p => p.side == x && keys.contains (placeKey p)
    | none => false
  let done := d.hq.rows.filter covers
  let d := d.each done fun d r =>
    let k := placeKey r.home; let b := BitVec.ofNat 64 (2 ^ r.ix.val)
    d.onSide x fun s =>
      { s with rows := sput s.rows k ((sfind s.rows k).getD 0 ||| b),
               lostRows := sset s.lostRows 0 k ((sfind s.lostRows k).getD 0 &&& ~~~ b) }
  let rows := d.hq.rows.map fun (r : Row) => if covers r then { r with committed := true } else r
  { d with hq.rows := rows }.sweepRows

/-- A FLUSH, FUA write or UNLOAD still waits for a record of the side. -/
def Dev.recordWanted (d : Dev) (x : Side) : Bool :=
  d.hq.cmds.any fun c =>
    (c.started && (c.op == 0x13 || c.op == 0x21) &&
      d.hq.rows.any fun r => r.home.side == x && !r.committed && decide (r.order < c.order)) ||
    (c.op == 0x11 && c.acked && c.fua &&
      d.hq.rows.any fun r => r.home.side == x && !r.committed && r.writes.contains c.order)

/-- A record has passed its verification: what it covers is committed (R148). -/
def Dev.recPassed (d : Dev) (x : Side) (r : LogRec) : Dev :=
  let d := d.commitPlaces x r.committed
  let wanted := d.recordWanted x
  d.onSide x fun s =>
    { s with recFlight := none, sequence := s.sequence + 1, recsSinceSnap := s.recsSinceSnap + 1, horizon := r.horizon,
             reached := s.reached.filter fun q => !r.committed.contains q.1, recWanted := wanted }

/-- A side is unmounted; what it has used of the calibration zones stays known while the disc does (R90, R132). -/
def Dev.unmountSide (d : Dev) (x : Side) : Dev :=
  d.onSide x fun s => { SideState.reset with takeover := s.takeover, opcUsed := s.opcUsed }

/-- A clean record of UNLOAD has passed: with every side unmounted, the host is told and the spindle target is 0 until
the next LOAD (R280). -/
def Dev.unloadSide (d : Dev) (x : Side) : Dev :=
  let d := d.unmountSide x
  if d.sides[0].mounted || d.sides[1].mounted then d
  else { d.hostEvent 4 2 0 with hq.unloaded := true }

/-- A part of a SNAPSHOT has passed: the next part follows, and with the last one the snapshot is complete (R147, R151). -/
def Dev.partPassed (d : Dev) (x : Side) (r : LogRec) : Dev :=
  d.onSide x fun s =>
    if r.part < 6 then { s with sequence := s.sequence + 1, recFlight := some { r with part := r.part + 1, failed := true, sent := false } }
    else { s with sequence := s.sequence + 1, recFlight := none, snapSeq := some (s.sequence - 6), recsSinceSnap := 0,
                  entriesSinceSnap := 0 }

/-- The verify read of the side's record in flight, finished by a head of the side. -/
def Dev.recordJob (d : Dev) (x : Side) (r : LogRec) : Option (Head × ReadJob) :=
  (headsOf x).findSome? fun h => ((d.verifyJob h).filter fun j => r.sent && j.place == logPlace x r.index).map fun j => (h, j)

/-- A record's place passes verification, or it is skipped and the record is to be written at the next one (R145, R148). -/
def Dev.recVerified (d : Dev) (x : Side) : Dev :=
  match d.sides[x].recFlight with
  | none => d
  | some r =>
    match d.recordJob x r with
    | none => d
    | some (h, j) =>
      let passed := (d.verifyFails h j).isNone
      let d := d.endRead h j (if j.failed == 0#72 then .passed 0 else .unrecovered j.failed)
      if !passed then d.onSide x fun s => { s with recFlight := some { r with failed := true, sent := false } }
      else if r.type = 3 then d.partPassed x r
      else
        let d := d.recPassed x r
        (if !r.clean then d else if d.hq.curtain.isSome then d.unmountSide x else d.unloadSide x).settle

/-- A SNAPSHOT is due (R151). It is held back where its seven places would leave fewer than 16 log places
(notes/assumptions/80.md). -/
def Dev.snapshotDue (d : Dev) (x : Side) : Bool :=
  let s := d.sides[x]
  (decide (64 ≤ s.recsSinceSnap) || decide (16384 ≤ s.entriesSinceSnap)) && s.recFlight.isNone && (d.commitDue x).isNone &&
    decide (d.fld (rSideLog x) 0 12 + 7 + 16 ≤ 3072)

/-- A SNAPSHOT of seven records, written part by part between records and with no commit pending (R147, R151). -/
def Dev.snapshot (d : Dev) (x : Side) : Dev :=
  let next := d.fld (rSideLog x) 0 12
  let r : Option LogRec := match d.sides[x].recFlight with
    | some r => if r.failed && r.type == 3 then some r else none
    | none =>
      if d.snapshotDue x then
        some { type := 3, clean := false, index := 0, committed := [], consumed := [], realloc := [], horizon := [],
               part := 0, writer := 0, failed := true, sent := false }
      else none
  match r with
  | none => d
  | some r =>
    if !d.sides[x].mounted then d
    else if 3072 ≤ next then d.logFull x
    else match d.logHead x (logPlace x next) with
      | none => d
      | some h =>
        let (d, ok) := d.checkPeaks h
        if ok then d.putRecord h x r else d

def execSnapshot (x : Side) (s : State) : Host.Outcome State Fault Refusal :=
  .next { s with dev := s.dev.snapshot x }

end Sys2Proof.Machine
end

