-- ==== Sys2Proof/Machine/Cal.lean ====
section
/-! DEFINITION. The calibration engine: windows and targets, steps at act boundaries, dither cycles, the full calibration
(09_live_calibration.md). -/

namespace Sys2Proof.Machine

abbrev rClass (c : Nat) : Nat := 0x88_0010 + 4 * c
abbrev rMeasCfg : Nat := 0x88_0040
abbrev rCalSrv : Nat := 0x88_0044

/-- The class of a spot's entry k (R233, R246). -/
def calClass (k : Nat) : Nat :=
  if k < 15 then 0 else if k < 18 then k - 14 else if k < 30 then 4 else 5

/-- The key of a coefficient among the acts of last steps. -/
def calKey (h : Head) (j : Spot) (k : Nat) : Nat := h.val * 1024 + j.val * 64 + k
def ofsKey (h : Head) (k : Nat) : Nat := h.val * 1024 + 512 + k

def Dev.calMode (d : Dev) (c : Nat) : Nat := d.fld (rClass c) 0 2

/-- Calibration runs on a head: in service, and not in GHOST_LIGHT (R244). -/
def Dev.calRuns (d : Dev) (h : Head) : Bool := d.inService h && !d.ghostLight

def Dev.onCal (d : Dev) (f : Cal → Cal) : Dev := { d with cal := f d.cal }

/-! ### Windows (R234-R236) -/

/-- round(16 LLR_K / sqrt(4 N)) within 16 to 255: twice 8 LLR_K / sqrt N is the root of 256 LLR_K² / N. -/
def llrTarget (k n : Nat) : Int :=
  let x := quot (256 * k * k : Nat) n
  clampI 16 255 (((isqrt 40 x.toNat 0 + 1) / 2 : Nat))

/-- The PHASE target, if the denominator is positive. The sums of e² over one window stand for their means. -/
def phaseTarget (cur probe : Int) (eMinus e0 ePlus : Nat) : Option Int :=
  let den : Int := (eMinus : Int) - 2 * e0 + ePlus
  if 0 < den then
    some (cur + clampI (-probe) probe (divRound (probe * ((eMinus : Int) - ePlus)) (2 * den).toNat))
  else none

/-- A target, unless its class is OFF (R239). -/
def Dev.putTarget (d : Dev) (h : Head) (j : Spot) (k : Nat) (v : Int) : Dev :=
  if d.calMode (calClass k) = 0 then d else d.setCalTgt h j k v true

/-- Targets of the shadow equaliser's taps, PHASE, NOISE and LLR from a full window (R236). -/
def Dev.windowTargets (d : Dev) (h : Head) (j : Spot) (w : CalWin) : Dev :=
  let d := d.each (List.range 15) fun d k => if k = 7 then d else d.putTarget h j k (w.shadow.getD k 0)
  let d := match phaseTarget (d.calCur h j 15) (d.fld rMeasCfg 8 4) w.eMinus w.e0 w.ePlus with
    | some v => d.putTarget h j 15 v
    | none => d
  let d := d.putTarget h j 17 (clampI 1 255 (divRound w.e0 (4 * w.bits)))
  d.putTarget h j 16 (llrTarget (d.fld rMeasCfg 24 8) (d.fld (rCalTgt h j 17) 0 16))

/-- A window that holds MIN_BITS known bits closes: the spot's targets are formed, and it restarts (R236). What it holds was
gathered under R234, frame by frame. -/
def Dev.calWindow (d : Dev) (h : Head) (j : Spot) : Dev :=
  let w := d.heads[h].spots[j].win
  if !d.calRuns h || d.engineHalted 5 || decide (w.bits < d.fld rMeasCfg 0 8 * 1024) then d
  else (d.windowTargets h j w).onSpot h j fun s => { s with win := .reset }

def execCalWindow (h : Head) (j : Spot) (s : State) : Host.Outcome State Fault Refusal :=
  .next (s.onDev fun d => d.calWindow h j)

/-! ### Edge targets (R236) -/

/-- Class and kind of each edge of a stretch of known bits whose neighbours are known too: leading or trailing, and k. -/
def knownEdges (begins : Bool) (bits : List Bool) : List (Bool × Nat) :=
  let ks := edgeKs begins 9 (onesAt bits)
  let l := ks.zipIdx.map fun q => ((q.2 % 2 == 0) == begins, q.1)
  (l.drop 1).dropLast

/-- The stretch at a position begins in a space: the 1s since bit 640 are even in number. -/
def Dev.beginsAt (d : Dev) (h : Head) (j : Spot) (q : Int) : Bool :=
  (((((d.chan h j).soft.drop 640).take (q - 640).toNat).filter fun l => hardBit l == 1).length) % 2 == 0

/-- The edges of the place just read on a spot: those of its calibration pattern and of its syncs that R234 admits. -/
def Dev.placeEdges (d : Dev) (h : Head) (j : Spot) : List (Bool × Nat) :=
  let frames := d.heads[h].spots[j].frames.filter fun q => !(q.2.erased || q.2.flywheel || q.2.ambig)
  let gap := match frames.find? fun q => q.1 == 0 with
    | some q => if d.marked h j (q.2.pos - 896) 510 then [] else
        knownEdges (d.beginsAt h j (q.2.pos - 896)) (gapBits.drop 512)
    | none => []
  gap ++ frames.flatMap fun q => if d.marked h j q.2.pos 48 then [] else
    knownEdges (d.beginsAt h j q.2.pos) (bitsOf 48 (if q.1 = 0 then sy0 else sy1))

/-- Entry k of both edge tables: with EDGE_MIN edges of its class in the read, CUR less their mean timing error. How a zero
crossing is interpolated is not stated: the error is free (notes/assumptions/69.md). They are charged to the spot of the head
that wrote the place. -/
def Dev.edgeTargets (d : Dev) (h writer : Head) : Dev :=
  if !d.calRuns h then d
  else d.each allSpots fun d j =>
    let edges := d.placeEdges h j
    d.each (List.range 24) fun d i =>
      let n := (edges.filter fun e => e.1 == decide (i < 12) && e.2 == i % 12 + 1).length
      if n < d.fld rMeasCfg 16 8 ∨ n = 0 then d
      else d.drawn.putTarget writer j (18 + i) (clampI (-32) 31 (d.calCur writer j (18 + i) - d.freshInt 8))

/-- VERIFY_READ_DONE: the read's edges form targets, and its place is judged (R135-R138, R236). -/
def execVerifyReadDone (h : Head) (s : State) : Host.Outcome State Fault Refusal :=
  .next (s.onDev fun d =>
    match (d.verifyJob h).bind fun j => d.sides[sideOf h].verifyQ.find? fun v => v.place == j.place with
    | some v => (d.edgeTargets h v.writer).verifyRead h
    | none => d)

def Dev.onDither (d : Dev) (h : Head) (x : Option Dither) : Dev :=
  d.onCal fun c => { c with dither := c.dither.set h x }

/-! ### Steps at an act boundary (R237-R239, R242, R243) -/

/-- STEP and INTERVAL do not apply: in REHEARSAL, and on a side whose mount has not completed (R243). -/
def Dev.calWhole (d : Dev) (h : Head) : Bool := d.rehearsal || !d.sides[sideOf h].mounted || d.mounting

/-- The step of a coefficient from cur toward tgt. -/
def stepToward (whole : Bool) (step : Nat) (cur tgt : Int) : Int :=
  if whole then tgt else cur + clampI (-step) step (tgt - cur)

/-- The distance of a coefficient from its target. -/
def Dev.calDist (d : Dev) (h : Head) (j : Spot) (k : Nat) : Nat :=
  (d.calCur h j k - d.sfld (rCalTgt h j k) 0 16).natAbs

/-- The entry of a group farthest beyond its threshold, the lowest on a tie (R238). -/
def Dev.calPick (d : Dev) (h : Head) (j : Spot) (ks : List Nat) : Option Nat :=
  let far (k : Nat) : Nat := d.calDist h j k - d.fld (rClass (calClass k)) 24 8
  (ks.foldl (fun (best : Option (Nat × Nat)) k =>
    match best with
    | some (_, n) => if n < far k then some (k, far k) else best
    | none => if 0 < far k then some (k, far k) else none) none).map (·.1)

/-- The cause of R242 for a spot: inside a marked span, or the head runs ladder steps 3 to 5. -/
def Dev.spotHeld (d : Dev) (h : Head) (j : Spot) : Bool :=
  (d.heads[h].spots[j].span).isSome || d.inReread h

/-- Step entry k now, or hold the step. -/
def Dev.calStep (d : Dev) (h : Head) (j : Spot) (k : Nat) : Dev :=
  let c := calClass k
  let now := d.cue.act
  let last := sfind d.cal.stepped (calKey h j k)
  let whole := d.calWhole h
  let early := match last with
    | some a => !whole && decide (now < a + d.fld (rClass c) 16 8)
    | none => false
  if early then d
  else if d.spotHeld h j then d.setF (rCalCnt h j k) 17 2 3
  else
    let v := stepToward whole (d.fld (rClass c) 8 8) (d.calCur h j k) (d.sfld (rCalTgt h j k) 0 16)
    (((d.setCalCur h j k v).bump (rCalCnt h j k) 0 16).setB (rCalCnt h j k) 17 false).onCal fun x =>
      { x with stepped := sput x.stepped (calKey h j k) now }

/-- Taps 0-6 and 8-14. -/
def eqTaps : List Nat := [0, 1, 2, 3, 4, 5, 6, 8, 9, 10, 11, 12, 13, 14]

/-- The MODE by which a class steps in an act: with EN = 0 every class is as in MEASURE (R239, R246). -/
def Dev.stepMode (d : Dev) (c : Nat) : Nat := if d.smpF rCalCtl 0 1 = 0 then min 1 (d.calMode c) else d.calMode c

/-- The entry of a group in CAL mode to be stepped: one whose step is held, or the farthest beyond its threshold (R238,
R242). -/
def Dev.calChoose (d : Dev) (h : Head) (j : Spot) (ks : List Nat) : Option Nat :=
  (ks.find? fun k => d.flag (rCalCnt h j k) 17).orElse fun _ => d.calPick h j ks

/-- The equaliser group of a spot (R238, R239): a SHARED tap is owned until it is within half of DRIFT. -/
def Dev.calEq (d : Dev) (h : Head) (j : Spot) : Dev :=
  let mode := d.stepMode 0
  if mode = 3 then
    let half := d.fld (rClass 0) 24 8 / 2
    let d := d.each eqTaps fun d k =>
      if d.flag (rCalCnt h j k) 16 ∧ d.calDist h j k ≤ half then d.setF (rCalCnt h j k) 16 2 0 else d
    match eqTaps.find? fun k => d.flag (rCalCnt h j k) 16 with
    | some k => d.calStep h j k
    | none =>
      match d.calPick h j eqTaps with
      | some k => (d.setB (rCalCnt h j k) 16 true).calStep h j k
      | none => d
  else
    let d := d.each eqTaps fun d k => d.setB (rCalCnt h j k) 16 false
    if mode = 2 then match d.calChoose h j eqTaps with | some k => d.calStep h j k | none => d
    else d.each eqTaps fun d k => d.setB (rCalCnt h j k) 17 false

/-- A group whose class is CAL. -/
def Dev.calGroup (d : Dev) (h : Head) (j : Spot) (ks : List Nat) : Dev :=
  let ks := ks.filter fun k => d.stepMode (calClass k) == 2
  match d.calChoose h j ks with
  | some k => d.calStep h j k
  | none => d

/-- All groups of a head's spots. -/
def Dev.calSpots (d : Dev) (h : Head) : Dev :=
  d.each allSpots fun d j =>
    ((((d.calEq h j).calGroup h j [15]).calGroup h j [16]).calGroup h j [17]).calGroup h j ((List.range 24).map (18 + ·))

/-! ### Dither cycles (R240) -/

/-- The loop of head offset k. -/
def ofsLoop (k : Nat) : Fin 6 := Fin.ofNat 6 k

/-- The offset in use. -/
def Dev.ofsNow (d : Dev) (h : Head) (k : Nat) : Int := d.sfld (rLoopOfs h (ofsLoop k)) 0 16

/-- Move a head offset; a move is counted. -/
def Dev.setOfs (d : Dev) (h : Head) (k : Nat) (v : Int) : Dev :=
  if d.ofsNow h k = v then d
  else (d.setPair (rLoopOfs h (ofsLoop k)) (uns 16 v)).bump (rOfsCnt h k) 0 16

/-- The new centre of a finished cycle (R240): the means of e² compared without rounding. -/
def Dev.newCentre (d : Dev) (x : Dither) : Int :=
  let st : Int := d.fld (rClass (6 + x.offset)) 8 8
  match x.ePlus, x.e0, x.eMinus with
  | some p, some z, some m =>
    let hys := d.fld rCalSrv 0 10 * z.2 * p.1 * m.1
    let plus := p.2 * m.1 * z.1 * 1024; let minus := m.2 * p.1 * z.1 * 1024
    if plus + hys < minus then x.centre + st
    else if minus + hys < plus then x.centre - st
    else x.centre
  | _, _, _ => x.centre

/-- The cycle ends at this value, and the next offset's turn comes. -/
def Dev.ditherEnd (d : Dev) (h : Head) (x : Dither) (v : Int) : Dev :=
  let d := (d.setOfs h x.offset v).onDither h none
  ((d.wr (rOfsTgt h x.offset) (BitVec.ofNat 32 (uns 16 v + 2 ^ 31))).setB (rOfsCnt h x.offset) 17 false).onCal fun c =>
    { c with turn := c.turn.set h ((x.offset + 1) % 5) }

/-- The known bits of free head time in the act just ended are the position's measurement, if there are MIN_BITS of them
(R235, R240). -/
def Dither.measure (x : Dither) (min : Nat) (m : Nat × Nat) : Dither :=
  if m.1 < min ∨ m.1 = 0 then x
  else if x.stage = 1 then { x with ePlus := some m }
  else if x.stage = 2 then { x with e0 := some m }
  else if x.stage = 3 then { x with eMinus := some m }
  else x

/-- One act of a dither cycle. -/
def Dev.ditherStep (d : Dev) (h : Head) (x : Dither) : Dev :=
  let st : Int := d.fld (rClass (6 + x.offset)) 8 8
  if d.heads[h].hold.isSome then d.setF (rOfsCnt h x.offset) 17 2 3
  else if x.stage = 5 then ((d.setOfs h x.offset x.centre).setB (rOfsCnt h x.offset) 17 false).onDither h none
  else
    let d := d.setB (rOfsCnt h x.offset) 17 false
    let go (d : Dev) (n : Nat) (v : Int) : Dev := (d.setOfs h x.offset v).onDither h (some { x with stage := n })
    if x.stage = 1 then if x.ePlus.isSome then go d 2 x.centre else d
    else if x.stage = 2 then if x.e0.isSome then go d 3 (x.centre - st) else d
    else if x.stage = 3 then if x.eMinus.isSome then go d 4 x.centre else d
    else d.ditherEnd h x (d.newCentre x)

/-- A cycle is abandoned: the offset goes back to its centre, one step per act. -/
def Dev.ditherAbandon (d : Dev) (h : Head) : Dev :=
  match d.cal.dither[h] with
  | some x => d.onDither h (some { x with stage := 5 })
  | none => d

/-- The head writes or verifies. -/
def Dev.headBusy (d : Dev) (h : Head) : Bool :=
  d.flag (rWrpStat h) 0 || d.flag (rWrpStat h) 2 || (d.heads[h].writing).isSome

/-- The offset whose turn it is: those that are not in CAL mode are passed over. -/
def Dev.ditherTurn (d : Dev) (h : Head) : Option Nat :=
  ((List.range 5).map fun i => (d.cal.turn[h] + i) % 5).find? fun k => d.stepMode (6 + k) == 2

/-- The offset of the cycle under way is no longer calibrated. -/
def Dev.ditherOff (d : Dev) (h : Head) : Bool :=
  match d.cal.dither[h] with
  | some x => d.stepMode (6 + x.offset) != 2
  | none => false

/-- A head's offsets at an act boundary. -/
def Dev.calOffsets (d : Dev) (h : Head) : Dev :=
  let d := if d.headBusy h || d.ditherOff h then d.ditherAbandon h else d
  match d.cal.dither[h] with
  | some x => d.ditherStep h (x.measure (d.fld rMeasCfg 0 8 * 1024) d.cal.meas[h])
  | none =>
    if d.headBusy h || !d.flag (rSrvStat h) 2 || !d.flag (rSrvStat h) 3 then d
    else match d.ditherTurn h with
      | none => d
      | some k =>
        if d.heads[h].hold.isSome then d.setF (rOfsCnt h k) 17 2 3
        else
          let c := d.ofsNow h k
          let now := d.cue.act
          (d.setOfs h k (c + d.fld (rClass (6 + k)) 8 8)).onDither h
            (some { offset := k, centre := c, stage := 1, start := now, ePlus := none, e0 := none, eMinus := none })

/-- A cycle that has not ended ABANDON acts after it started (R240). -/
def execDitherAbandon (h : Head) (s : State) : Host.Outcome State Fault Refusal :=
  .next (s.onDev fun d =>
    match d.cal.dither[h] with
    | some x => if x.start + d.fld rCalSrv 16 8 ≤ d.cue.act then d.ditherAbandon h else d
    | none => d)

/-- Calibration at an act boundary; the count of known bits in free head time begins again. -/
def Dev.calAct (d : Dev) : Dev :=
  let d' := if d.engineHalted 5 then d
    else d.each allHeads fun d h => if d.calRuns h then (d.calSpots h).calOffsets h else d
  d'.onCal fun c => { c with meas := Vector.replicate 4 (0, 0) }

/-- Entry into GHOST_LIGHT: pending steps are discarded, FULL_DONE is cleared (R244). -/
def Dev.calGhost (d : Dev) : Dev :=
  let d := (d.setB rCalCtl 3 false).setB rCalCtl 2 false
  d.each allHeads fun d h =>
    let d := d.onDither h none
    let d := d.each (List.range 5) fun d k => d.setB (rOfsCnt h k) 17 false
    d.each allSpots fun d j => d.each (List.range 43) fun d k => d.setB (rCalCnt h j k) 17 false

/-! ### Full calibration (R245) -/

/-- The drive part for a head in service whose lanes are locked: the entry of L0 zone 0, and offsets 0. -/
def State.drivePart (s : State) (h : Head) : State :=
  if !s.dev.inService h || s.dev.fld (rJesd h) 0 4 != 15 then s
  else
    let s := allSpots.foldl (fun (s : State) j => s.zoneLoadAt h j 0 0 .acquisition) s
    s.onDev fun d => d.each (List.range 5) fun d k => d.setOfs h k 0

/-- Start it, in REHEARSAL. -/
def State.calFull (s : State) : State :=
  if !s.dev.rehearsal then s
  else allHeads.foldl State.drivePart (s.onDev fun d => (d.setB rCalCtl 2 true).setB rCalCtl 3 false)

/-- The lanes gain sync-header lock; with all four locked the extended multiblocks are aligned to SYSREF (R94), and a
full calibration that runs begins its drive part for the head. -/
def execLaneLock (h : Head) (locked : BitVec 4) (s : State) : Host.Outcome State Fault Refusal :=
  let late := s.dev.fld (rJesd h) 0 4 != 15 && s.dev.flag rCalCtl 2 && s.dev.rehearsal
  let s := s.onDev fun d => (d.setF (rJesd h) 0 4 locked.toNat).setB (rJesd h) 9 (locked == 15)
  .next (if late then s.drivePart h else s)

def execCalFull (_m : Master) (s : State) : Host.Outcome State Fault Refusal := .next s.calFull

/-- The place of the lowest point of a sweep, the first on a tie, and its value; `skip` names points left out. -/
def lowestAt (es : List Nat) (skip : List Nat) : Option (Nat × Nat) :=
  es.zipIdx.foldl (fun (b : Option (Nat × Nat)) q =>
    if skip.contains q.2 then b
    else match b with
      | some (_, e) => if q.1 < e then some (q.2, q.1) else b
      | none => some (q.2, q.1)) none

/-- The minimum of the parabola through the three lowest points of a sweep over c + i × STEP, i = -8 to 8, as an offset from
c; none where the lowest point is an end point (R245). -/
def sweepMin (step : Nat) (es : List Nat) : Option Int :=
  match lowestAt es [] with
  | none => none
  | some (i, y1) =>
    if i = 0 ∨ 16 ≤ i then none
    else
      let (j, y2) := (lowestAt es [i]).getD (i, y1)
      let (k, y3) := (lowestAt es [i, j]).getD (i, y1)
      let x1 : Int := (i : Int) - 8; let x2 : Int := (j : Int) - 8; let x3 : Int := (k : Int) - 8
      let num := y1 * (x2 * x2 - x3 * x3) + y2 * (x3 * x3 - x1 * x1) + y3 * (x1 * x1 - x2 * x2)
      let den := 2 * (y1 * (x2 - x3) + y2 * (x3 - x1) + y3 * (x1 - x2))
      some (if den < 0 then quot (-num * step) den.natAbs else quot (num * step) den.natAbs)

/-- A head fails its full calibration: it leaves service until R181 (R245). -/
def Dev.calFailed (d : Dev) (h : Head) (step : Nat) : Dev :=
  (((d.setB (rSrvStat h) 0 false).setB rCalCtl 4 true).setF rCalCtl 5 3 h.val).setF rCalCtl 8 4 step
    |>.post 0x0146 5 h.val step 0 0

/-- The calibration of a head has succeeded, and every sweep has a minimum inside it (R245). -/
def Dev.calPassed (d : Dev) (r : CalHead) : Bool :=
  r.ok && match r.sweeps with
    | none => true
    | some l => ((l.take 5).zipIdx).all fun q => (sweepMin (d.fld (rClass (6 + q.2)) 8 8) q.1).isSome

/-- A head's full calibration ends: offsets at the minima of its sweeps and all targets in full, or the head leaves service
(R245). -/
def Dev.calHeadDone (d : Dev) (h : Head) (r : CalHead) : Dev :=
  if !d.inService h then d
  else if !d.calPassed r then d.calFailed h (if r.ok then 2 else r.failStep.val)
  else
    match r.sweeps with
    | none => d
    | some l =>
      let found := (l.take 5).zipIdx.map fun q => (sweepMin (d.fld (rClass (6 + q.2)) 8 8) q.1, q.2)
      let d := d.each found fun d q => d.setOfs h q.2 (fits 16 (d.ofsNow h q.2 + q.1.getD 0))
      d.each allSpots fun d j => d.each (List.range 18) fun d k =>
        if k = 7 then d
        else
          let t := d.sfld (rCalTgt h j k) 0 16
          if d.calCur h j k = t then d else (d.setCalCur h j k t).bump (rCalCnt h j k) 0 16

/-- Both parts have ended on every side: FULL_DONE. -/
def execCalFullDone (heads : List CalHead) (s : State) : Host.Outcome State Fault Refusal :=
  .next (s.onDev fun d =>
    if !d.flag rCalCtl 2 then d
    else ((d.each (allHeads.zip heads) fun d (q : Head × CalHead) => d.calHeadDone q.1 q.2).setB rCalCtl 2 false).setB
      rCalCtl 3 true)

/-- What a read of an entry's CUR shows: the value, with its complement for PEAK and head offsets (R246). -/
def Dev.calCurView (d : Dev) (off : Nat) : Option W32 :=
  let h : Head := Fin.ofNat 4 ((off - 0x80_0000) / 0x1_0000)
  let r := off % 0x1_0000
  if off < 0x80_0000 ∨ 0x84_0000 ≤ off ∨ r % 16 ≠ 0 then none
  else if r < 0x8000 then
    if 43 ≤ r % 0x1000 / 16 then none
    else
      let k := r % 0x1000 / 16
      let v := uns 16 (d.calCur h (Fin.ofNat 8 (r / 0x1000)) k)
      some (BitVec.ofNat 32 (v + if k = 42 then compl 16 v * 2 ^ 16 else 0))
  else if r < 0x8050 then some (d.rd (rLoopOfs h (ofsLoop (r % 0x1000 / 16))))
  else none

/-- What a read of a CNT shows: a coefficient of a class in CAL mode is always owned (R239). -/
def Dev.calCntView (d : Dev) (off : Nat) : W32 :=
  let r := off % 0x1_0000
  let c := if r < 0x8000 then calClass (r % 0x1000 / 16) else 6 + r % 0x1000 / 16
  if d.flag rCalCtl 0 ∧ d.calMode c = 2 ∧ r % 0x1000 / 16 < 42 then fset (d.rd off) 16 1 1 else d.rd off

end Sys2Proof.Machine
end

