-- ==== Sys2Proof/Machine/Mount.lean ====
section
/-! DEFINITION. Mounting a disc: the log is searched, its records are read back, and the place map and the reallocation
table are rebuilt from them (R145-R147, R152). -/

namespace Sys2Proof.Machine

/-! ### Records as they are read (R146, R147) -/

/-- A record of the log as a mount has read it. -/
structure LogRead where
  type : Nat
  clean : Bool
  part : Nat
  sequence : Nat
  snapSeq : Option Nat
  committed : List Nat
  consumed : List Nat
  horizon : List Nat
  realloc : List (BitVec 64 × BitVec 64)
  /-- The body of a SNAPSHOT part. -/
  body : List Byte
  deriving DecidableEq, Repr

/-- The DATA of rows 1 to 63, joined; none where a row was not accepted. -/
def Found.body (f : Found) : Option (List Byte) :=
  (List.range 63).foldr (fun i acc => match sfind f.rows (i + 1), acc with
    | some r, some bs => some (r.take 4096 ++ bs)
    | _, _ => none) (some [])

/-- The places that a range entry names. -/
def rangeKeys (bs : List Byte) : List Nat :=
  let v := beNat bs
  (List.range (v / 2 ^ 24 % 2 ^ 18)).map fun k => v / 2 ^ 60 % 16 * placesPerLayer + v / 2 ^ 42 % 2 ^ 18 + k

/-- n range entries. -/
def rangesKeys (n : Nat) (bs : List Byte) : List Nat := (chunks 8 n (bs.take (8 * n))).flatMap rangeKeys

/-- n pairs of table entry and complement. -/
def entryPairs (n : Nat) (bs : List Byte) : List (BitVec 64 × BitVec 64) :=
  (chunks 16 n (bs.take (16 * n))).map fun b => (BitVec.ofNat 64 (beNat (b.take 8)), BitVec.ofNat 64 (beNat (b.drop 8)))

/-- A record of a side, where a place that has been read decodes to one. -/
def recordOf (x : Side) (f : Found) : Option LogRead :=
  match sfind f.rows 0, f.body with
  | some h, some body =>
    let n (o k : Nat) : Nat := beNat ((h.drop o).take k)
    if n 0 4 ≠ 0x5A44_494C ∨ n 5 1 / 128 ≠ x.val ∨ n 4 1 = 0 ∨ 3 < n 4 1 then none
    else
      let c := n 32 4; let u := n 36 4; let z := n 40 4
      some { type := n 4 1, clean := n 5 1 / 64 % 2 == 1, part := n 6 2, sequence := n 8 8,
             snapSeq := if n 16 8 = 0xFFFF_FFFF_FFFF_FFFF then none else some (n 16 8),
             committed := rangesKeys c body, consumed := rangesKeys u (body.drop (8 * c)),
             horizon := rangesKeys z (body.drop (8 * (c + u))), realloc := entryPairs (n 44 4) (body.drop (8 * (c + u + z))),
             body }
  | _, _ => none

/-- What a mount has read of log place k: the outer none where it has still to be read. -/
def Dev.logAt (d : Dev) (x : Side) (k : Nat) : Option (Option LogRead) := (d.foundAt (logPlace x k)).map (recordOf x)

/-- Log place k is blank. -/
def Dev.logBlank (d : Dev) (x : Side) (k : Nat) : Option Bool := (d.foundAt (logPlace x k)).map fun f => f.how == .blank

/-! ### Step 1: the end of the log (R152) -/

/-- Binary search over blank places: how many log places have been written, or the place to be read next. -/
def logSearch (blank : Nat → Option Bool) : Nat → Nat → Nat → Except Nat Nat
  | 0, lo, _ => .ok lo
  | n + 1, lo, hi =>
    if hi ≤ lo then .ok lo
    else match blank ((lo + hi) / 2) with
      | none => .error ((lo + hi) / 2)
      | some true => logSearch blank n lo ((lo + hi) / 2)
      | some false => logSearch blank n ((lo + hi) / 2 + 1) hi

/-- Walk back from place n - 1 to the last record that decodes. -/
def lastRecord (look : Nat → Option (Option LogRead)) : Nat → Except Nat (Option (Nat × LogRead))
  | 0 => .ok none
  | n + 1 => match look n with
    | none => .error n
    | some none => lastRecord look n
    | some (some r) => .ok (some (n, r))

/-! ### Step 2: the snapshot and the records after it (R147, R152) -/

/-- The records from the one with a SEQUENCE on, in the order of the log; a record written twice counts once. -/
def recordsBack (look : Nat → Option (Option LogRead)) (stop : Option Nat) :
    Nat → List LogRead → Except Nat (List LogRead)
  | 0, acc => .ok acc
  | n + 1, acc => match look n with
    | none => .error n
    | some none => recordsBack look stop n acc
    | some (some r) =>
      let acc := if (acc.head?.map LogRead.sequence) == some r.sequence then acc else r :: acc
      if stop == some r.sequence then .ok acc else recordsBack look stop n acc

/-- The two bits of place i of a snapshot's map. -/
def mapCode (bs : List Byte) (i : Nat) : Nat := (bs.getD (i / 4) 0).toNat / 4 ^ (3 - i % 4) % 4

/-- The place map of a snapshot. -/
def snapMap (bs : List Byte) : List (Nat × Nat) :=
  (List.range 16).flatMap fun l => (List.range 162128).filterMap fun i =>
    match mapCode bs (l * 162128 + i) with
    | 0 => none
    | v => some (l * placesPerLayer + 2528 + i, v)

/-- What the records of a side add up to. -/
structure MountFind where
  sequence : Nat
  snapSeq : Option Nat
  logNext : Nat
  entries : List (BitVec 64 × BitVec 64)
  map : List (Nat × Nat)
  clean : Bool
  horizon : List Nat
  /-- MOUNT and COMMIT records, and table entries, since the snapshot. -/
  records : Nat
  added : Nat
  deriving DecidableEq, Repr

/-- Set places to a code; a committed place stays committed (R147). -/
def markPlaces (m : List (Nat × Nat)) (ks : List Nat) (v : Nat) : List (Nat × Nat) :=
  ks.foldl (fun m k => if v = 2 ∧ sfind m k = some 1 then m else sput m k v) m

/-- The latest snapshot and the sections of every record after it. -/
def joinRecords (x : Side) (last : LogRead) (logNext : Nat) (rs : List LogRead) : MountFind :=
  let parts := if last.snapSeq.isSome then rs.take 7 else []
  let after := (rs.drop parts.length).filter fun r => r.type == 1 || r.type == 2
  let stream := parts.flatMap LogRead.body
  let old := (entryPairs 65536 stream).filter fun e => e.1.getLsbD 63
  let old := if parts.isEmpty then [] else old
  let base := if parts.isEmpty then [] else snapMap (stream.drop (65536 * 16))
  let map := markPlaces base (old.map fun e => placeKey (entrySpare x e.1)) 1
  let map := after.foldl (fun m r => markPlaces (markPlaces m r.consumed 2) r.committed 1) map
  let mc := after.getLast?
  { sequence := last.sequence + 1, snapSeq := last.snapSeq, logNext, entries := old ++ after.flatMap LogRead.realloc, map,
    clean := (mc.map LogRead.clean).getD true, horizon := (mc.map LogRead.horizon).getD [],
    records := after.length, added := (after.flatMap LogRead.realloc).length }

/-- Steps 1 and 2 of a mount: what the side's log holds, or the log place to be read next. -/
def Dev.mountLog (d : Dev) (x : Side) : Except Nat MountFind := do
  let n ← logSearch (d.logBlank x) 13 0 3072
  let last ← lastRecord (d.logAt x) n
  match last with
  | none =>
    pure { sequence := 0, snapSeq := none, logNext := n, entries := [], map := [], clean := true, horizon := [], records := 0,
           added := 0 }
  | some (k, r) =>
    let rs ← recordsBack (d.logAt x) r.snapSeq (k + 1) []
    pure (joinRecords x r n rs)

/-! ### Step 3: the horizon (R152) -/

/-- Horizon places that are neither blank nor committed, or the place to be read next. -/
def Dev.horizonFound (d : Dev) (x : Side) (f : MountFind) : List Nat → Except Place (List Nat)
  | [] => .ok []
  | k :: ks =>
    if sfind f.map k = some 1 then d.horizonFound x f ks
    else match d.foundAt (placeOfKey x k) with
      | none => .error (placeOfKey x k)
      | some g => (d.horizonFound x f ks).map fun l => if g.how = .blank then l else k :: l

/-- Steps 1 to 3 of a mount: what the side holds and the places found consumed, or the place to be read next. -/
def Dev.mountScan (d : Dev) (x : Side) : Except Place (MountFind × List Nat) :=
  match d.mountLog x with
  | .error k => .error (logPlace x k)
  | .ok f => (if f.clean then .ok [] else d.horizonFound x f f.horizon).map fun l => (f, l)

/-! ### The side's tables, and step 4 -/

/-- The next place after the highest of a list of keys in a range of RB numbers on a layer. -/
def nextAfter (ks : List Nat) (layer lo hi : Nat) : Nat :=
  ks.foldl (fun n k =>
    let rb := k % placesPerLayer
    if k / placesPerLayer = layer ∧ lo ≤ rb ∧ rb < hi then max n (rb + 1) else n) lo

/-- The side's tables after a mount's first three steps. -/
def mountTables (s : SideState) (f : MountFind) (found : List Nat) (discId : BitVec 64) : SideState :=
  let map := markPlaces f.map found 2
  let used := map.map (·.1)
  { SideState.reset with
    mounted := true, takeover := s.takeover, map, opcUsed := s.opcUsed,
    spareNext := (List.range 16).foldl (fun l k =>
      sput (sput l (2 * k) (nextAfter used k 448 2528)) (2 * k + 1) (nextAfter used k 164656 166736)) [],
    sequence := f.sequence, snapSeq := f.snapSeq, toConsume := found, recsSinceSnap := f.records, entriesSinceSnap := f.added,
    discId }

/-- How much of a calibration zone a disc has used where the part has not counted it itself: no rule says how a mount finds
out, so it is free (notes/assumptions/59.md). -/
def Dev.guessZone (d : Dev) (x : Side) (k : Nat) : Dev :=
  if (sfind d.sides[x].opcUsed k).isSome then d
  else
    let n := d.fresh % 257
    d.drawn.onSide x fun s => { s with opcUsed := sput s.opcUsed k n }

/-- A side is mounted: its tables, its part of the reallocation table, and the MOUNT record that is to be written (R152). The
place of DISC_ID in the disc-information area is not stated; its value is free. -/
def Dev.mountSide (d : Dev) (x : Side) (f : MountFind) (found : List Nat) : Dev :=
  let base := x.val * 65536
  let kept := d.alloc.filter fun e => e.1 / 65536 != x.val
  let alloc := f.entries.zipIdx.foldl (fun l (e : (BitVec 64 × BitVec 64) × Nat) => sput l (base + e.2) e.1) kept
  let id := BitVec.ofNat 64 d.fresh
  let d := { d.drawn with alloc }
  let d := d.onSide x fun s => mountTables s f found id
  let d := d.each (List.range 32) fun d k => d.guessZone x k
  let d := ((d.setF (rSideSpare x) 0 17 f.entries.length).showSpares x).setB (rSideLog x) 26 f.clean
  let d := d.each (headsOf x) fun d h => d.each allSpots fun d j => d.onSpot h j fun s => { s with opc := [] }
  let d := d.showLog x f.logNext
  if 3072 ≤ f.logNext then d
  else
    let r : LogRec := { type := 1, clean := false, index := f.logNext, committed := [], consumed := found, realloc := [],
                        horizon := d.newHorizon x, part := 0, writer := 0, failed := true, sent := false }
    d.onSide x fun s => { s with recFlight := some r }

/-- A side that LOAD is to mount goes as far as what has been read of it allows; the reads of its first step are the disc part
of a full calibration of its heads (R245). -/
def Dev.mountOn (d : Dev) (x : Side) (cal : List CalHead) : Dev :=
  if d.sideDown x || d.sides[x].mounted then d
  else match d.mountScan x with
    | .error _ => d
    | .ok (f, found) =>
      (d.mountSide x f found).each ((allHeads.zip cal).filter fun q => sideOf q.1 == x) fun d q => d.calHeadDone q.1 q.2

/-- LOAD (R280): each side that a head serves is mounted, both in parallel; it goes on as places are read, and ends once
every MOUNT record has passed. With no head left on either side it ends with NOT_READY (R180). -/
def Dev.load (d : Dev) (c : Cmd) (cal : List CalHead) : Dev :=
  if !d.mayRun c then d
  else if !c.started ∧ !d.hq.disc then d.complete c 0x41
  else if !c.started ∧ (d.sides[0].mounted || d.sides[1].mounted) then d.complete c 0
  else if allSides.all d.sideDown then d.complete c 0x40
  else
    let d := { d.setCmd { c with started := true } with hq.unloaded := false }
    d.each allSides fun d x => d.mountOn x cal

def execLoad (src : CmdSrc) (tag : BitVec 16) (cal : List CalHead) (s : State) : Host.Outcome State Fault Refusal :=
  .next (s.onDev fun d => (match d.cmdOf src tag 0x20 with
    | some c => d.load c cal
    | none => d).settle)

end Sys2Proof.Machine
end

