-- ==== Sys2Proof/Machine/HqAdmin.lean ====
section
/-! DEFINITION. The other host commands: FLUSH, UNLOAD, IDENTIFY, GET_LOG, features, budgets, firmware, queue reset,
curtain, hot reset (10_host_queueing.md; R384-R387, R413, R414). -/

namespace Sys2Proof.Machine

abbrev rSpnCtl : Nat := 0x60_0004
abbrev rSpnQuiet : Nat := 0x60_001C

/-- A master with this writer code writes a staged register: its shadow, until the act boundary (R11). -/
def Dev.stageBy (d : Dev) (writer a : Nat) (v : W32) : Dev :=
  { d with shadows := sput d.shadows a v, stagers := sput d.stagers a writer }

/-- The command admitter writes a staged register. -/
def Dev.stage (d : Dev) (a : Nat) (v : W32) : Dev := d.stageBy (writerCode .admitter) a v

/-- Write a field of a staged register. -/
def Dev.stageF (d : Dev) (a lo w x : Nat) : Dev := d.stage a (fset (d.shadow a) lo w x)

/-- A field of what a staged register reads back. -/
def Dev.shadowF (d : Dev) (a lo w : Nat) : Nat := fget (d.shadow a) lo w

/-- Do a command that is outstanding and has not started. -/
def Dev.forCmd (d : Dev) (src : CmdSrc) (tag : BitVec 16) (op : Nat) (f : Dev → Cmd → Dev) : Dev :=
  match d.cmdOf src tag op with
  | some c => if c.started then d else f d c
  | none => d

/-- A command has started. -/
def Dev.startCmd (d : Dev) (c : Cmd) : Dev := d.setCmd { c with started := true }

/-- Do a command that is outstanding, whether or not it has started. -/
def Dev.onCmd (d : Dev) (src : CmdSrc) (tag : BitVec 16) (op : Nat) (f : Dev → Cmd → Dev) : Dev :=
  match d.cmdOf src tag op with
  | some c => f d c
  | none => d

/-- Ask every mounted side with uncommitted rows for a record. -/
def Dev.askRecords (d : Dev) : Dev :=
  d.each allSides fun d x =>
    let waits := d.hq.rows.any fun r => r.home.side == x && !r.committed
    d.onSide x fun s => { s with recWanted := s.recWanted || (s.mounted && waits) }

/-! ### FLUSH, LOAD, UNLOAD (R275, R280, R152) -/

def execFlush (src : CmdSrc) (tag : BitVec 16) (s : State) : Host.Outcome State Fault Refusal :=
  .next (s.onDev fun d => d.forCmd src tag 0x13 fun d c =>
    if d.mayRun c then ((d.startCmd c).askRecords).settle else d)

/-- UNLOAD (R280): commits and clean records follow; with no side mounted the spindle target is 0 at once. -/
def Dev.unload (d : Dev) (c : Cmd) : Dev :=
  if !d.mayRun c then d
  else
    let d := (d.startCmd c).askRecords
    let d := d.each allSides fun d x => d.onSide x fun s => { s with cleanWanted := s.mounted }
    if d.sides[0].mounted || d.sides[1].mounted then d else { d with hq.unloaded := true }

def execUnload (src : CmdSrc) (tag : BitVec 16) (s : State) : Host.Outcome State Fault Refusal :=
  .next (s.onDev fun d => (d.forCmd src tag 0x21 Dev.unload).settle)

/-! ### IDENTIFY (R413, R414) -/

/-- Deliver a structure to a command's data pointer, as far as it has room, within the outbound budget of each act (R37,
R50). -/
def Dev.deliverTo (d : Dev) (c : Cmd) (bytes : List Byte) : Dev :=
  let n := if c.direct then min (pDlen c.slot) bytes.length else bytes.length
  let (d, moved) := d.moveOut c 4 (bytes.take n)
  if !moved then d else if n < bytes.length then d.complete c 0x25 else d.complete c 0

/-- Zeros up to n bytes. -/
def padTo (n : Nat) (bs : List Byte) : List Byte := (bs ++ List.replicate (n - bs.length) 0).take n

/-- The identity in force. -/
def Dev.identity (d : Dev) : List Byte := d.cfg.identity.getD defaultIdentity

/-- IDENTIFY device. -/
def Dev.identifyBytes (d : Dev) : List Byte :=
  let id := d.identity
  let part (o n : Nat) : List Byte := (id.drop o).take n
  padTo 4096 (part 0 8 ++ part 16 8 ++ part 48 40 ++ part 88 8 ++ leBytes 8 (d.rd64 rImageBuildLo) ++ leBytes 4 0xA1 ++
    leBytes 1 (d.fld 0x14 0 2) ++ leBytes 1 d.bootedSlot ++ leBytes 1 d.mode ++ leBytes 1 0 ++ leBytes 2 16 ++
    leBytes 2 4096 ++ leBytes 2 8192 ++ leBytes 2 1024 ++ leBytes 4 2048 ++ leBytes 4 1048576 ++ leBytes 4 4096 ++
    leBytes 2 64 ++ leBytes 2 32 ++ leBytes 2 (d.installedBytes / 2 ^ 30) ++ leBytes 2 (d.mappedBytes / 2 ^ 30) ++
    leBytes 2 d.deviceId ++ leBytes 1 d.role ++ leBytes 1 0 ++ leBytes 2 d.managerId ++ part 24 6 ++ part 32 6)

def execIdentifyDevice (src : CmdSrc) (tag : BitVec 16) (s : State) : Host.Outcome State Fault Refusal :=
  .next (s.onDev fun d => (d.onCmd src tag 0x30 fun d c =>
    if pCdw0 c.slot = 0 then d.deliverTo c d.identifyBytes else d).settle)

/-- The highest consumed place of a namespace, as an LBA of it: the append point follows it (R152). -/
def Dev.appendPoint (d : Dev) (n : Nat) : Nat :=
  let x := d.nsSide n
  let first := d.nsFirst n
  d.sides[x].map.foldl (fun a e =>
    let p := placeOfKey x e.1
    let m := x.val * 166019072 + p.layer.val * 10376192 + (p.rb.val - 2528) * 64
    if areaOf p.rb = .user ∧ first ≤ m + 63 ∧ m < first + d.nsCount n then max a (m + 64 - first) else a) 0

/-- IDENTIFY namespace: none where the NSID names nothing. -/
def State.nsBytes (s : State) (n : Nat) : State × Option (List Byte) :=
  let d := s.dev
  let make (flags count first app : Nat) : List Byte :=
    padTo 4096 (leBytes 2 n ++ leBytes 2 flags ++ leBytes 4 0 ++ leBytes 8 count ++ leBytes 8 first ++ leBytes 8 app)
  if d.nsOn n then
    (s, some (make (1 + 2 * b2n (d.nsReplace n) + 4 * (d.nsSide n).val + 16 * b2n (d.ens.memberNs.contains n))
      (d.nsCount n) (d.nsFirst n) (d.appendPoint n)))
  else if 0x100 ≤ n ∧ n ≤ 0xFFFE then
    let (s, ns) := s.ensNs n
    (s, ns.map fun q => make (1 + 8) q.1 0 0)
  else (s, none)

def execIdentifyNamespace (src : CmdSrc) (tag : BitVec 16) (s : State) : Host.Outcome State Fault Refusal :=
  .next (match s.dev.cmdOf src tag 0x30 with
    | none => s
    | some c =>
      if pCdw0 c.slot ≠ 1 then s
      else
        let (s, b) := s.nsBytes c.nsid
        s.onDev fun d => (match b with
          | some bs => d.deliverTo c bs
          | none => d.complete c 0x21 (res := 6)).settle)

/-! ### GET_LOG (R258) -/

/-- A page's bytes from CDW1 on, DLEN of them, within the outbound budget of each act (R37, R50, R258). -/
def Dev.deliverPage (d : Dev) (c : Cmd) (page : Nat) (bytes : List Byte) : Dev :=
  if pCdw0 c.slot ≠ page then d
  else
    let (d, moved) := d.moveBy c 4 (padTo (pDlen c.slot) (bytes.drop (pCdw1 c.slot))) fun d skip bs =>
      d.emit (.hostWrite (pDptr c.slot + skip) bs)
    if moved then d.complete c 0 else d

/-- One deferred error in page 0x01. -/
def Defer.bytes (e : Defer) : List Byte :=
  let (ring, peer, id) := match e.src with
    | .ring r => (r.val, false, 0)
    | .peer i => (0, true, i.val)
  padTo 32 (leBytes 4 e.seq ++ leBytes 1 ring ++ leBytes 1 (b2n e.reported + 2 * b2n e.overflow + 4 * b2n peer) ++
    leBytes 1 e.status ++ leBytes 1 0 ++ leBytes 2 e.nsid ++ leBytes 2 id ++ leBytes 4 e.count ++ leBytes 8 e.lba ++
    leBytes 8 (e.timeSec % 2 ^ 48))

def execGetLogDeferred (src : CmdSrc) (tag : BitVec 16) (s : State) : Host.Outcome State Fault Refusal :=
  .next (s.onDev fun d => (d.onCmd src tag 0x31 fun d c =>
    d.deliverPage c 1 (d.hq.deferLog.flatMap Defer.bytes)).settle)

/-- A call-board entry's 64 bytes (R367). -/
def Entry.bytes (e : Entry) : List Byte :=
  leBytes 4 e.seq ++ leBytes 2 e.code ++ leBytes 1 e.source ++
    leBytes 1 (b2n e.fatal + 2 * b2n e.merged + 4 * b2n e.inGl) ++ leBytes 8 e.act ++ leBytes 2 e.pos ++
    leBytes 2 e.count ++ leBytes 4 e.timeNs ++ leBytes 8 (e.timeSec % 2 ^ 48) ++ leBytes 8 e.d0 ++ leBytes 8 e.d1 ++
    leBytes 8 e.d2 ++ leBytes 8 e.d3

def execGetLogCallBoard (src : CmdSrc) (tag : BitVec 16) (s : State) : Host.Outcome State Fault Refusal :=
  .next (s.onDev fun d => (d.onCmd src tag 0x31 fun d c =>
    d.deliverPage c 2 (d.flt.board.flatMap Entry.bytes)).settle)

/-- The newest discard record, or 64 bytes of 0. -/
def discardPage (m : List Host.Cell) : List Byte :=
  match discardRegion.newest m with
  | none => List.replicate 64 0
  | some i =>
    let a := discardRegion.addr i
    flashBytes m a (64 + 16 * (leNat (flashBytes m (a + 6) 2)))

def execGetLogDiscard (src : CmdSrc) (tag : BitVec 16) (s : State) : Host.Outcome State Fault Refusal :=
  .next (s.onDev fun d => (d.onCmd src tag 0x31 fun d c => d.deliverPage c 3 (discardPage s.mem.flash)).settle)

/-- Spare places left on a side. -/
def SideState.spareCount (s : SideState) : Nat :=
  ((List.range 16).map fun l => (2528 - (sfind s.spareNext (2 * l)).getD 448) +
    (166736 - (sfind s.spareNext (2 * l + 1)).getD 164656)).sum

def popcount64 (b : BitVec 64) : Nat := ((List.range 64).filter fun i => b.getLsbD i).length

/-- One side's record of page 0x04. -/
def Dev.sideBytes (d : Dev) (x : Side) : List Byte :=
  let s := d.sides[x]
  if !s.mounted then padTo 64 (leBytes 1 x.val)
  else
    let count (v : Nat) : Nat := (s.map.filter fun e => e.2 == v && areaOf (e.1 % placesPerLayer) == .user).length
    padTo 64 (leBytes 1 x.val ++ leBytes 1 (1 + 2 * b2n (d.flag (rSideLog x) 24) + 4 * b2n (d.flag (rSideLog x) 25) +
        8 * b2n (d.flag (rSideSpare x) 31)) ++ leBytes 2 0 ++ leBytes 4 (66560 - s.spareCount) ++
      leBytes 4 s.spareCount ++ leBytes 4 (d.fld (rSideSpare x) 0 17) ++ leBytes 4 (d.fld (rSideLog x) 12 12) ++
      leBytes 4 (count 1) ++ leBytes 4 (count 2) ++ leBytes 4 0 ++ leBytes 8 (s.rows.map fun r => popcount64 r.2).sum)

def execGetLogSides (src : CmdSrc) (tag : BitVec 16) (s : State) : Host.Outcome State Fault Refusal :=
  .next (s.onDev fun d => (d.onCmd src tag 0x31 fun d c =>
    d.deliverPage c 4 (d.sideBytes 0 ++ d.sideBytes 1)).settle)

/-! ### Features and budgets (R257, R270) -/

/-- Serve a SET_FEATURE or GET_FEATURE of one feature. -/
def Dev.feature (d : Dev) (src : CmdSrc) (tag : BitVec 16) (op code : Nat) (f : Dev → Cmd → Dev) : Dev :=
  (d.forCmd src tag op fun d c => if pCdw0 c.slot % 2 ^ 16 = code then f d c else d).settle

def execSetQuietCeiling (src : CmdSrc) (tag : BitVec 16) (s : State) : Host.Outcome State Fault Refusal :=
  .next (s.onDev fun d => d.feature src tag 0x32 1 fun d c =>
    (d.stage rSpnQuiet (BitVec.ofNat 32 (pCdw1 c.slot))).complete c 0)

def execSetNamespace (src : CmdSrc) (tag : BitVec 16) (s : State) : Host.Outcome State Fault Refusal :=
  .next (s.onDev fun d => d.feature src tag 0x32 2 fun d c =>
    let a := rNs (pCdw0 c.slot / 2 ^ 16)
    ((((d.stage a (BitVec.ofNat 32 c.lba)).stage (a + 4) (BitVec.ofNat 32 (c.lba / 2 ^ 32))).stage (a + 8)
      (BitVec.ofNat 32 c.len)).stageF (a + 0x0C) 0 2 (pCdw1 c.slot)).complete c 0)

def execSetSideVerify (src : CmdSrc) (tag : BitVec 16) (s : State) : Host.Outcome State Fault Refusal :=
  .next (s.onDev fun d => d.feature src tag 0x32 3 fun d c =>
    ((d.stageF (rSideCfg 0) 0 1 (pCdw1 c.slot)).stageF (rSideCfg 1) 0 1 (pCdw1 c.slot / 2)).complete c 0)

def execSetEventRing (src : CmdSrc) (tag : BitVec 16) (s : State) : Host.Outcome State Fault Refusal :=
  .next (s.onDev fun d => d.feature src tag 0x32 4 fun d c =>
    (d.setF rHqCtl 0 4 (pCdw1 c.slot)).complete c 0)

def execSetXrdyTimeout (src : CmdSrc) (tag : BitVec 16) (s : State) : Host.Outcome State Fault Refusal :=
  .next (s.onDev fun d => d.feature src tag 0x32 5 fun d c =>
    (d.stageF rXrdy 4 16 (pCdw1 c.slot)).complete c 0)

def execGetQuietCeiling (src : CmdSrc) (tag : BitVec 16) (s : State) : Host.Outcome State Fault Refusal :=
  .next (s.onDev fun d => d.feature src tag 0x33 1 fun d c =>
    d.complete c 0 (info := (d.shadow rSpnQuiet).toNat))

def execGetNamespace (src : CmdSrc) (tag : BitVec 16) (s : State) : Host.Outcome State Fault Refusal :=
  .next (s.onDev fun d => d.feature src tag 0x33 2 fun d c =>
    let n := pCdw0 c.slot / 2 ^ 16
    let a := rNs n
    d.complete c 0 (info := (d.shadow a).toNat + (d.shadow (a + 8)).toNat * 2 ^ 32)
      (aux := d.shadowF (a + 0x0C) 0 2 + 4 * (d.nsSide n).val))

def execGetSideVerify (src : CmdSrc) (tag : BitVec 16) (s : State) : Host.Outcome State Fault Refusal :=
  .next (s.onDev fun d => d.feature src tag 0x33 3 fun d c =>
    d.complete c 0 (info := d.shadowF (rSideCfg 0) 0 1 + 2 * d.shadowF (rSideCfg 1) 0 1))

def execGetEventRing (src : CmdSrc) (tag : BitVec 16) (s : State) : Host.Outcome State Fault Refusal :=
  .next (s.onDev fun d => d.feature src tag 0x33 4 fun d c => d.complete c 0 (info := d.fld rHqCtl 0 4))

def execGetXrdyTimeout (src : CmdSrc) (tag : BitVec 16) (s : State) : Host.Outcome State Fault Refusal :=
  .next (s.onDev fun d => d.feature src tag 0x33 5 fun d c => d.complete c 0 (info := d.shadowF rXrdy 4 16))

def execSetBudget (src : CmdSrc) (tag : BitVec 16) (s : State) : Host.Outcome State Fault Refusal :=
  .next (s.onDev fun d => (d.forCmd src tag 0x34 fun d c =>
    ((d.setF (rStream (pCdw0 c.slot)) 0 21 (pCdw1 c.slot)).resample (rStream (pCdw0 c.slot))).complete c 0).settle)

/-! ### Firmware (R277, R278) -/

/-- The types the heads last reported, 0 for an absent or failed one (R61, R423). -/
def Dev.headTypes (d : Dev) : List Nat :=
  allHeads.map fun h => if d.flag (rHeadLines h) 16 then d.fld (rHeadLines h) 8 8 else 0

/-- FW_STAGE begins: at offset 0 the slot is erased; then offers follow. -/
def execFwStage (src : CmdSrc) (tag : BitVec 16) (s : State) : Host.Outcome State Fault Refusal :=
  .next (match s.dev.cmdOf src tag 0x40 with
    | none => s
    | some c =>
      if c.ready then s
      else
        let s := s.onDev fun d => d.setCmd { c with ready := true, started := true }
        if c.lba = 0 then
          s.onMem fun m => { m with flash := flashEraseRange m.flash (slotBase (pCdw0 c.slot % 2)) 0x180_0000 }
        else s)

/-- A unit of a firmware stage has been programmed and read back, or not (R277). -/
def State.stageUnit (s : State) (order unit : Nat) (ok : Bool) : State :=
  match s.dev.hq.cmds.find? fun c => c.order == order && c.op == 0x40 with
  | none => s
  | some c =>
    if !ok then s.onDev fun d => (d.complete c 0x31).settle
    else
      let data := match sfind c.got unit with | some r => r.data | none => []
      let a := slotBase (pCdw0 c.slot % 2) + 4096 * (c.lba + unit)
      let s := s.onMem fun m => { m with flash := flashProgramBytes m.flash a data }
      let c := { c with units := c.units + 1, got := sdel c.got unit }
      s.onDev fun d => (if c.units = c.len then d.complete c 0 (done := c.len) else d.setCmd c).settle

/-- The quiet ceiling or HOLD_STOP holds the spindle stopped (R196). -/
def Dev.spindleHeld (d : Dev) : Bool := d.smpF rSpnCtl 1 1 == 1 || d.fld rSpnQuiet 0 16 == 0

/-- FW_ACTIVATE (R278): checks, then quiescence. -/
def execFwActivate (src : CmdSrc) (tag : BitVec 16) (s : State) : Host.Outcome State Fault Refusal :=
  .next (s.onDev fun d => d.forCmd src tag 0x41 fun d c =>
    if d.hq.activate.isSome || d.cfg.busy.isSome || !d.cfg.waiting.isEmpty then d
    else
      let slot := pCdw0 c.slot % 2
      let d := d.raise 33 6 slot 0 0 0
      let bad (d : Dev) (check : Nat) : Dev :=
        ((d.post 0x0151 0x13 slot check d.bootedSlot 0).complete c 0x21).settle
      match headerCheck s.mem.flash slot with
      | some k => bad d k
      | none =>
        match sectionOfType s.mem.flash slot 2 with
        | none => bad d 3
        | some sec =>
          let bs := sectionBytes s.mem.flash slot sec
          if sec.crc ≠ crc64 bs then bad d 7
          else match cueImageCheck bs d.headTypes (d.installedBytes / 2 ^ 30) with
          | some k => bad d k
          | none =>
            let img := cueImageOf bs
            if img.stateLayout ≠ d.image.stateLayout then bad d 0
            else if d.spindleHeld && d.uncommitted then (d.complete c 0x40).settle
            else
              let d := { (d.startCmd c).askRecords with cue.banks := d.cue.banks.set d.otherBank img,
                                                        hq.activate := some c.order }
              (d.setB rHqCtl 8 true).settle)

/-! ### Queue reset (R276) -/

/-- Reset the commands of a ring. READ, VERIFY and WRITE end unless acknowledged; others end unless started. -/
def Dev.resetRing (d : Dev) (r : RingId) (own : Nat) : Dev :=
  let mine := d.hq.cmds.filter fun c => c.src == .ring r && c.order != own
  let ends (c : Cmd) : Bool := if isRw c.op then !c.acked else !c.started
  let d := d.each (mine.filter ends) fun d c =>
    if (c.op = 0x10 ∨ c.op = 0x12) ∧ !c.forwarded then d.stopRead c 0x11 else d.complete c 0x11
  let d := { d with hq.entries := d.hq.entries.filter fun e => e.1 != CmdSrc.ring r }
  (d.onRing r fun g => { g with defers := [] }).setF (rRingDefer r) 0 7 0

/-- Commands of a ring that a reset waits for. -/
def Dev.resetWaits (d : Dev) (r : RingId) (own : Nat) (curtain : Bool) : List Nat :=
  (d.hq.cmds.filter fun c => c.src == .ring r && c.order != own && c.started && !isRw c.op &&
    !(curtain && (c.op == 0x13 || c.op == 0x21 || c.op == 0x43))).map Cmd.order

def execQueueReset (src : CmdSrc) (tag : BitVec 16) (s : State) : Host.Outcome State Fault Refusal :=
  .next (s.onDev fun d => d.forCmd src tag 0x42 fun d c =>
    let r : RingId := Fin.ofNat 16 (pCdw0 c.slot)
    let d := (d.raise 32 6 r.val 0 0 0).setB (rRingStat r) 28 true
    let d := d.resetRing r c.order
    (d.setCmd { c with started := true, waitFor := d.resetWaits r c.order false }).settle)

/-! ### Curtain (R279, R384-R387) -/

/-- SOURCE of a range entry. -/
def srcCode : CmdSrc → Nat
  | .ring r => r.val
  | .peer id => 2 ^ 15 + id.val

/-- Rows in the order of their ranges and LBAs (R386). -/
def inRangeOrder (rows : List Row) : List Row :=
  (rows.foldl (fun (m : List (Nat × Row)) (r : Row) => sput m (r.range * 2 ^ 64 + r.lba) r) []).map (·.2)

/-- The ranges that rows form: source, NSID, first LBA, count (R386). -/
def discardRanges (rows : List Row) : List (CmdSrc × Nat × Nat × Nat) := rowRanges (inRangeOrder rows)

/-- Discard rows in a curtain: their buffer is released, and each range makes an entry (R384). -/
def Dev.curtainDiscard (d : Dev) (keep : Row → Bool) : Dev :=
  match d.hq.curtain with
  | none => d
  | some k =>
    let gone := d.hq.rows.filter fun r => !r.committed && !keep r
    let d := { d with hq.rows := d.hq.rows.filter fun r => r.committed || keep r,
                      hq.curtain := some { k with discarded := k.discarded ++ gone } }
    d.each (discardRanges gone) fun d g =>
      d.post 0x0150 6 (srcCode g.1 + g.2.1 * 2 ^ 16) g.2.2.1 g.2.2.2 0

/-- A curtain cannot write on a side: R384's table. -/
def Dev.sideUnwritable (d : Dev) (x : Side) : Bool :=
  !d.mayWrite || d.sideDown x || d.flag (rSideLog x) 25 || d.lockout || !d.hq.disc || !d.sides[x].mounted

/-- A curtain begins: every ring is reset, and what cannot be written is discarded at once. -/
def Dev.startCurtain (d : Dev) (cmd : Option Nat) (warm : Bool) : Dev :=
  let own := cmd.getD d.hq.order
  let d := d.raise 34 (if cmd.isSome then 6 else 0x15) 0 0 0 0
  let d := d.each allRings fun d r => d.resetRing r own
  let waits := allRings.flatMap fun r => d.resetWaits r own true
  let now := d.beats
  let d := { d with hq.curtain := some { cmd, warm, start := now, discarded := [], final := false } }
  let d := match d.hq.cmds.find? fun c => some c.order == cmd with
    | some c => d.setCmd { c with started := true, waitFor := waits }
    | none => d
  let d := (d.setB rHqCtl 8 true).curtainDiscard fun r => !d.sideUnwritable r.home.side
  d.askRecords.settle

/-- CURTAIN: it starts a curtain, or joins the one that runs. -/
def execCurtain (src : CmdSrc) (tag : BitVec 16) (s : State) : Host.Outcome State Fault Refusal :=
  .next (s.onDev fun d => d.forCmd src tag 0x43 fun d c =>
    if d.hq.curtain.isSome then d.startCmd c else d.startCurtain (some c.order) false)

/-- The status of a command that waited on data in a curtain: what was discarded of it (R279). -/
def Dev.curtainStatus (d : Dev) (c : Cmd) (gone : List Row) : Dev :=
  let mine := inRangeOrder (gone.filter fun r => if c.op = 0x11 then r.writes.contains c.order else decide (r.order < c.order))
  match mine with
  | [] => d.complete c 0 (done := if c.op = 0x11 then c.len else 0)
  | r :: _ => d.complete c 0x31 (info := r.lba) (aux := (discardRanges mine).length) (ns := r.nsid)

/-- A curtain is over: the call board is copied, the disc is unmounted, the curtain's commands end, and a warm
reset follows where one waits (R279, R383, R384). -/
def Dev.curtainOver (d : Dev) (k : Curtain) : Dev :=
  let d := (d.copyBoard 34).hostEvent 4 2 0
  let n := (discardRanges k.discarded).length
  let curtains := d.hq.cmds.filter fun c => c.op == 0x43 && c.started
  let d := d.each curtains fun d c => if n = 0 then d.complete c 0 else d.complete c 0x31 (aux := n)
  let d := d.onlyIf k.warm fun d => { d with pwr.resetDue := some 3 }
  { d.setB rHqCtl 8 d.hq.activate.isSome with hq.curtain := none, hq.curtained := true }

/-- After the commit phase, a side that can be written waits for its final record, with CLEAN = 1; another is unmounted
without one. The curtain is over when no side is mounted (R384). -/
def Dev.curtainFinish (d : Dev) : Dev :=
  match d.hq.curtain with
  | none => d
  | some k =>
    if !k.final then d
    else
      let d := d.each allSides fun d x => if d.sides[x].mounted && d.sideUnwritable x then d.unmountSide x else d
      if d.sides[0].mounted || d.sides[1].mounted then d else d.curtainOver k

/-- The commit phase ends: nothing is left to commit, or 2.0 s have passed. What is not committed is discarded, the commands
that waited on it end, and every side asks for its final record (R384). -/
def Dev.curtainEnd (d : Dev) : Dev :=
  match d.hq.curtain with
  | none => d
  | some k =>
    if k.final then d.curtainFinish
    else if d.uncommitted ∧ d.beats < k.start + 1600000 then d
    else
      let d := d.curtainDiscard fun _ => false
      let gone := match d.hq.curtain with | some k => k.discarded | none => []
      let waiting := d.hq.cmds.filter fun c => (c.op == 0x11 && c.acked && !c.forwarded) || (c.op == 0x13 && c.started)
      let d := d.each waiting fun d c => d.curtainStatus c gone
      let d := d.each allSides fun d x => d.onSide x fun s => { s with cleanWanted := s.mounted }
      { d with hq.curtain := some { k with discarded := gone, final := true } }.curtainFinish

/-- COMMIT_PASSED: a record's place is judged; the last clean record of a curtain ends it. -/
def execCommitPassed (x : Side) (s : State) : Host.Outcome State Fault Refusal :=
  .next (s.onDev fun d => (d.recVerified x).curtainFinish)

/-! ### Hot reset (R248) -/

/-- A PCIe hot reset or a link-down: rings disabled, what is held discarded, the rings' commands reset without a word. -/
def Dev.hotReset (d : Dev) : Dev :=
  let d := d.each allRings fun d r =>
    (d.setB (rRingCfg r) 0 false).onRing r fun g => { g with held := [], unsignalled := 0 }
  let cmds := d.hq.cmds.map fun (c : Cmd) => match c.src with | .ring _ => { c with silent := true } | .peer _ => c
  let d := { d with hq.cmds := cmds, pcie.busMaster := false, pcie.l12 := false }
  (d.each allRings fun d r => d.resetRing r d.hq.order).settle

def execHotReset (s : State) : Host.Outcome State Fault Refusal := .next (s.onDev fun d => d.hotReset)

/-! ### Leaving PERFORMANCE (R27, R58) -/

/-- Media commands that have not started end with NOT_READY. In the ghost-light entry beat started reads end too; a started
write finishes its transfer first. -/
def Dev.endPerformance (d : Dev) (ghost : Bool) : Dev :=
  let ends (c : Cmd) : Bool := isMedia c.op && !c.acked && (!c.started || (ghost && (c.op == 0x10 || c.op == 0x12)))
  (d.each (d.hq.cmds.filter ends) fun d c => d.complete c 0x40).settle

end Sys2Proof.Machine
end

