-- ==== Sys2Proof/Machine/Srv.lean ====
section
/-! DEFINITION. The servo cluster: signals, loops, actuator codes, trims, lock flags being cleared, holds and OFF_TRACK
(06_optical_servo.md). Jumps, seeks and the servo group itself are in Seek.lean. -/

namespace Sys2Proof.Machine

/-! ### Servo signals (R95, R96, R155, R156) -/

/-- The samples of a servo group, oldest first, by channel. -/
structure Signals where
  ga : List Int
  gb : List Int
  gc : List Int
  gd : List Int
  /-- Split halves E and F, spot by spot. -/
  e : List (List Int)
  f : List (List Int)
  rtilt : List Int
  ttilt : List Int
  monitor : List Int
  temp : List Int
  deriving DecidableEq, Repr

/-- The eight samples of servo channel i in a lane's twelve blocks: two blocks a channel, two bytes a sample, most
significant first (R96). -/
def servoChannel (bs : List Byte) (i : Nat) : List Int :=
  (List.range 8).map fun m => sgn 16 (beNat ((bs.drop (16 * i + 2 * m)).take 2))

/-- The bytes that logical lane k carries, its polarity put right (R96, R97). -/
def Dev.laneGroup (d : Dev) (h : Head) (g : ServoGroup) (k : Fin 4) : List Byte :=
  d.polarity h (d.physLane h k) (g.lanes.getD (d.physLane h k) []).flatten

/-- The channels of R96's table. -/
def Dev.signals (d : Dev) (h : Head) (g : ServoGroup) : Signals :=
  let ch (k : Fin 4) (i : Nat) : List Int := servoChannel (d.laneGroup h g k) i
  { ga := ch 0 0, gb := ch 1 0, gc := ch 2 0, gd := ch 3 0,
    e := allSpots.map fun j => ch (Fin.ofNat 4 (j.val / 2)) (1 + 2 * (j.val % 2)),
    f := allSpots.map fun j => ch (Fin.ofNat 4 (j.val / 2)) (2 + 2 * (j.val % 2)),
    rtilt := ch 0 5, ttilt := ch 1 5, monitor := ch 2 5, temp := ch 3 5 }

/-- Sum over samples 4-7. -/
def late4 (l : List Int) : Int := sumInts (l.drop 4)

/-- SUM of each sample. -/
def Signals.sums (q : Signals) : List Int :=
  List.zipWith (· + ·) (List.zipWith (· + ·) q.ga q.gb) (List.zipWith (· + ·) q.gc q.gd)

/-- The numerator of TE of each sample. -/
def Signals.tracking (q : Signals) : List Int :=
  List.zipWith (· - ·) (List.zipWith (· + ·) q.ga q.gd) (List.zipWith (· + ·) q.gb q.gc)

/-- SUM_AVG of a group: the mean of its eight SUM samples. -/
def Signals.mean (q : Signals) : Nat := (quot (sumInts q.sums) 8).toNat

/-- A ratio of two sums as an s1.14 error (R155). -/
def ratio14 (num : Int) (den : Nat) : Int := fits 16 (quot (num * 16384) den)

/-- FE and TE: means of samples 4-7 over the previous beat's SUM_AVG. -/
def Signals.focus (q : Signals) (avg : Nat) : Int :=
  ratio14 (late4 q.ga + late4 q.gc - late4 q.gb - late4 q.gd) (4 * avg)
def Signals.track (q : Signals) (avg : Nat) : Int := ratio14 (late4 q.tracking) (4 * avg)

/-- PPj of every spot. -/
def Signals.pushPull (q : Signals) : List Int :=
  List.zipWith (fun e f => ratio14 (sumInts e - sumInts f) (sumInts e + sumInts f).toNat) q.e q.f

/-- SKE = sum of (j - 3.5) PPj / 42; CTE = sum of PPj / 8. -/
def skewError (pp : List Int) : Int := quot (sumInts (pp.zipIdx.map fun p => (2 * (p.2 : Int) - 7) * p.1)) 84
def centreError (pp : List Int) : Int := quot (sumInts pp) 8

/-- RTE and TTE: means of samples 0-7. -/
def tiltError (l : List Int) : Int := quot (sumInts l) 8

/-- The group's samples against SUM_DROP and SUM_END of SUM_REF: the hold test (R169); all of a bad group qualify
(R167). -/
def Dev.holdTest (d : Dev) (h : Head) (q : Signals) (bad : Bool) : Dev :=
  let now := d.beats
  let ref : Int := d.fld (rSrvSum h) 0 16
  let drop : Int := d.fld (rHoldCfg h) 0 4
  let end_ : Int := d.fld (rHoldCfg h) 4 4
  d.onHead h fun s =>
    let s := q.sums.zipIdx.foldl (fun (s : HeadState) p =>
      s.scan (8 * now + p.2) (bad || decide (16 * p.1 < drop * ref)) (!bad && decide (end_ * ref ≤ 16 * p.1))) s
    { s with groupBeat := now, grouped := true, advanced := false,
             hold := s.hold.map fun x => if x.ended then x else { x with beats := x.beats + 1 } }

/-! ### Loops (R157-R160) -/

/-- The loop's number in the register map. -/
def loopIx (l : Fin 5) : Fin 6 := ⟨l.val, by omega⟩

/-- Sections of each loop: four of focus and tracking, two of the others. -/
def loopSections (l : Fin 5) : Nat := if l.val ≤ 1 then 4 else 2

/-- A coefficient, s3.20. -/
def Dev.coef (d : Dev) (h : Head) (l : Fin 6) (k c : Nat) : Int := d.sfld (rLoopSec h l k c) 0 24

/-- One section's output for input x: the biquad of R158. -/
def Dev.section (d : Dev) (h : Head) (l : Fin 6) (k : Nat) (s : SecState) (x : Int) : Int :=
  fits 40 (quot (d.coef h l k 0 * x + d.coef h l k 1 * s.x1 + d.coef h l k 2 * s.x2
    - d.coef h l k 3 * s.y1 - d.coef h l k 4 * s.y2) (2 ^ 20))

/-- A section's state after input x and output y. -/
def SecState.push (s : SecState) (x y : Int) : SecState := { x1 := x, x2 := s.x1, y1 := y, y2 := s.y1 }

/-- The sections in turn: the output, and the states advanced. -/
def Dev.sections (d : Dev) (h : Head) (l : Fin 5) (secs : Vector SecState 4) (x : Int) : Int × Vector SecState 4 :=
  (List.finRange 4).foldl (fun (p : Int × Vector SecState 4) k =>
    if k.val < loopSections l then
      let y := d.section h (loopIx l) k.val p.2[k] p.1
      (y, vmod p.2 k fun s => s.push p.1 y)
    else p) (x, secs)

/-- The gain in use: GAIN1 in GHOST_LIGHT, else GAIN0 (R158). -/
def Dev.loopGain (d : Dev) (h : Head) (l : Fin 6) : Nat :=
  if d.ghostLight then d.fld (rLoopGain h l) 16 16 else d.fld (rLoopGain h l) 0 16

/-- The code shipped in the last beat. -/
def Dev.lastCode (d : Dev) (h : Head) (l : Fin 6) : Int := d.sfld (rLoopOut h l) 0 16

/-- Set a loop's code, with its complement. -/
def Dev.setCode (d : Dev) (h : Head) (l : Fin 6) (c : Int) : Dev := d.setPair (rLoopOut h l) (uns 16 c)

/-- LIMIT_NEG and LIMIT_POS hold a code. -/
def Dev.withinLimits (d : Dev) (h : Head) (l : Fin 6) (c : Int) : Int :=
  clampI (d.sfld (rLoopLimit h l) 16 16) (d.sfld (rLoopLimit h l) 0 16) c

/-- States whose last input failed its CRC advance with the input before it (R167). -/
def Dev.catchUp (d : Dev) (h : Head) (l : Fin 5) : Dev :=
  let st := d.heads[h].loops[l]
  if !st.again then d
  else
    let (_, secs) := d.sections h l st.secs (st.last * 2 ^ Config.servoFrac)
    d.onHead h fun s => { s with loops := s.loops.set l { st with secs, again := false } }

/-- A loop's code for input x: sections, gain, rounding, the two clamps; the states advance unless a clamp acts
(R158, R159). An error of 1/16,384 at gain 1.0 makes one code: the model's scale (notes/assumptions/76.md). -/
def Dev.runLoop (d : Dev) (h : Head) (l : Fin 5) (x : Int) : Dev :=
  let ix := loopIx l
  let st := d.heads[h].loops[l]
  let (y, secs) := d.sections h l st.secs (x * 2 ^ Config.servoFrac)
  let raw := divRound (y * d.loopGain h ix) (2 ^ (12 + Config.servoFrac))
  let prev := d.lastCode h ix
  let slew : Int := d.fld (rLoopSlew h ix) 0 16
  let code := clampI (prev - slew) (prev + slew) (d.withinLimits h ix raw)
  let st' : LoopState := { st with before := st.secs, secs := if code = raw then secs else st.secs,
                                   prev := st.last, last := x }
  ((d.onHead h fun s => { s with loops := s.loops.set l st' }).setCode h ix code).wr (rLoopErr h ix)
    (BitVec.ofNat 32 (uns 16 x))

/-- The offset of a loop: its pair is checked at the computation, and on a mismatch the last matching value is kept
(R356). -/
def Dev.loopOffset (d : Dev) (h : Head) (l : Fin 5) : Dev × Int :=
  let kept := d.heads[h].loops[l].ofs
  match d.checkPair 0 (rLoopOfs h (loopIx l)) (uns 16 kept) with
  | (d, some v) =>
    let v := sgn 16 v
    (d.onHead h fun s => { s with loops := vmod s.loops l fun x => { x with ofs := v } }, v)
  | (d, none) => (d, kept)

/-- A closed loop computes its code from an error, less its offset and a trim (R157). POL inverts the error alone
(R156). -/
def Dev.closedLoop (d : Dev) (h : Head) (l : Fin 5) (err trim : Int) : Dev :=
  let err := if d.flag (rLoopCtl h (loopIx l)) 1 then -err else err
  let (d, ofs) := d.loopOffset h l
  d.runLoop h l (err - ofs - trim)

/-- EN. -/
def Dev.loopOn (d : Dev) (h : Head) (l : Fin 5) : Bool := d.flag (rLoopCtl h (loopIx l)) 0

/-! ### Centre trim, spherical code, sled coupling (R161-R163) -/

/-- CTE_LIM in units of 2^-20 of 1/16,384. -/
def Dev.trimLimit (d : Dev) (h : Head) : Int := d.fld (rLoopCtl h 1) 16 10 * 2 ^ 20

/-- The trim in use, in 1/16,384: within the limit in force. -/
def Dev.trimValue (d : Dev) (h : Head) : Int :=
  quot (clampI (-(d.trimLimit h)) (d.trimLimit h) d.heads[h].trim) (2 ^ 20)

/-- The centre trim advances by CTE times 2^-CTE_SHIFT, up to its clamp; reaching the clamp sets TRIM_LIMIT and makes an
entry (R161). The push-pull behind CTE is not inverted by POL, which inverts a loop's error (notes/assumptions/76.md). -/
def Dev.advanceTrim (d : Dev) (h : Head) (cte : Int) : Dev :=
  if !d.flag (rSrvStat h) 2 || !d.flag (rSrvStat h) 3 || d.heads[h].frozen then d
  else
    let lim := d.trimLimit h
    let old := d.heads[h].trim
    let t := clampI (-lim) lim (old + quot (cte * 2 ^ 20) (2 ^ d.fld (rLoopCtl h 1) 8 5))
    let d := d.onHead h fun s => { s with trim := t }
    if (t = lim ∨ t = -lim) ∧ old ≠ t then
      (d.setB (rSrvStat h) 17 true).post 0x0144 0x00 h.val (uns 64 (d.trimValue h)) 0 0
    else d

/-- Dither and trim steps are suspended: while writing, in a hold, in a jump and the act after one (R162). -/
def Dev.sabSuspended (d : Dev) (h : Head) : Bool :=
  let s := d.heads[h]
  d.flag (rWrpStat h) 0 || s.frozen || s.jump.isSome || decide (0 < s.afterJump)

/-- Base and trim of a layer. -/
def Dev.sabLayer (d : Dev) (h : Head) (k : Nat) : Int := d.sfld (rSabBase h k) 0 16 + d.sfld (rSabTrim h k) 0 16

/-- Beats of a layer jump over m layers (R175). -/
def jumpLength (m : Nat) : Nat := 160 + 80 * m

/-- The spherical-aberration code (R162): base, trim and the act's dither; held in a hold and in the ghost-light ramp; in a
layer jump on its way from one layer's value to the other's (R175). -/
def Dev.spherCode (d : Dev) (h : Head) : Int :=
  let s := d.heads[h]
  let normal : Int :=
    if s.frozen || decide (2 ≤ d.cue.glBeat) then s.sabCode
    else
      let dither : Int := d.fld (rSabCfg h) 0 8
      d.sabLayer h (d.layerOf h) + (if d.sabSuspended h then 0 else if s.dither2 then -dither else dither)
  match s.jump with
  | some k =>
    if !k.layers then normal
    else
      let a := d.sabLayer h k.first
      let b := d.sabLayer h ((k.first : Int) + k.goal).toNat
      a + quot ((b - a) * k.total) (jumpLength k.goal.natAbs)
  | none => normal

/-- A beat's gain samples for the spherical trim: the spots in LOCK that are not frozen (R162). -/
def Dev.gatherGain (d : Dev) (h : Head) : Dev :=
  let locked := allSpots.filter fun j => d.fld (rSpotStat h j) 0 3 == 2
  let live := locked.filter fun j => !d.flag (rSpotStat h j) 4
  let off := d.sabSuspended h
  d.onHead h fun s => { s with sab :=
    { sum := s.sab.sum + (live.map fun j => d.fld (rSpotGain h j) 0 16).sum, n := s.sab.n + live.length,
      seen := locked.foldl (fun b (j : Spot) => b ||| BitVec.ofNat 8 (2 ^ j.val)) s.sab.seen, off := s.sab.off || off } }

/-- The spherical dither at an act boundary (R162): the act just ended gave G+ or G-. -/
def Dev.sabAct (d : Dev) (h : Head) : Dev :=
  let s := d.heads[h]
  let few := decide (((List.range 8).filter fun i => s.sab.seen.getLsbD i).length < 4)
  let d := if s.sab.off || few || s.sab.n == 0 then d.onHead h fun s => { s with dither2 := false, gPlus := none }
    else match s.dither2, s.gPlus with
      | true, some (p, pn) =>
        let k := d.layerOf h
        let (m, mn) := (s.sab.sum, s.sab.n)
        let hys := d.fld (rSabCfg h) 16 8 * pn * mn
        let step : Int := d.fld (rSabCfg h) 8 8
        let lim : Int := 4 * d.fld (rSabCfg h) 24 8
        let t := d.sfld (rSabTrim h k) 0 16
        let t' := if p * mn + hys < m * pn then t + step else if m * pn + hys < p * mn then t - step else t
        (d.wr (rSabTrim h k) (BitVec.ofNat 32 (uns 16 (clampI (-lim) lim t')))).onHead h fun s =>
          { s with dither2 := false, gPlus := none }
      | _, _ => d.onHead h fun s => { s with dither2 := true, gPlus := some (s.sab.sum, s.sab.n) }
  d.onHead h fun s => { s with sab := .reset, afterJump := s.afterJump - 1 }

/-- Sled coupling works: no hold, seek or jump, and the axis's position is certain (R163). -/
def Dev.coupled (d : Dev) (h : Head) : Bool :=
  !d.heads[h].frozen && !d.flag (rSrvStat h) 5 && d.heads[h].jump.isNone && !d.flag (0x70_0004 + 0x100 * h.val) 3

/-- The sled loop low-passes the tracking code (R163). -/
def Dev.sledFilter (d : Dev) (h : Head) : Dev :=
  if !d.coupled h then d
  else
    let st := d.heads[h].sled
    let code := d.lastCode h 1
    let x := code * 2 ^ Config.servoFrac
    let y := d.section h 5 0 st x
    let lp := divRound (y * d.loopGain h 5) (2 ^ (12 + Config.servoFrac))
    (d.wr (rLoopErr h 5) (BitVec.ofNat 32 (uns 16 code))).onHead h fun s => { s with sled := st.push x y, sledLp := lp }

/-- Step feed-forward: k microsteps of the sled add -k USTEP_CODES FF / 128 to the stored output of the tracking loop's
section 0 (R163). -/
def Dev.feedForward (d : Dev) (h : Head) : Dev :=
  let k := d.heads[h].sledSteps
  let d1 := d.onHead h fun s => { s with sledSteps := 0 }
  if k = 0 ∨ !d.coupled h then d1
  else
    let delta := quot (-k * d.fld (rSledCfg h) 0 16 * d.fld (rSledCfg h) 24 8 * 2 ^ Config.servoFrac) (256 * 128)
    d1.onHead h fun s => { s with loops := vmod s.loops 1 fun l =>
      { l with secs := vmod l.secs 0 fun x => { x with y1 := x.y1 + delta } } }

/-! ### Lock counters (R168) -/

/-- Count one beat toward a condition, or start again. -/
def countIf (b : Bool) (n : Nat) : Nat := if b then n + 1 else 0

/-- A mean SUM stands at the end level of SUM_REF. -/
def Dev.strongSum (d : Dev) (h : Head) (avg : Nat) : Bool :=
  decide (d.fld (rHoldCfg h) 4 4 * d.fld (rSrvSum h) 0 16 ≤ 16 * avg)

/-- The counters of the three lock flags after a beat; they stand still in a hold. -/
def Dev.countLocks (d : Dev) (h : Head) (fe te ske : Int) (avg : Nat) : Dev :=
  let foc := d.fld (rLockCfg h) 0 10
  let trk := d.fld (rLockCfg h) 10 10
  let skw := d.fld (rLockCfg h) 20 10
  let strong := d.strongSum h avg
  d.onHead h fun s =>
    { s with
      good := #v[countIf (strong && decide (fe.natAbs < foc)) s.good[0], countIf (decide (te.natAbs < trk)) s.good[1],
                 countIf (decide (ske.natAbs < skw)) s.good[2]],
      bad := #v[countIf (decide (2 * foc ≤ fe.natAbs)) s.bad[0], countIf (decide (2 * trk ≤ te.natAbs)) s.bad[1],
                countIf (decide (2 * skw ≤ ske.natAbs)) s.bad[2]] }

/-! ### Codes on the lanes (R57, R159, R164) -/

/-- SEQ of a beat's code blocks. -/
def Dev.seqNow (d : Dev) : Nat := d.cue.beat.val % 256

/-- The six code blocks of a beat, in the order of R164. -/
def Dev.codeBlocks (d : Dev) (h : Head) : List (Nat × Int) :=
  [(0x10, d.lastCode h 0), (0x11, d.lastCode h 1), (0x15, d.lastCode h 2), (0x12, d.lastCode h 3),
   (0x13, d.lastCode h 4), (0x14, d.heads[h].sabCode)]

/-- Ship the codes in slot 2, unless the lanes are silent (R164). -/
def Dev.ship (d : Dev) (h : Head) : Dev :=
  let c := d.spherCode h
  let d := d.onHead h fun s => { s with sabCode := c }
  if d.heads[h].lanes then d.emit (.codes h d.seqNow (d.codeBlocks h)) else d

/-- The ghost-light ramp: focus and tracking move linearly to their retract codes over the beats the image gives (R57). -/
def Dev.rampCodes (d : Dev) (h : Head) : Dev :=
  match d.heads[h].rampFrom with
  | none => d
  | some (f0, t0) =>
    let n := d.image.glRamp
    let k : Int := min (d.cue.glBeat - 1 : Nat) n
    let goal (l : Fin 6) : Int := d.sfld (rLoopSlew h l) 16 16
    (d.setCode h 0 (f0 + quot ((goal 0 - f0) * k) n)).setCode h 1 (t0 + quot ((goal 1 - t0) * k) n)

/-! ### Loops of a beat -/

/-- The beats that the chain of a line has run, the present one counted. -/
def Dev.chainElapsed (d : Dev) (line : Fin 256) : Nat :=
  match d.cue.running.find? fun c => c.ev.line == line with
  | some c => c.elapsed
  | none => 0

/-- Focus computes its code in this beat: not while focus is open or held. In an OFF_TRACK chain from its second beat on it
runs where SUM_AVG is strong enough, and else stays held (R169, R172). -/
def Dev.focusRuns (d : Dev) (h : Head) (avg : Nat) : Bool :=
  let s := d.heads[h]
  s.focusClosed && d.loopOn h 0 &&
    (if 2 ≤ d.chainElapsed (headLine 5 h) then d.strongSum h avg else !s.frozen)

/-- Every loop of a beat that is not held or open (R157, R161, R163, R169), with the offsets of ladder step 4 (R118). -/
def Dev.runLoops (d : Dev) (h : Head) (q : Signals) (avg : Nat) : Dev :=
  let pp := q.pushPull
  let live := !d.heads[h].frozen
  let d := (d.feedForward h).advanceTrim h (centreError pp)
  let s := d.heads[h]
  let track := live && s.trackClosed && d.loopOn h 1
  let tilt := live && !s.tiltHeld
  let d := d.onlyIf (d.focusRuns h avg) fun d => d.closedLoop h 0 (q.focus avg) (Config.nmError 0 s.ladderOfs.1)
  let d := d.onlyIf track fun d => d.closedLoop h 1 (q.track avg) (d.trimValue h + Config.nmError 1 s.ladderOfs.2)
  let d := d.onlyIf (tilt && d.loopOn h 2) fun d => d.closedLoop h 2 (skewError pp) 0
  let d := d.onlyIf (tilt && d.loopOn h 3) fun d => d.closedLoop h 3 (tiltError q.rtilt) 0
  let d := d.onlyIf (tilt && d.loopOn h 4) fun d => d.closedLoop h 4 (tiltError q.ttilt) 0
  let code := d.lastCode h 1
  let atLimit := code == d.sfld (rLoopLimit h 1) 0 16 || code == d.sfld (rLoopLimit h 1) 16 16
  (d.onHead h fun s => { s with limitBeats := if track then countIf atLimit s.limitBeats else 0, advanced := live }).sledFilter h

/-- SUM_REF at an act boundary: the mean SUM of an act in FOC_LOCK with no hold (R168). -/
def Dev.sumRefAct (d : Dev) (h : Head) : Dev :=
  let s := d.heads[h]
  let d := if s.sumN = 1024 then d.setF (rSrvSum h) 0 16 (quot s.sumAcc s.sumN).toNat else d
  d.onHead h fun s => { s with sumAcc := 0, sumN := 0 }

/-! ### Lock flags (R168) -/

/-- The bit of a lock flag in SRV_Hn_STAT, and its place among the counters. -/
def LockFlag.bit : LockFlag → Nat
  | .focus => 1
  | .tracking => 2
  | .skew => 3

def Dev.lockReady (d : Dev) (h : Head) (f : LockFlag) : Bool :=
  let s := d.heads[h]
  !s.frozen && match f with
    | .focus => decide (64 ≤ s.good[0]) && s.focusClosed && d.loopOn h 0
    | .tracking => decide (64 ≤ s.good[1]) && s.bandOk && s.trackClosed && d.flag (rSrvStat h) 1
    | .skew => decide (256 ≤ s.good[2]) && d.flag (rSrvStat h) 2

/-- The clearing conditions of the flags: their own error, or the flag they depend on. -/
def Dev.lockGone (d : Dev) (h : Head) (f : LockFlag) : Bool :=
  let s := d.heads[h]
  !s.frozen && match f with
    | .focus => decide (8 ≤ s.bad[0]) || !s.focusClosed
    | .tracking => decide (8 ≤ s.bad[1]) || !s.trackClosed || !d.flag (rSrvStat h) 1
    | .skew => decide (64 ≤ s.bad[2]) || !d.flag (rSrvStat h) 2

/-- FOC_LOCK clears, and TRK_LOCK and SKW_LOCK with it. -/
def Dev.clearFocus (d : Dev) (h : Head) : Dev :=
  ((d.setB (rSrvStat h) 1 false).onHead h fun s => { s with good := s.good.set 0 0, bad := s.bad.set 0 0 }).clearTrk h

/-- Focus is opened: its code is driven, not computed (R168, R172, R175). -/
def Dev.openFocus (d : Dev) (h : Head) : Dev := (d.clearFocus h).onHead h fun s => { s with focusClosed := false }

/-- A lock flag clears; clearing FOC_LOCK clears TRK_LOCK, and clearing TRK_LOCK clears SKW_LOCK. -/
def Dev.lockClear (d : Dev) (h : Head) (f : LockFlag) : Dev :=
  if !d.lockGone h f then d
  else match f with
    | .focus => d.clearFocus h
    | .tracking => d.clearTrk h
    | .skew => d.setB (rSrvStat h) 3 false

def execLockClear (h : Head) (f : LockFlag) (s : State) : Host.Outcome State Fault Refusal :=
  .next { s with dev := s.dev.lockClear h f }

/-! ### Holds and OFF_TRACK (R169-R172) -/

/-- JUMPING. -/
def Dev.setJumping (d : Dev) (h : Head) (b : Bool) : Dev := d.setB (rSrvStat h) 6 b

/-- SEEK.PHASE: 0 idle, 1 coarse, 2 layer jump, 3 address, 4 fine jump, 5 confirm. -/
def Dev.seekPhase (d : Dev) (h : Head) : Nat := d.fld (rSeek h) 24 4
def Dev.setPhase (d : Dev) (h : Head) (p : Nat) : Dev := d.setF (rSeek h) 24 4 p

/-- The two qualifying samples of the last group start a hold; a fine jump's crossing count is abandoned ("When servo events
fall together"). -/
def Dev.holdStart (d : Dev) (h : Head) : Dev :=
  let s := d.heads[h]
  if s.hold.isSome || decide (s.quals.2 < 2) then d
  else
    let d := ((d.setB (rSrvStat h) 4 true).bump (rHolds h) 0 16).onHead h fun s =>
      { s with hold := some { beats := 0, raised := false, first := s.quals.1, ended := decide (8 ≤ s.ends) }, quals := (0, 0),
               ends := 0, dither2 := false, gPlus := none, sab := { s.sab with off := true } }
    match s.jump with
    | some k =>
      if k.layers then d
      else ((d.setB (rSrvStat h) 16 true).setJumping h false).onHead h fun s => { s with jump := some { k with stage := 3 } }
    | none => d

def execHoldStart (h : Head) (s : State) : Host.Outcome State Fault Refusal :=
  .next { s with dev := s.dev.holdStart h }

/-- The eighth end sample has come: the hold ends, and the loops run from their frozen states. An abandoned fine jump pulls
in, and is planned again from the address. -/
def Dev.holdEnd (d : Dev) (h : Head) : Dev :=
  match d.heads[h].hold with
  | none => d
  | some x =>
    if !x.ended then d
    else
      let len := min (x.beats / 8) 255
      let d := ((d.setB (rSrvStat h) 4 false).setF (rHolds h) 24 8 (max len (d.fld (rHolds h) 24 8))).onHead h fun s =>
        { s with hold := none }
      match d.heads[h].jump with
      | some k =>
        if k.layers || k.stage != 3 then d
        else
          let d := d.onHead h fun s => { s with jump := none, trackClosed := true, afterJump := 2 }
          d.onlyIf (d.heads[h].seek).isSome fun d => d.setPhase h 3
      | none => d

def execHoldEnd (h : Head) (s : State) : Host.Outcome State Fault Refusal :=
  .next { s with dev := s.dev.holdEnd h }

/-- The hold has not ended by the last presentation before the instant 200 µs after its first qualifying sample, and that
instant has come. Sample 7 of a group is taken in the group's beat, samples 0 to 6 in the beat before (R166, R170). -/
def Dev.holdLong (d : Dev) (h : Head) : Bool :=
  let s := d.heads[h]
  match s.hold with
  | some x => !x.ended && !x.raised && !d.chainRuns (headLine 5 h) && decide ((x.first + 1) / 8 + 159 ≤ d.beats) &&
      decide (x.first / 8 + 159 ≤ s.groupBeat)
  | none => false

/-- OFF_TRACK Hn (R170). -/
def Dev.offTrack (d : Dev) (h : Head) : Dev :=
  let s := d.heads[h]
  let long := d.holdLong h
  let limit := decide (d.fld (rHoldCfg h) 24 8 ≤ s.limitBeats) && decide (0 < s.limitBeats) && s.trackClosed && !s.frozen
  if !long && !limit then d
  else
    let d := (d.setB (rSrvStat h) 7 true).onlyIf long fun d => d.bump (rHolds h) 16 8
    (d.onHead h fun s => { s with hold := s.hold.map fun x => { x with raised := true }, limitBeats := 0 }).raise
      (headLine 5 h) 0x00 (rSrvStat h) 0 0 0

def execOffTrack (h : Head) (s : State) : Host.Outcome State Fault Refusal :=
  .next { s with dev := s.dev.offTrack h }

/-- A hold of WR_HOLD beats while the head writes: the gate goes at the next beat boundary (R171). -/
def Dev.writeHoldAbort (d : Dev) (h : Head) : Dev :=
  match d.heads[h].hold with
  | some x =>
    if d.flag (rWrpStat h) 0 ∧ !x.ended ∧ d.fld (rHoldCfg h) 8 8 ≤ x.beats then (d.gcnt 0x0D).gateOffNext h else d
  | none => d

def execWriteHoldAbort (h : Head) (s : State) : Host.Outcome State Fault Refusal :=
  .next { s with dev := s.dev.writeHoldAbort h }

/-! ### Laser monitor and temperature (R131, R134) -/

/-- The monitor is off by more than 15 % of what the lasers are told to emit: 8 BIAS with the gate closed, none with the
lasers off; with the gate open the sum varies with the marks, and is free (notes/assumptions/77.md). -/
def Dev.monitorBeat (d : Dev) (h : Head) (q : Signals) : Dev :=
  let (d, want) :=
    if !d.heads[h].lasers then (d, 0)
    else if d.flag (rWrpStat h) 0 then (d.drawn, d.fresh)
    else (d, 8 * d.fld (rBias h) 0 16)
  let got := Config.monitorPower (sumInts q.monitor)
  let off := decide (15 * want < 100 * ((got : Int) - want).natAbs)
  let t := Config.afeTemperature (sumInts q.temp)
  d.onHead h fun s => { s with laserBad := countIf off s.laserBad, temp := t }

/-! ### Heads: faults and types (R164, R179, R423) -/

/-- Hn_FAULT_N asserts. -/
def execHeadFaultLine (h : Head) (s : State) : Host.Outcome State Fault Refusal :=
  .next { s with dev := (s.dev.setB (rHeadLines h) 1 true).headFault h 1 }

/-- RETRACT, and POWER blocks of 0 on every level of every spot. -/
def Dev.retractHead (d : Dev) (h : Head) : Dev := (d.emit (.retract h d.seqNow)).sendLevels h 0

/-- The HEAD_TYPES code of a head in the image (R60). -/
def Dev.headTypeOf (d : Dev) (h : Head) : Nat := d.image.headTypes / 2 ^ (8 * h.val) % 256

/-- The type a read returned, as HEAD_TYPES sees it: 0 for an absent or failed head (R423). -/
def typeCode : TypeRead → Nat
  | .notAcked => 0
  | .value t n => if n = ~~~ t then t.toNat else 0

/-- TOP_Hn_LINES after a type read (R423, R424). -/
def Dev.showType (d : Dev) (h : Head) (t : TypeRead) : Dev :=
  match t with
  | .notAcked => ((d.setF (rHeadLines h) 8 8 0).setB (rHeadLines h) 16 false).setB (rHeadLines h) 17 true
  | .value v n => ((d.setF (rHeadLines h) 8 8 v.toNat).setB (rHeadLines h) 16 (n == ~~~ v && v != 0)).setB
      (rHeadLines h) 17 false

end Sys2Proof.Machine
end

