-- ==== Sys2Proof/Machine/Cfg.lean ====
section
/-! DEFINITION. The flash controller and its data ports (R418, R421, R425), the head side-band ports (R423, R424), and
the GPIO capture FIFO (R420). -/

namespace Sys2Proof.Machine

abbrev rLifecycle : Nat := 0x14
abbrev rPwrResets : Nat := 0xF0_0010
abbrev rPwrDiscard : Nat := 0xF0_0024

/-! ### The flash controller (R418, R421, R425) -/

/-- The order of service (R418). -/
def flashRank : FlashOp → Nat
  | .discard _ => 0
  | .bootRecord _ _ => 1
  | .boardCopy => 2
  | .retirement => 3
  | .fwStage _ _ => 4
  | .cfg _ _ _ => 6

/-- The waiting operation that is served next. -/
def nextFlash (l : List FlashOp) : Option FlashOp :=
  (List.range 7).findSome? fun r => l.find? fun o => flashRank o == r

/-- READ_FIFO fills the receive FIFO as far as it has room (R425). -/
def State.fillRx (s : State) : State :=
  let c := s.dev.cfg
  let n := min c.rxLeft (256 - c.rx.length)
  let words := (List.range n).map fun i => BitVec.ofNat 32 (leNat (flashBytes s.mem.flash (c.rxAddr + 4 * i) 4))
  s.onDev fun d => { d with cfg.rx := c.rx ++ words, cfg.rxLeft := c.rxLeft - n, cfg.rxAddr := c.rxAddr + 4 * n }

/-- Begin the next operation when none is in progress. -/
def State.startFlash (s : State) : State :=
  if s.dev.cfg.busy.isSome then s
  else match nextFlash s.dev.cfg.waiting with
    | none => s
    | some o =>
      let s := s.onDev fun d => { d with cfg.busy := some o, cfg.waiting := d.cfg.waiting.erase o }
      match o with
      | .cfg op a n =>
        if op = 4 then (s.onDev fun d => { d with cfg.rxLeft := n / 4, cfg.rxAddr := a }).fillRx else s
      | _ => s

/-- A flash command ends: DONE, or ERR with WHY (R421). -/
def Dev.flashEnd (d : Dev) (why : Nat) : Dev :=
  let d := d.setB rFlashStat 0 false
  if why = 0 then d.setB rFlashStat 1 true else (d.setB rFlashStat 2 true).setF rFlashStat 4 4 why

/-- A flash command is refused. -/
def Dev.flashRefuse (d : Dev) (why : Nat) : Dev := (d.setB rFlashStat 2 true).setF rFlashStat 4 4 why

/-- The length of a command, and whether it is refused (R421, R425). -/
def Dev.flashBadLen (d : Dev) (op : Fin 6) : Bool :=
  let a := d.fld rFlashAddr 0 26; let n := d.fld rFlashLen 0 13; let sl := d.fld rFlashSlen 0 27
  if op = 4 then sl == 0 || sl % 4 != 0 || decide (0x400_0000 < sl)
  else n == 0 || decide (4096 < n) || ((op == 2 || op == 5) && decide (256 < a % 256 + n)) || (op == 5 && n % 4 != 0)

/-- GO with an operation (R421). -/
def State.flashGo (s : State) (op : Fin 6) : State :=
  let d := s.dev
  if d.flag rFlashStat 0 then s.onDev fun d => d.flashRefuse 1
  else if d.flashBadLen op then s.onDev fun d => d.flashRefuse 2
  else
    let n := if op = 4 then d.fld rFlashSlen 0 27 else d.fld rFlashLen 0 13
    (s.onDev fun d =>
      ({ d with cfg.waiting := d.cfg.waiting ++ [FlashOp.cfg op (d.fld rFlashAddr 0 26) n] }).setB rFlashStat 0 true).startFlash

/-- A write of CFG_FLASH_CMD. An OP outside the table starts nothing (notes/assumptions/24.md). -/
def State.flashCmdWrite (s : State) (v : W32) : State :=
  let op := fget v 0 8
  let s := s.onDev fun d => d.setF rFlashCmd 0 8 op
  if v.getLsbD 31 && decide (1 ≤ op) && decide (op ≤ 5) then s.flashGo (Fin.ofNat 6 op) else s

/-- The command rows: GO with the OP of the row. -/
def State.flashRow (s : State) (op : Nat) : State := s.flashCmdWrite (BitVec.ofNat 32 (op + 2 ^ 31))

def execFlashRead (_m : Master) (s : State) : Host.Outcome State Fault Refusal := .next (s.flashRow 1)
def execFlashProgram (_m : Master) (s : State) : Host.Outcome State Fault Refusal := .next (s.flashRow 2)
def execFlashErase (_m : Master) (s : State) : Host.Outcome State Fault Refusal := .next (s.flashRow 3)
def execFlashReadFifo (_m : Master) (s : State) : Host.Outcome State Fault Refusal := .next (s.flashRow 4)
def execFlashProgramFifo (_m : Master) (s : State) : Host.Outcome State Fault Refusal := .next (s.flashRow 5)

/-- A push to the transmit FIFO; a full one discards the word (R425). -/
def Dev.flashPush (d : Dev) (v : W32) : Dev :=
  if d.cfg.tx.length < 256 then { d with cfg.tx := d.cfg.tx ++ [v] } else d

/-- A pop of the receive FIFO; what an empty one gives is open. -/
def State.flashPop (s : State) : State × W32 :=
  match s.dev.cfg.rx with
  | w :: r => ((s.onDev fun d => { d with cfg.rx := r }).fillRx, w)
  | [] => (s.onDev Dev.drawn, BitVec.ofNat 32 s.dev.fresh)

def execFlashFifoPush (_m : Master) (v : W32) (s : State) : Host.Outcome State Fault Refusal :=
  .next (s.onDev fun d => d.flashPush v)

def execFlashFifoPop (m : Master) (s : State) : Host.Outcome State Fault Refusal :=
  let (s, w) := s.flashPop
  .next (s.onDev fun d => d.emit (.data m (leBytes 4 w.toNat)))

/-- The CFG buffer's bytes (R421). -/
def Dev.cfgBuf (d : Dev) (o n : Nat) : List Byte := (List.range n).map fun i => sget d.cfg.buf 0 (o + i)

def Dev.cfgBufPut (d : Dev) (o : Nat) (bs : List Byte) : Dev :=
  { d with cfg.buf := bs.zipIdx.foldl (fun m b => sset m (0 : Byte) (o + b.2) b.1) d.cfg.buf }

/-- A FLASH_FAIL record: address and operation (R371). -/
def Dev.flashFail (d : Dev) (addr op : Nat) : Dev := d.post 0x0172 0x19 addr op 0 0

/-- Program bytes; whether they read back (R277, R421). -/
def State.programBack (s : State) (a : Nat) (bs : List Byte) : State × Bool :=
  let s := s.onMem fun m => { m with flash := flashProgramBytes m.flash a bs }
  (s, flashBytes s.mem.flash a bs.length == bs)

/-- A CFG command has been carried out. -/
def State.flashCfgDone (s : State) (op : Fin 6) (a n : Nat) (ok : Bool) : State :=
  let ended (s : State) (good : Bool) : State := s.onDev fun d => d.flashEnd (if ok && good then 0 else 3)
  if op = 1 then ended (if ok then s.onDev fun d => d.cfgBufPut 0 (flashBytes s.mem.flash a n) else s) true
  else if op = 2 then
    let (s, good) := s.programBack a (s.dev.cfgBuf 0 n)
    ended s good
  else if op = 3 then
    ended (if ok then s.onMem fun m => { m with flash := flashEraseRange m.flash (a / 65536 * 65536) 65536 } else s) true
  else if op = 4 then ended (s.onDev fun d => { d with cfg.rxLeft := 0 }) true
  else
    let bs := (s.dev.cfg.tx.take (n / 4)).flatMap fun w => leBytes 4 w.toNat
    let (s, good) := s.programBack a bs
    ended (s.onDev fun d => { d with cfg.tx := d.cfg.tx.drop (n / 4) }) good

/-- An operation of the CFG registers that is not yet able to end: a FIFO still has words to come (R425). -/
def Dev.flashWaits (d : Dev) (op : Fin 6) (n : Nat) : Bool :=
  (op == 4 && d.cfg.rxLeft != 0) || (op == 5 && decide (4 * d.cfg.tx.length < n))

/-- A record of the call board (R372). -/
def Dev.boardRecord (d : Dev) (c : BoardCopy) : List Byte :=
  let body := c.entries.flatMap Entry.bytes
  leBytes 4 0x4342_465A ++ leBytes 2 c.reason ++ leBytes 2 c.entries.length ++
    leBytes 4 ((c.entries.head?.map Entry.seq).getD 0) ++ leBytes 4 (d.fld rPwrResets 0 16) ++
    leBytes 8 (c.timeSec % 2 ^ 48) ++ leBytes 8 (crc64 body) ++ List.replicate 32 0 ++ body

/-- The copy that has ended makes way for the pending one, which takes its entries now (R372). -/
def Dev.nextCopy (d : Dev) : Dev :=
  let d := ({ d with flt.copy := none }).setB rCopyStat 0 false
  match d.flt.copyPending with
  | none => d
  | some r => (({ d with flt.copyPending := none }).setB rCopyStat 1 false).copyBoard r

/-- The call-board copy in progress ends: COPIES, or FAIL and its record (R372). -/
def State.boardCopied (s : State) (ok : Bool) : State :=
  match s.dev.flt.copy with
  | none => s
  | some c =>
    let a := boardRegion.addr (boardRegion.next s.mem.flash)
    if ok then
      (s.onMem fun m => { m with flash := boardRegion.write m.flash (s.dev.boardRecord c) }).onDev fun d =>
        (d.bump rCopyStat 16 16).nextCopy
    else s.onDev fun d => ((d.setB rCopyStat 2 true).flashFail a 1).nextCopy

/-- SEQUENCE of the next retirement record: the number written since the last life-cycle change (R402). -/
def retireSequence (m : List Host.Cell) : Nat :=
  match retireRegion.newest m with
  | some i => leNat (flashBytes m (retireRegion.addr i + 4) 4) + 1
  | none => 0

/-- A retirement record (R402). -/
def Dev.retireRecord (d : Dev) (sequence : Nat) : List Byte :=
  let pages := (d.buf.pages.filter fun e => e.2).map (·.1)
  let body := pages.flatMap fun p => leBytes 4 p
  let mask := leBytes 4 d.buf.retired.toNat
  leBytes 4 0x5254_525A ++ leBytes 4 sequence ++ mask ++ leBytes 2 pages.length ++ leBytes 2 0 ++
    leBytes 8 (crc64 (mask ++ body)) ++ body

/-- The boot records of a life-cycle change are written, or the flash failed it (R395). -/
def Dev.lifeWritten (d : Dev) (ok : Bool) : Dev :=
  if d.pwr.life.isNone then d
  else if !ok then
    { (((d.setB rLifecycle 4 false).setB rLifecycle 5 true).setF rLifecycle 8 4 6) with
      pwr.life := none, cfg.waiting := d.cfg.waiting.filter fun o => flashRank o != 1 }
  else if d.cfg.waiting.any fun o => flashRank o == 1 then d
  else { d with pwr.resetDue := some 5 }

/-- The discard record has ended, in flash or lost: what waited for it follows (R382). -/
def Dev.recordWritten (d : Dev) (ok : Bool) : Dev :=
  let d := if ok then { d with pwr.newRecord := true } else d.setB 0xF0_0000 10 true
  match d.pwr.stopping with
  | some 1 => { d with pwr.resetDue := some 1 }
  | some _ => if d.pwr.pfail then d else { d with pwr.resetDue := some 2 }
  | none => d

/-- The whole log area without the boot-record sectors. -/
def eraseLog (m : List Host.Cell) : List Host.Cell := flashEraseRange m 0x300_0000 0xFE_0000

/-- An operation of the flash has ended (R418). -/
def State.flashOpDone (s : State) (o : FlashOp) (ok : Bool) : State :=
  match o with
  | .discard bs =>
    let a := discardRegion.addr (discardRegion.next s.mem.flash)
    if ok then (s.onMem fun m => { m with flash := discardRegion.write m.flash bs }).onDev fun d => d.recordWritten true
    else s.onDev fun d => (d.flashFail a 2).recordWritten false
  | .bootRecord life slot =>
    let s := if s.dev.pwr.life.isSome then s.onMem fun m => { m with flash := eraseLog m.flash } else s
    if ok then
      (s.onMem fun m => { m with flash := writeBootRecord m.flash life slot }).onDev fun d =>
        (d.setF 0xF0_0014 1 1 slot).lifeWritten true
    else s.onDev fun d => (d.flashFail (bootCopyAddr 0) 4).lifeWritten false
  | .boardCopy => s.boardCopied ok
  | .retirement =>
    let n := retireSequence s.mem.flash
    if ok then s.onMem fun m => { m with flash := retireRegion.write m.flash (s.dev.retireRecord n) }
    else s.onDev fun d => d.flashFail (retireRegion.addr (retireRegion.next s.mem.flash)) 3
  | .fwStage order unit => s.stageUnit order unit ok
  | .cfg op a n => s.flashCfgDone op a n ok

/-- FLASH_DONE: the operation in progress ends, and the next one begins. -/
def State.flashDone (s : State) (ok : Bool) : State :=
  let s := s.startFlash
  match s.dev.cfg.busy with
  | none => s
  | some o =>
    let waits := match o with | .cfg op _ n => ok && s.dev.flashWaits op n | _ => false
    if waits then s
    else ((s.onDev fun d => { d with cfg.busy := none }).flashOpDone o ok).startFlash

def execFlashDone (ok : Bool) (s : State) : Host.Outcome State Fault Refusal := .next (s.flashDone ok)

/-- CALL_BOARD_COPY: the copy in progress has been programmed, and read back or not (R372). -/
def execCallBoardCopy (readBackOk : Bool) (s : State) : Host.Outcome State Fault Refusal :=
  let s := s.startFlash
  .next (if s.dev.cfg.busy = some .boardCopy then s.flashDone readBackOk else s)

/-- A discard record takes the flash from an erase or program in progress (R418). -/
def State.preemptFlash (s : State) : State :=
  match s.dev.cfg.busy with
  | some (.fwStage order unit) => (s.onDev fun d => { d with cfg.busy := none }).stageUnit order unit false
  | some (.cfg op _ _) =>
    if op = 1 then s
    else s.onDev fun d =>
      let d := { d with cfg.busy := none }
      (if op = 4 ∨ op = 5 then { d with cfg.rx := [], cfg.tx := [], cfg.rxLeft := 0 } else d).flashEnd 4
  | some .boardCopy => s.onDev fun d => { d.nextCopy with cfg.busy := none }
  | some (.discard _) => s
  | some _ => s.onDev fun d => { d with cfg.busy := none }
  | none => s

/-! ### Head side-band (R423, R424) -/

def Dev.onI2c (d : Dev) (h : Head) (f : I2c → I2c) : Dev :=
  let d := { d with top.i2c := vmod d.top.i2c h f }
  (d.setF (rI2cStat h) 8 9 d.top.i2c[h].rx.length).setF (rI2cStat h) 17 9 d.top.i2c[h].tx.length

/-- A write of TOP_Hn_I2C_CTL (R424). While a transfer runs its fields are held (notes/assumptions/24.md). -/
def Dev.i2cCtlWrite (d : Dev) (h : Head) (v : W32) : Dev :=
  let busy := d.flag (rI2cStat h) 0
  let d := d.onlyIf (!busy) fun d => d.wr (rI2cCtl h) (v &&& 0xF_FFFE)
  if !v.getLsbD 0 then d
  else if busy || fget v 9 9 == 0 || decide (256 < fget v 9 9) then d.setB (rI2cStat h) 4 true
  else d.setB (rI2cStat h) 0 true

def execI2cTransfer (_m : Master) (h : Head) (v : W32) (s : State) : Host.Outcome State Fault Refusal :=
  .next (s.onDev fun d => d.i2cCtlWrite h (v ||| 1))

/-- A transfer ends: its bytes are sent or received, and the bus is held without STOP (R424). A write transfer ends only
once the transmit FIFO has held all its bytes. -/
def Dev.i2cDone (d : Dev) (h : Head) (nacked : Bool) (rx : List Byte) : Dev :=
  let ctl := rI2cCtl h
  let read := d.flag ctl 1; let n := d.fld ctl 9 9
  let c := d.top.i2c[h]
  if !d.flag (rI2cStat h) 0 then d
  else if nacked then
    ((d.setB (rI2cStat h) 0 false).setB (rI2cStat h) 2 true).onI2c h fun c => { c with held := !d.flag ctl 19 }
  else if !read && decide (c.tx.length < n) then d
  else
    let d := (d.setB (rI2cStat h) 0 false).setB (rI2cStat h) 1 true
    let d := d.emit (.i2c h (d.fld ctl 2 7) (if read then [] else c.tx.take n) (if read then n else 0))
    d.onI2c h fun c => { c with held := !d.flag ctl 19, tx := if read then c.tx else c.tx.drop n,
                                rx := if read then (c.rx ++ rx.take n).take 256 else c.rx }

def execI2cDone (h : Head) (nacked : Bool) (rx : List Byte) (s : State) : Host.Outcome State Fault Refusal :=
  .next (s.onDev fun d => d.i2cDone h nacked rx)

/-- Clock stretching longer than 10 ms ends the transfer. -/
def execI2cTimeout (h : Head) (s : State) : Host.Outcome State Fault Refusal :=
  .next (s.onDev fun d =>
    if d.flag (rI2cStat h) 0 then
      ((d.setB (rI2cStat h) 0 false).setB (rI2cStat h) 3 true).onI2c h fun c => { c with held := false }
    else d)

def Dev.i2cPush (d : Dev) (h : Head) (v : W32) : Dev :=
  d.onI2c h fun c => if c.tx.length < 256 then { c with tx := c.tx ++ [BitVec.ofNat 8 v.toNat] } else c

def Dev.i2cPop (d : Dev) (h : Head) : Dev × W32 :=
  match d.top.i2c[h].rx with
  | [] => (d, 0)
  | b :: r => (d.onI2c h fun c => { c with rx := r }, BitVec.ofNat 32 b.toNat)

def execI2cDataPush (_m : Master) (h : Head) (v : W32) (s : State) : Host.Outcome State Fault Refusal :=
  .next (s.onDev fun d => d.i2cPush h v)

def execI2cDataPop (m : Master) (h : Head) (s : State) : Host.Outcome State Fault Refusal :=
  .next (s.onDev fun d => let (d, w) := d.i2cPop h; d.emit (.data m (leBytes 4 w.toNat)))

/-- The type read made once per second while a head is in service, between firmware transfers (R423). -/
def Dev.typePoll (d : Dev) (h : Head) (t : TypeRead) : Dev :=
  if !d.inService h || d.flag (rI2cStat h) 0 then d
  else
    let missed := match t with | .notAcked => d.top.i2c[h].missed + 1 | .value _ _ => 0
    let bad := match t with
      | .notAcked => decide (3 ≤ missed)
      | .value a b => b != ~~~ a || a.toNat != d.headTypeOf h
    let d := (d.showType h t).onI2c h fun c => { c with missed := if bad then 0 else missed }
    d.onlyIf bad fun d => d.headFault h 3

def execHeadTypePoll (h : Head) (t : TypeRead) (s : State) : Host.Outcome State Fault Refusal :=
  .next (s.onDev fun d => d.typePoll h t)

/-- A write of TOP_Hn_LINES: in REHEARSAL only (R424). -/
def Dev.linesWrite (d : Dev) (h : Head) (v : W32) : Dev :=
  if d.rehearsal then (d.setB (rHeadLines h) 0 (v.getLsbD 0)).emit (.headReset h (v.getLsbD 0)) else d

def execHeadResetWrite (_m : Master) (h : Head) (v : W32) (s : State) : Host.Outcome State Fault Refusal :=
  .next (s.onDev fun d => d.linesWrite h v)

/-! ### GPIO (R420) -/

/-- Qualified levels change; a rising or falling edge in the masks adds a capture entry while the FIFO has room. -/
def Dev.gpioEdge (d : Dev) (levels : BitVec 16) : Dev :=
  let old : BitVec 16 := BitVec.ofNat 16 (d.fld rGpioIn 0 16)
  let rise : BitVec 16 := BitVec.ofNat 16 (d.fld rGpioCapCfg 0 16)
  let fall : BitVec 16 := BitVec.ofNat 16 (d.fld rGpioCapCfg 16 16)
  let hit := (~~~ old &&& levels &&& rise) ||| (old &&& ~~~ levels &&& fall)
  let d := d.setF rGpioIn 0 16 levels.toNat
  if hit != 0 && decide (d.top.cap.length < 64) then { d with top.cap := d.top.cap ++ [(levels, d.cue.beat)] } else d

def execGpioEdge (levels : BitVec 16) (s : State) : Host.Outcome State Fault Refusal :=
  .next (s.onDev fun d => d.gpioEdge levels)

def Dev.capPop (d : Dev) : Dev × W32 :=
  match d.top.cap with
  | [] => (d, 0)
  | (l, b) :: r => ({ d with top.cap := r }, BitVec.ofNat 32 (l.toNat + b.val * 2 ^ 16 + 2 ^ 31))

def execGpioCapPop (m : Master) (s : State) : Host.Outcome State Fault Refusal :=
  .next (s.onDev fun d => let (d, w) := d.capPop; d.emit (.data m (leBytes 4 w.toNat)))

/-! ### FLT_POST (R370) -/

/-- A post by a master. -/
def Dev.fltPost (d : Dev) (m : Master) (code : Nat) : Dev :=
  if code < 0x8000 then d.setB rFltPost 16 true
  else
    let src : Nat := match m with | .core c => 0x20 + c.val | _ => 0x1F
    let v (k : Fin 4) : Nat := d.rd64 (rPostData k)
    d.post code src (v 0) (v 1) (v 2) (v 3)

def execFltPost (m : Master) (code : BitVec 16) (s : State) : Host.Outcome State Fault Refusal :=
  .next (s.onDev fun d => d.fltPost m code.toNat)

end Sys2Proof.Machine
end

