-- ==== Sys2Proof/Machine/DmaCore.lean ====
section
/-! DEFINITION. The DMA channels' control: starting, stopping, errors, completion, responses, and what a write of a
channel's registers does (12_stage_cache_dma.md). Moving the bytes is in DmaMove.lean. -/

namespace Sys2Proof.Machine

abbrev rDma (ch : Chan) : Nat := 0xC0_0000 + 0x40 * ch.val
abbrev rDmaCtl (ch : Chan) : Nat := rDma ch + 0x14
abbrev rDmaHops (ch : Chan) : Nat := rDma ch + 0x24
abbrev rDmaMoved (ch : Chan) : Nat := rDma ch + 0x28

def allChans : List Chan := List.finRange 32

def Dev.onDma (d : Dev) (ch : Chan) (f : DmaCh → DmaCh) : Dev := { d with dma := vmod d.dma ch f }

def Dev.dmaBusy (d : Dev) (ch : Chan) : Bool := d.flag (rDmaStat ch) 0

/-- A 48-bit address held in two registers. -/
def Dev.addr48 (d : Dev) (a : Nat) : Nat := (d.rd a).toNat + d.fld (a + 4) 0 16 * 2 ^ 32
def Dev.dmaSrc (d : Dev) (ch : Chan) : Nat := d.addr48 (rDma ch)
def Dev.dmaDst (d : Dev) (ch : Chan) : Nat := d.addr48 (rDma ch + 0x08)
def Dev.dmaLink (d : Dev) (ch : Chan) : Nat := d.addr48 (rDma ch + 0x1C)

/-- Element size in bytes (R309), LINK and REQ. -/
def Dev.esize (d : Dev) (ch : Chan) : Nat := 2 ^ d.fld (rDmaCtl ch) 2 2
def Dev.dmaLinks (d : Dev) (ch : Chan) : Bool := d.flag (rDmaCtl ch) 8
def Dev.dmaReq (d : Dev) (ch : Chan) : Nat := d.fld (rDmaCtl ch) 9 4

def Dev.moved (d : Dev) (ch : Chan) : Nat := (d.rd (rDmaMoved ch)).toNat + (d.rd (rDmaMoved ch + 4)).toNat * 2 ^ 32
def Dev.setMoved (d : Dev) (ch : Chan) (n : Nat) : Dev :=
  (d.wr (rDmaMoved ch) (BitVec.ofNat 32 n)).wr (rDmaMoved ch + 4) (BitVec.ofNat 32 (n / 2 ^ 32))

/-- The address ranges of R13. -/
def inRegs (a : Nat) : Bool := decide (a < 0x400_0000)
def inRemote (a : Nat) : Bool := decide (0x4000_0000_0000 ≤ a) && decide (a < 0x8000_0000_0000)
def inHost (a : Nat) : Bool := decide (0x8000_0000_0000 ≤ a)

/-- The budget that bytes read from one address for another are charged to: HIN, HOUT, FWD or FWDMA (R311). -/
def dmaBudget (src : Nat) (dst : Option Nat) : Fin 7 :=
  if inHost src then 2 else if dst.any inHost then 3 else if inRemote src || dst.any inRemote then 4 else 5

/-- Bytes of a byte budget left in this act. -/
def Dev.budgetLeft (d : Dev) (k : Fin 7) : Nat := d.fld (rBudget k) 0 24 * 65536 - d.cue.used[k]

def Dev.charge (d : Dev) (k : Fin 7) (n : Nat) : Dev := { d with cue.used := vmod d.cue.used k (· + n) }

/-- A core is interrupted: it leaves WFI (R35). -/
def Dev.interruptCore (d : Dev) (c : Core) (ch : Nat) : Dev := (d.emit (.coreIrq c.val ch)).setB (rCoreStat c) 2 false

/-- A channel ends: DONE with code 0, else ERR and CODE, its entry and its interrupt (R313, R318). -/
def Dev.dmaEnd (d : Dev) (ch : Chan) (code : Nat) : Dev :=
  let at_ := d.dma[ch].stopAt
  let d := { d with dma := vmod d.dma ch fun _ => { DmaCh.reset with stopAt := at_ } }
  let d := [0, 8, 9, 11].foldl (fun (d : Dev) i => d.setB (rDmaStat ch) i false) d
  let d := (d.setF (rDmaStat ch) 3 4 code).setB (rDmaStat ch) (if code = 0 then 1 else 2) true
  let d := d.onlyIf (code != 0 && code != 7) fun d => d.post 0x0130 0x11 ch.val code (d.moved ch) at_
  d.onlyIf (d.flag (rDmaCtl ch) 23) fun d => d.interruptCore (Fin.ofNat 4 (d.fld (rDmaCtl ch) 21 2)) ch.val

/-- The zero-length read behind the last write to host memory, whose completion stands for the write's (R313). -/
def Dev.zeroRead (d : Dev) (ch : Chan) : Dev :=
  let last := if d.flag (rDmaCtl ch) 7 then d.dma[ch].dst - d.esize ch else d.dma[ch].dst
  d.onlyIf (inHost last) fun d => d.emit (.hostRead (last - 0x8000_0000_0000) 0)

/-- Stop with a code, at an address, once every write issued has answered (R314). -/
def Dev.dmaStopAt (d : Dev) (ch : Chan) (code addr : Nat) : Dev :=
  let c := d.dma[ch]
  let d := d.onlyIf (c.failing.isNone && decide (0 < c.inFlight) && decide (0 < c.left)) fun d => d.zeroRead ch
  let d := d.onDma ch fun c => { c with stopAt := addr, failing := some (c.failing.getD code), linking := false }
  let d := d.setB (rDmaStat ch) 11 false
  if d.dma[ch].inFlight = 0 then d.dmaEnd ch (d.dma[ch].failing.getD code) else d

/-- A combination that R309, R310 or R315 forbids. -/
def Dev.dmaBadConfig (d : Dev) (ch : Chan) : Bool :=
  let es := d.esize ch; let sw := d.fld (rDmaCtl ch) 4 2
  sw == 3 || (sw == 1 && es == 1) || (sw == 2 && decide (es < 4)) || decide (9 ≤ d.dmaReq ch) ||
    ((inRegs (d.dmaSrc ch) || inRegs (d.dmaDst ch)) && es != 4)

/-- A segment begins under the checks of R308. -/
def Dev.dmaSegment (d : Dev) (ch : Chan) : Dev :=
  let src := d.dmaSrc ch; let dst := d.dmaDst ch; let n := (d.rd (rDma ch + 0x10)).toNat; let es := d.esize ch
  if n = 0 then (d.setB (rDmaStat ch) 7 true).dmaEnd ch 0
  else if d.dmaBadConfig ch then d.dmaStopAt ch 2 src
  else if src % es ≠ 0 ∨ dst % es ≠ 0 ∨ n % es ≠ 0 then d.dmaStopAt ch 1 src
  else
    (d.onDma ch fun c => { c with left := n / es, src, dst, burst := 0 }).setB (rDmaStat ch) 9 (d.dmaReq ch != 0)

/-- START on an idle channel (R308); `far` is what a source outside the device has delivered. -/
def Dev.dmaBegin (d : Dev) (ch : Chan) (far : List Byte) : Dev :=
  let d := { d with dma := vmod d.dma ch fun _ => { DmaCh.reset with far := if inHost (d.dmaSrc ch) then far else [] } }
  ((((d.setB (rDmaStat ch) 0 true).setF (rDmaHops ch) 16 16 0).setMoved ch 0).setF (rDmaStat ch) 3 4 0).dmaSegment ch

/-- STOP on a running channel (R319). -/
def Dev.dmaHalt (d : Dev) (ch : Chan) : Dev :=
  if d.dmaBusy ch then d.dmaStopAt ch 7 d.dma[ch].src else d

/-- A write of DMA_CHn_CTL (R308). -/
def Dev.dmaCtlWrite (d : Dev) (ch : Chan) (v : W32) (far : List Byte) : Dev :=
  if d.dmaBusy ch then
    let d := d.onlyIf (v.getLsbD 0 || (v ^^^ d.rd (rDmaCtl ch)) &&& 0xFF_FFFC != 0) fun d => d.setB (rDmaStat ch) 10 true
    d.onlyIf (v.getLsbD 1) fun d => d.dmaHalt ch
  else
    let d := d.wr (rDmaCtl ch) (v &&& 0xFF_FFFC)
    d.onlyIf (v.getLsbD 0) fun d => d.dmaBegin ch far

/-- A write of an address register, COUNT or a link register: ignored while BUSY (R308). -/
def Dev.dmaRegWrite (d : Dev) (ch : Chan) (a : Nat) (v : W32) : Dev :=
  if d.dmaBusy ch then d.setB (rDmaStat ch) 10 true else d.wr a v

/-- A link image is to be fetched, or its budget is waited for (R316, R317); DmaMove sends the request. -/
def Dev.linkFetch (d : Dev) (ch : Chan) : Dev :=
  let a := d.dmaLink ch
  let k := dmaBudget a none
  if a % 32 ≠ 0 then d.dmaStopAt ch 1 a
  else if d.budgetLeft k < 32 then (d.hitBudget k).setB (rDmaStat ch) 8 true
  else
    (((d.charge k 32).setB (rDmaStat ch) 8 false).setB (rDmaStat ch) 11 true).onDma ch fun c =>
      { c with linking := true, asked := 0 }

/-- A segment whose last write has answered completes: DONE, a link fetch, or the hop budget's end (R313, R316, R317). -/
def Dev.dmaSegmentEnd (d : Dev) (ch : Chan) : Dev :=
  if !d.dmaLinks ch then d.dmaEnd ch 0
  else if d.fld (rDmaHops ch) 0 16 ≤ d.fld (rDmaHops ch) 16 16 then d.dmaStopAt ch 5 (d.dmaLink ch)
  else d.linkFetch ch

/-- Nothing is left to move, nothing is in flight, and no link fetch is out. -/
def Dev.dmaAtEnd (d : Dev) (ch : Chan) : Bool :=
  let c := d.dma[ch]
  d.dmaBusy ch && c.left == 0 && c.inFlight == 0 && !c.linking

/-- Write responses return (R314): the bytes count as moved, or the error stops the channel. -/
def Dev.dmaAnswer (d : Dev) (ch : Chan) (bytes : Nat) (err : Option Nat) : Dev :=
  let n := min bytes d.dma[ch].inFlight
  let d := d.onDma ch fun c => { c with inFlight := c.inFlight - n }
  let d := match err with
    | none => d.setMoved ch (d.moved ch + n)
    | some e => d.onDma ch fun c => { c with failing := some (c.failing.getD e), stopAt := c.dst }
  match d.dma[ch].failing with
  | some e => if d.dma[ch].inFlight = 0 then d.dmaEnd ch e else d
  | none => if d.dmaAtEnd ch then d.dmaSegmentEnd ch else d

/-- The error code that a far responder's answer names (R318). -/
def farCode : FarReply → Option Nat
  | .data _ => none
  | .unmapped => some 3
  | .uncorrectable => some 4

/-- A link fetch that was sent has had no response for 64 µs (R317). -/
def Dev.linkLate (d : Dev) (ch : Chan) : Bool :=
  let c := d.dma[ch]
  c.linking && decide (0 < c.asked) && decide (64000 < (d.beats + 1 - c.linkAt) * 1250)

/-- LINK_TIMEOUT (R317). -/
def execLinkTimeout (ch : Chan) (s : State) : Host.Outcome State Fault Refusal :=
  .next (s.onDev fun d => if d.linkLate ch then d.dmaStopAt ch 6 (d.dmaLink ch) else d)

/-- STOP is written to a channel (R319). -/
def execDmaStop (_m : Master) (ch : Chan) (s : State) : Host.Outcome State Fault Refusal :=
  .next (s.onDev fun d => d.dmaHalt ch)

/-- A channel's host read receives no completion: its link fetch, its source read, or the read behind its last write
(R447, R318). -/
def Dev.dmaNoCompletion (d : Dev) (ch : Chan) : Dev :=
  let c := d.dma[ch]
  if !d.dmaBusy ch then d
  else if c.linking then (if inHost (d.dmaLink ch) then d.dmaStopAt ch 3 (d.dmaLink ch) else d)
  else if 0 < c.asked ∧ inHost c.src then d.dmaStopAt ch 3 c.src
  else if 0 < c.inFlight ∧ inHost (d.dmaDst ch) ∧ (c.left = 0 ∨ c.failing.isSome) then
    d.dmaAnswer ch c.inFlight (some 3)
  else d

end Sys2Proof.Machine
end

