-- ==== Sys2Proof/Machine/Ens.lean ====
section
/-! DEFINITION. The ensemble link engine: frames and acknowledgements, heartbeats, failover, membership, the directory,
forwarded packets, loss of the manager, time, and MDIO (13_ensemble.md). Remote reads and writes served here are in
Access.lean. -/

namespace Sys2Proof.Machine

def allPorts : List Port := [0, 1]

/-! ### Receiving sequenced frames (R322, R324, R326-R329) -/

/-- A discarded frame counts in DROP. -/
def Dev.dropFrame (d : Dev) : Dev := d.bump rEnsCounts 24 8

/-- The retransmission timeout in ns: RTO, four times it while the PATH_LOST chain says so (R333). -/
def Dev.rtoNs (d : Dev) : Nat := d.fld rLinkCfg 12 8 * 1000 * (if d.ens.slowRto then 4 else 1)

/-- A frame beyond the expected SEQ: an ACK with GAP, at most once per RTO (R327). -/
def Dev.gapAck (d : Dev) (id : Nat) : Dev :=
  let now := d.beats
  match (d.peer id).gapSent with
  | some t => if (now - t) * 1250 < d.rtoNs then d else (d.onPeer id fun p => { p with gapSent := some now }).sendAck id true false
  | none => (d.onPeer id fun p => { p with gapSent := some now }).sendAck id true false

/-- The directory a member holds is part of what it is waiting to have acknowledged. -/
def Payload.isDirectory : Payload → Bool
  | .directory _ => true
  | _ => false

/-- Frames of the directory to a peer are not acknowledged yet. -/
def Dev.dirPending (d : Dev) (id : Nat) : Bool :=
  let p := d.peer id
  (p.unacked.any fun f => f.load.isDirectory) || p.queue.any Payload.isDirectory

/-- Check and order a sequenced frame: whether its payload is delivered. -/
def Dev.frameIn (d : Dev) (f : FrameHdr) : Dev × Bool :=
  if d.role = 0 ∨ f.dst.toNat ≠ d.deviceId then (d, false)
  else if !f.macOk ∨ f.version ≠ 1 then (d.dropFrame, false)
  else
    let id := f.src.val
    let d := if f.ackv then d.ackUpTo id f.ack.toNat else d
    let p := d.peer id
    if f.seq.toNat = p.rxNext then
      let d := d.onPeer id fun p => { p with rxNext := (p.rxNext + 1) % 2 ^ 32, since := p.since + 1, gapSent := none,
                                              firstIn := if p.since = 0 then d.beats else p.firstIn }
      (if d.fld rLinkCfg 24 5 ≤ (d.peer id).since then d.sendAck id false false else d, true)
    else if seqLe f.seq.toNat p.rxNext then (d.sendAck id false true, false)
    else (d.gapAck id, false)

/-- So many ns can have passed since beat `t`: an event stands somewhere in its beat. -/
def Dev.passed (d : Dev) (t ns : Nat) : Bool := decide (ns ≤ (d.beats + 1 - t) * 1250)

/-- 2 µs have passed since the first frame not acknowledged (R327). -/
def execAckTimer (peer : DevId) (s : State) : Host.Outcome State Fault Refusal :=
  .next (s.onDev fun d =>
    let p := d.peer peer.val
    if p.since = 0 ∨ !d.passed p.firstIn 2000 ∨ d.engineHalted 7 then d else d.sendAck peer.val false false)

/-- The oldest unacknowledged frame has waited RTO (R329). -/
def execRtoExpiry (peer : DevId) (s : State) : Host.Outcome State Fault Refusal :=
  .next (s.onDev fun d =>
    match (d.peer peer.val).unacked with
    | [] => d
    | f :: _ => if !d.passed f.sentIn d.rtoNs ∨ d.engineHalted 7 then d else (d.resend peer.val).gcnt 0x18)

/-! ### Remote accesses issued here (R16, R325) -/

/-- One request frame for a master, under a tag of its own. -/
def Dev.issuePart (d : Dev) (m : Master) (dev off len : Nat) (data : Option (List Byte)) : Dev :=
  let tag := d.ens.nextTag
  let op : RemoteOp := { tag, m, dev, write := data.isSome, off, len }
  let d := { d with ens.nextTag := (tag + 1) % 65536, ens.remote := d.ens.remote ++ [op] }
  d.sendFrame dev (match data with
    | some bs => .writeReq tag off bs (d.fld rRwin 0 2)
    | none => .readReq tag (off / 4 * 4) ((off % 4 + len + 3) / 4 * 4) (d.fld rRwin 0 2))

/-- Send a remote read or write for a master: registers 4 bytes at a time, else at most 8,224 bytes (R325). -/
def Dev.issueParts (m : Master) (dev : Nat) (data : Option (List Byte)) : Nat → Dev → Nat → Nat → Dev
  | 0, d, _, _ => d
  | fuel + 1, d, off, len =>
    if len = 0 then d
    else
      let reg := decide (off < 0x200_0000) || (decide (0x280_0000 ≤ off) && decide (off < 0x400_0000))
      let n := min len (if reg then 4 - off % 4 else 8220)
      let d := d.issuePart m dev off n (data.map (List.take n))
      Dev.issueParts m dev (data.map (List.drop n)) fuel d (off + n) (len - n)

def Dev.issueRemote (d : Dev) (m : Master) (dev off len : Nat) (data : Option (List Byte)) : Dev :=
  Dev.issueParts m dev data (len / 4 + 2) d off len

/-- Take the remote access that an answer names. -/
def Dev.takeRemote (d : Dev) (dev tag : Nat) (write : Bool) : Option (Dev × RemoteOp) :=
  match d.ens.remote.find? fun o => o.dev == dev && o.tag == tag && o.write == write with
  | some o => some ({ d with ens.remote := d.ens.remote.erase o }, o)
  | none => none

/-- A remote access failed: the requester acts under R20 and R318. -/
def Dev.remoteFailed (d : Dev) (o : RemoteOp) (code : Nat) : Dev :=
  match o.m with
  | .core c => d.emit (.accessFault (.core c) o.write)
  | .dma ch => if o.write then d.dmaAnswer ch o.len (some code) else d.dmaStopAt ch code d.dma[ch].src
  | .host => d.emit (if o.write then .discarded .host else .completerAbort .host)
  | .jtag => { d.emit (if o.write then .discarded .jtag else .data .jtag [0, 0, 0, 0]) with top.jtagErr := true }
  | m => d.emit (.discarded m)

/-! ### The directory as records (R338-R342) -/

/-- The record of one entry. -/
def State.dirRecord (s : State) (table i : Nat) : State × DirRecord :=
  let (s, bs) := s.dirRead (dirEntryOff table i) (dirEntrySize table)
  (s, { table := Fin.ofNat 4 table, index := i, entry := bs })

/-- DRAM offsets where something other than zeros may be read: stored codewords, merge entries and cached lines. -/
def State.touched (s : State) : List Nat :=
  (s.mem.dram.filterMap fun c => s.dev.dramOffset c.1) ++
    ((s.mem.merge.map fun (e : MergeEntry) => e.line * 64) ++
      s.mem.lines.map fun (l : Nat × CLine) => lineOff l.1 l.2).flatMap fun o => (List.range 8).map fun w => o + 8 * w

/-- The entries of a table, of n, whose bytes may be other than zeros, in ascending order. -/
def State.touchedEntries (s : State) (table n : Nat) : List Nat :=
  -- either alias of the DRAM reaches an offset
  let base := s.dev.dirBase + dirEntryOff table 0
  let size := dirEntrySize table
  let put (l : List (Nat × Bool)) (a : Nat) : List (Nat × Bool) :=
    if base ≤ a + 7 ∧ (a - base) / size < n then sput (sput l ((a - base) / size) true) ((a + 7 - base) / size) true else l
  let l := s.touched.foldl (fun l o => put (put l (0x20_0000_0000 + o)) (0x40_0000_0000 + o)) []
  (l.map (·.1)).filter fun i => i < n

/-- The records of the entries of a table that are in use: every member entry, defined namespaces, extents with an
NSID. -/
def State.tableRecords (s : State) (table n : Nat) : State × List DirRecord :=
  let is := if table = 1 then List.range n else s.touchedEntries table n
  let (s, rs) := is.foldl (fun (p : State × List DirRecord) i =>
    let (s, r) := p.1.dirRecord table i
    let used := if table = 1 then true else if table = 2 then bytesField r.entry 2 2 % 2 == 1 else bytesField r.entry 0 2 != 0
    (s, if used then r :: p.2 else p.2)) (s, [])
  (s, rs.reverse)

def State.allRecords (s : State) : State × List DirRecord :=
  let (s, a) := s.tableRecords 1 1024
  let (s, b) := s.tableRecords 2 65536
  let (s, c) := s.tableRecords 3 262144
  (s, a ++ b ++ c)

/-- Cut records into frames of at most 54 (R341); there is at least one frame. -/
def dirFrames (epoch : Nat) (full reply : Bool) (rs : List DirRecord) : List DirFrame :=
  let parts := if rs.isEmpty then [[]] else chunks 54 rs.length rs
  parts.zipIdx.map fun p =>
    { epoch := BitVec.ofNat 32 epoch, part := p.2, last := p.2 + 1 == parts.length, full, pull := false, reply,
      records := p.1 }

def Dev.sendDir (d : Dev) (id : Nat) (fs : List DirFrame) : Dev := d.each fs fun d f => d.sendFrame id (.directory f)

/-- Set the epoch in the register and in the header of this copy. -/
def State.setEpoch (s : State) (e : Nat) : State :=
  (s.onDev fun d => d.wr rEpoch (BitVec.ofNat 32 e)).dirWrite 4 (leBytes 4 e)

/-- What this device derives from the tables: extents in use, its own member namespaces, members (R338, R354). -/
def State.recount (s : State) : State :=
  let (s, es) := s.tableRecords 3 262144
  let own := s.dev.deviceId
  let ns := es.flatMap fun r => ((extentOf r.entry).members.filter fun m => memDev m == own && memNsid m != 0).map memNsid
  let s := s.onDev fun d => { d.setF rDirCtl 4 19 es.length with ens.memberNs := ns.eraseDups }
  let (s, ms) := s.tableRecords 1 1024
  let n := (ms.filter fun r => let st := bytesField r.entry 0 1; st == 1 || st == 2).length
  let (s, nss) := s.tableRecords 2 65536
  -- the header of this copy: MAGIC, NAMESPACES and EXTENTS
  let s := (s.dirWrite 0 (leBytes 4 0x5249_445A)).dirWrite 12 (leBytes 4 nss.length ++ leBytes 4 es.length)
  s.onDev fun d => if d.role = 2 then d.setF rEnsStat 16 11 n else d

/-- The devices that receive the directory: every other member (R339). -/
def State.others (s : State) : State × List Nat :=
  let (s, ms) := s.tableRecords 1 1024
  (s, (ms.filter fun r => let st := bytesField r.entry 0 1; (st == 1 || st == 2) && r.index != s.dev.deviceId).map
    DirRecord.index)

/-! ### Members lost and rejoined (R326, R329, R348, R350) -/

/-- A peer's commands run on as under a QUEUE_RESET, with no STATUS sent (R350, "When members and paths fail"). -/
def Dev.silencePeer (d : Dev) (id : DevId) : Dev :=
  let src := CmdSrc.peer id
  let d := { d with hq.cmds := d.hq.cmds.map fun (c : Cmd) => if c.src = src then { c with silent := true } else c }
  let mine := d.hq.cmds.filter fun c => c.src == src && (if isRw c.op then !c.acked else !c.started)
  let d := d.each mine fun d c => d.complete c 0x11
  { d with hq.entries := d.hq.entries.filter fun e => e.1 != src }

/-- Sub-commands outstanding on devices that are gone, or waiting to be sent to them, end with RETRY, and the commands go on
(R348, R350). -/
def State.failSubs (s : State) (gone : Nat → Bool) : State :=
  let hit (u : Sub) : Bool := (u.state == 0 || u.state == 1) && gone u.dev
  let cs := s.dev.hq.cmds.filter fun c => c.subs.any hit
  cs.foldl (fun s c =>
    let c := { c with subs := c.subs.map fun (u : Sub) => if hit u then { u with state := 3, status := 0x51 } else u }
    let s := s.onDev fun d => d.setCmd c
    if c.op = 0x10 ∨ c.op = 0x12 then (s.fwdReadOn c).onDev Dev.settle else s.onDev Dev.settle) s

/-- Remote accesses to devices that are gone fail at once (R16). -/
def Dev.failRemote (d : Dev) (gone : Nat → Bool) : Dev :=
  let os := d.ens.remote.filter fun o => gone o.dev
  ({ d with ens.remote := d.ens.remote.filter fun o => !gone o.dev }).each os fun d o => d.remoteFailed o 3

/-- The directory marks a device lost (R329, R348). -/
def State.memberLost (s : State) (id : Nat) : State :=
  (s.onDev fun d => (d.dropPeer id).failRemote (· == id)).failSubs (· == id)

/-- A device joins again after a reset or a loss: its sequence spaces start anew, its commands run on in silence. -/
def Dev.memberBack (d : Dev) (id : Nat) : Dev :=
  ({ d with ens.peers := sdel d.ens.peers id }).silencePeer (Fin.ofNat 1024 id)

/-- Apply one record: a member entry's change of state has its consequences. -/
def State.applyRecord (s : State) (r : DirRecord) : State :=
  let (s, old) := if r.table = 1 then s.memberState r.index else (s, 0)
  let s := s.dirWrite (dirEntryOff r.table.val r.index) r.entry
  if r.table ≠ 1 then s
  else
    let new := bytesField r.entry 0 1
    if r.index = s.dev.deviceId then s.onDev fun d => d.setB rEnsStat 4 (new == 1 || new == 2)
    else if new = 3 ∧ old ≠ 3 then s.memberLost r.index
    else if new = 1 ∧ (old = 0 ∨ old = 3) then s.onDev fun d => d.memberBack r.index
    else s

/-! ### The manager's side (R336, R339, R348) -/

/-- Mark the members of every extent that lie on a device STALE (R348). -/
def State.staleOn (s : State) (id : Nat) : State :=
  let (s, es) := s.tableRecords 3 262144
  es.foldl (fun s r =>
    let ms := (extentOf r.entry).members
    if ms.any fun m => memDev m == id && memNsid m != 0 && !memStale m then
      let new := ms.flatMap fun m => leBytes 8 (if memDev m = id ∧ memNsid m ≠ 0 ∧ !memStale m then m + 2 ^ 48 else m)
      (s.dirWrite (dirEntryOff 3 r.index + 32) new).onDev fun d => { d with ens.changes := d.ens.changes ++ [(3, r.index)] }
    else s) s

/-- Raise the epoch and send the changes to every member; devices in `whole` get the whole directory (R336, R339). -/
def State.distribute (s : State) (listed : List (Fin 4 × Nat)) (whole : List Nat) : State :=
  let s := s.setEpoch ((s.dev.epoch + 1) % 2 ^ 32)
  let ch := (s.dev.ens.changes ++ listed).eraseDups
  let (s, rs) := ch.foldl (fun (p : State × List DirRecord) c =>
    let (s, r) := p.1.dirRecord c.1.val c.2
    (s, p.2 ++ [r])) (s, [])
  -- a member marked lost comes before any other change
  let lost (r : DirRecord) : Bool := r.table == 1 && bytesField r.entry 0 1 == 3
  let rs := rs.filter lost ++ rs.filter fun r => !lost r
  let (s, ids) := s.others
  let (s, all) := if whole.isEmpty then (s, []) else s.allRecords
  let e := s.dev.epoch
  let s := s.onDev fun d => d.each ids fun d id =>
    d.sendDir id (if whole.contains id then dirFrames e true false all else dirFrames e false false rs)
  (s.onDev fun d => { d.setB rDirCtl 1 true with ens.distributing := ids, ens.changes := [] }).recount

/-- Distribution goes on as acknowledgements come in: BUSY clears once every member has them, and the manager's own
changes that came up meanwhile follow (R339). -/
def State.dirSettle (s : State) : State :=
  if !s.dev.flag rDirCtl 1 ∨ !s.dev.ens.pulling.isEmpty then s
  else
    let s := s.onDev fun d => { d with ens.distributing := d.ens.distributing.filter fun id => d.dirPending id }
    if !s.dev.ens.distributing.isEmpty then s
    else
      let s := (s.dirWrite 8 (leBytes 2 0)).onDev fun d => d.setB rDirCtl 1 false
      if s.dev.ens.changes.isEmpty then s else s.distribute [] []

/-- The manager changes a member's state; the change goes out with the next epoch. -/
def State.noteMember (s : State) (id st : Nat) (whole : List Nat) : State :=
  let s := s.dirWrite (dirEntryOff 1 id) (leBytes 1 st ++ (s.dirRead (dirEntryOff 1 id + 1) 1).2 ++ leBytes 2 id)
  let s := s.onDev fun d => { d with ens.changes := d.ens.changes ++ [(1, id)] }
  if s.dev.flag rDirCtl 1 ∧ whole.isEmpty then s else (s.distribute [] whole).dirSettle

/-- The manager marks a member lost (R336). -/
def State.markLost (s : State) (id : Nat) : State :=
  let s := s.onDev fun d => (d.post 0x0170 7 id d.epoch 0 0).gcnt 0x1A
  let s := (s.memberLost id).staleOn id
  s.noteMember id 3 []

/-- ENS_DIR_CTL.COMMIT (R339). -/
def State.dirCommit (s : State) : State :=
  if s.dev.role ≠ 2 ∨ s.dev.flag rDirCtl 1 then s
  else
    let (s, n) := s.dirRead 8 2
    let (s, bs) := s.dirRead 0x40 (8 * min (leNat n) 504)
    let listed := (List.range (min (leNat n) 504)).map fun i =>
      ((Fin.ofNat 4 (bytesField bs (8 * i) 1) : Fin 4), bytesField bs (8 * i + 4) 4)
    (s.distribute (listed.filter fun c => c.1 != 0) []).dirSettle

def execDirCommit (_m : Master) (s : State) : Host.Outcome State Fault Refusal := .next s.dirCommit

/-! ### Loss of the manager, and a new one (R342, R350-R352) -/

/-- A worker enters orphaned mode (R350). -/
def State.orphan (s : State) : State :=
  let s := s.onDev fun d =>
    let d := (d.setB rEnsStat 3 true).setB rEnsStat 4 false
    let d := (d.postFatal 0x0171 7 d.managerId d.epoch 0 0).gcnt 0x1B
    let d := { d with ens.peers := d.ens.peers.map fun p => (p.1, { p.2 with unacked := [], queue := [] }) }
    (List.range 1024).foldl (fun (d : Dev) id =>
      if d.hq.cmds.any fun c => c.src == .peer (Fin.ofNat 1024 id) then d.silencePeer (Fin.ofNat 1024 id) else d) d
  let own := s.dev.deviceId
  -- commands on an ensemble NSID with nothing outstanding end with NOT_READY
  let s := s.onDev fun d =>
    (d.failRemote (· != own)).each (d.hq.cmds.filter fun c => c.forwarded && !c.subs.any fun u => u.state == 1) fun d c =>
      d.complete c 0x40
  s.failSubs (· != own)

/-- The rebuild of a new manager ends: the epoch rises above every one heard, and the whole directory goes out (R342,
R351). -/
def State.rebuildEnd (s : State) : State :=
  if !s.dev.ens.pulling.isEmpty then s
  else
    let top := s.dev.ens.heard.foldl (fun m h => max m h.2.epoch) s.dev.epoch
    let top := s.dev.ens.pullBest.foldl (fun m b => max m b.2.1) top
    let s := (s.setEpoch top).onDev fun d => { d with ens.pullBest := [] }
    let (s, ids) := s.others
    (s.distribute [] ids).dirSettle

/-- ENS_MGR_CTL.TAKE (R351). -/
def State.take (s : State) : State :=
  let d := s.dev
  if !(d.orphaned ∨ d.role = 0) then s.onDev fun d => d.setB rMgrCtl 1 true
  else
    let own := d.deviceId
    let ids := (d.ens.heard.map (·.1)).filter (· != own)
    let s := s.onDev fun d =>
      let d := ((d.setF rEnsCfg 0 2 2).setF rEnsCfg 16 10 own).setB rEnsStat 3 false
      { (d.setB rEnsStat 4 true).setB rDirCtl 1 true with
        ens.peers := [], ens.pulling := ids, ens.pullAt := d.beats, ens.pullBest := [], ens.changes := [], ens.distributing := [] }
    -- the member table from heartbeats
    let s := (List.range 1024).foldl (fun s id =>
      s.dirWrite (dirEntryOff 1 id) (leBytes 1 (if id = own ∨ ids.contains id then 1 else 0) ++
        leBytes 1 (b2n (id == own)) ++ leBytes 2 id)) s
    let e := s.dev.epoch
    let s := s.onDev fun d => d.each ids fun d id => d.sendFrame id (.directory
      { epoch := BitVec.ofNat 32 e, part := 0, last := true, full := false, pull := true, reply := false, records := [] })
    s.rebuildEnd

def execTake (_m : Master) (s : State) : Host.Outcome State Fault Refusal := .next s.take

/-- A member has not answered a pull within 100 ms (R342). -/
def execDirPullTimeout (member : DevId) (s : State) : Host.Outcome State Fault Refusal :=
  .next (if s.dev.ens.pulling.contains member.val ∧ s.dev.passed s.dev.ens.pullAt 100_000_000 then
    (s.onDev fun d => { d with ens.pulling := d.ens.pulling.erase member.val }).rebuildEnd
  else s)

/-- A record of a pull's reply: the copy of the highest epoch stays, on equal epochs that of the lowest device ID. -/
def State.pullRecord (s : State) (id epoch : Nat) (r : DirRecord) : State :=
  if r.table = 1 then s
  else
    let key : Fin 4 × Nat := (r.table, r.index)
    let best := (s.dev.ens.pullBest.find? fun b => b.1 == key).map (·.2)
    let better := match best with
      | some (e, i) => decide (e < epoch) || (e == epoch && decide (id < i))
      | none => decide (s.dev.epoch < epoch) || (s.dev.epoch == epoch && decide (id < s.dev.deviceId)) ||
          bytesField (s.dirRead (dirEntryOff r.table.val r.index) 4).2 0 4 == 0
    if !better then s
    else (s.dirWrite (dirEntryOff r.table.val r.index) r.entry).onDev fun d =>
      { d with ens.pullBest := (key, (epoch, id)) :: d.ens.pullBest.filter fun b => b.1 != key }

/-- A worker applies an epoch's records once its last frame has come (R339, R341, R342). -/
def State.applyDir (s : State) (id : Nat) (f : DirFrame) : State :=
  let fits := f.full || f.epoch.toNat == (s.dev.epoch + 1) % 2 ^ 32
  if !fits then s.onDev fun d => d.onPeer id fun p => { p with parts := [] }
  else
    let parts := (if f.part = 0 then [] else (s.dev.peer id).parts) ++ f.records
    let s := s.onDev fun d => d.onPeer id fun p => { p with parts := if f.last then [] else parts }
    if !f.last then s
    else
      -- a whole directory replaces the namespace and extent tables of the copy
      let s := if f.full then
          let (s, ns) := s.tableRecords 2 65536
          let (s, es) := s.tableRecords 3 262144
          (ns ++ es).foldl (fun s r => s.dirWrite (dirEntryOff r.table.val r.index)
            (List.replicate (dirEntrySize r.table.val) 0)) s
        else s
      ((parts.foldl (fun s r => s.applyRecord r) s).setEpoch f.epoch.toNat).recount

/-- A DIRECTORY frame arrives (R341, R342). -/
def State.directoryIn (s : State) (id : Nat) (f : DirFrame) : State :=
  if f.pull then
    let (s, all) := s.allRecords
    let e := s.dev.epoch
    s.onDev fun d => d.sendDir id (dirFrames e true true all)
  else if f.reply then
    if !s.dev.ens.pulling.contains id then s
    else
      let s := f.records.foldl (fun s r => s.pullRecord id f.epoch.toNat r) s
      if f.last then (s.onDev fun d => { d with ens.pulling := d.ens.pulling.erase id }).rebuildEnd else s
  else if id ≠ s.dev.managerId ∨ s.dev.role ≠ 1 then s.onDev Dev.dropFrame
  else s.applyDir id f

def execDirectory (f : FrameHdr) (fr : DirFrame) (s : State) : Host.Outcome State Fault Refusal :=
  let (d, ok) := s.dev.frameIn f
  let s := { s with dev := d }
  .next ((if ok then s.directoryIn f.src.val fr else s).dirSettle)

/-- An ACK packet arrives (R327-R329). -/
def execAck (_port : Port) (src : DevId) (gap _repeated : Bool) (ackSeq _expected _epoch : BitVec 32) (s : State) :
    Host.Outcome State Fault Refusal :=
  .next (if s.dev.role = 0 then s
    else (s.onDev fun d =>
      let d := d.ackUpTo src.val ackSeq.toNat
      if gap ∧ !(d.peer src.val).unacked.isEmpty then (d.resend src.val).gcnt 0x18 else d).dirSettle)

/-! ### Heartbeats and paths (R330-R334) -/

/-- The port's role in ENS_PORTp_STAT and UNDERSTUDY in ENS_STAT (R354). -/
def Dev.showPaths (d : Dev) : Dev :=
  let code (d : Dev) (p : Port) : Nat :=
    match d.ens.portState[p] with
    | 0 => if p = d.activePort then 1 else 2
    | 1 => 0
    | _ => 3
  let d := d.each allPorts fun d p => d.setF (rPortStat p) 2 2 (code d p)
  let o := otherPort d.activePort
  d.setF rEnsStat 1 2 (match d.ens.portState[o] with | 0 => 2 | 1 => 0 | _ => 1)

/-- What is held about a sender. -/
def Dev.heardOf (d : Dev) (id : Nat) : Heard :=
  sget d.ens.heard { epoch := 0, missA := 0, missB := 0, lastA := none, lastB := none, manager := false } id
def Dev.setHeard (d : Dev) (id : Nat) (h : Heard) : Dev := { d with ens.heard := sput d.ens.heard id h }

/-- The HEARTBEAT this device sends (R330). With FAILOVER its ACTIVE names the plane that is to become active. -/
def Dev.heartbeatOf (d : Dev) (port : Port) (failover doze : Bool) : HeartbeatPkt :=
  let h := d.heardOf d.managerId
  let side (x : Side) : SideState := d.sides[x]
  let word := d.mode + d.fld 0xF0_0000 0 2 * 4 + b2n (side 0).mounted * 16 + b2n (side 1).mounted * 32 +
    b2n ((side 0).takeover || (side 1).takeover) * 64
  { port, src := Fin.ofNat 1024 d.deviceId, manager := d.role == 2, doze, orphan := d.orphaned, failover,
    join := d.role == 1 && !d.orphaned && !d.flag rEnsStat 4, active := if failover then otherPort d.activePort else d.activePort,
    missA := Fin.ofNat 16 (min h.missA 15), missB := Fin.ofNat 16 (min h.missB 15),
    count := BitVec.ofNat 16 d.ens.hbCount, epoch := BitVec.ofNat 32 d.epoch, stateWord := BitVec.ofNat 32 word,
    discId := if (side 0).mounted then (side 0).discId else if (side 1).mounted then (side 1).discId else 0,
    fwdUse := BitVec.ofNat 32 ((d.fwdUse + 65535) / 65536) }

/-- Send a HEARTBEAT on the given ports; COUNT counts the heartbeats sent. -/
def Dev.sendHeartbeat (d : Dev) (ports : List Port) (failover doze : Bool) : Dev :=
  let d := d.each ports fun d p => d.emit (.heartbeat p.val (d.heartbeatOf p failover doze))
  { d with ens.hbCount := (d.ens.hbCount + 1) % 65536 }

/-- PERIOD in ns. -/
def Dev.hbPeriod (d : Dev) : Nat := d.fld rHbCfg 0 8 * 1000

/-- PERIOD has passed: a heartbeat on both ports. -/
def execHeartbeatSend (s : State) : Host.Outcome State Fault Refusal :=
  .next (s.onDev fun d =>
    let due : Bool := match d.ens.hbSent with
      | some t => d.passed t d.hbPeriod
      | none => true
    if d.role = 0 ∨ !due ∨ d.engineHalted 7 then d
    else { d.sendHeartbeat allPorts false false with ens.hbSent := some d.beats })

/-- PATH_LOST for the active plane (R332): the notice goes out on the understudy. -/
def Dev.pathLost (d : Dev) (notify : Bool) : Dev :=
  let p := d.activePort
  let line : Fin 256 := if p = 0 then 28 else 29
  if d.chainRuns line ∨ d.cue.pending.any fun e => e.line == line then d
  else
    let d := (d.gcnt 0x19).raise line 7 (rPortStat p) (d.rd (rPortStat p)).toNat 0 0
    let n := if d.role = 2 then 3 else if notify then 1 else 0
    d.each (List.range n) fun d _ => d.sendHeartbeat [otherPort p] true false

/-- The PATH_LOST chain at its start (R333): the understudy becomes the active path, and every unacknowledged frame is
sent again. With no understudy there is no failover. -/
def Dev.pathLostChain (d : Dev) (p : Port) : Dev :=
  let o := otherPort p
  if d.activePort ≠ p ∨ d.ens.portState[o] = 1 then d
  else
    let d := { d with ens.portState := (d.ens.portState.set p 1).set o 0, ens.slowRto := true }
    let d := (d.setB rEnsStat 0 (o == 1)).bump rEnsStat 8 8
    (d.each (d.ens.peers.map (·.1)) Dev.resend).showPaths

/-- The chain's end: RTO is itself again. -/
def Dev.pathLostEnd (d : Dev) : Dev := { d with ens.slowRto := false }

/-- A port loses block lock, alignment or RS-FEC lock. -/
def execPcsLockLoss (port : Port) (s : State) : Host.Outcome State Fault Refusal :=
  .next (s.onDev fun d =>
    if d.role = 0 then d
    else
      let d := d.setB (rPortStat port) 0 false
      if port = d.activePort then d.pathLost true
      else ({ d with ens.portState := d.ens.portState.set port 1 }).showPaths)

/-- A port's link returns: the plane retrains, or carries the active path on (R334). -/
def execLinkReturn (port : Port) (s : State) : Host.Outcome State Fault Refusal :=
  .next (s.onDev fun d =>
    if d.role = 0 then d
    else
      let st := if port = d.activePort then 0 else if d.ens.portState[port] = 1 then 2 else d.ens.portState[port]
      ({ d.setB (rPortStat port) 0 true with
          ens.portState := d.ens.portState.set port st,
          ens.cleanFrom := if st = 2 then d.ens.cleanFrom.set port d.beats else d.ens.cleanFrom }).showPaths)

def Heard.miss (h : Heard) (p : Port) : Nat := if p = 0 then h.missA else h.missB
def Heard.setMiss (h : Heard) (p : Port) (n : Nat) : Heard := if p = 0 then { h with missA := n } else { h with missB := n }
def Heard.last (h : Heard) (p : Port) : Option Nat := if p = 0 then h.lastA else h.lastB
def Heard.setLast (h : Heard) (p : Port) (t : Nat) : Heard :=
  if p = 0 then { h with lastA := some t } else { h with lastB := some t }

/-- The senders this device watches (R331): the manager's are the members, a worker's is the manager. -/
def State.watched (s : State) : State × List Nat :=
  if s.dev.role ≠ 2 then (s, [s.dev.managerId])
  else
    let (s, ms) := s.tableRecords 1 1024
    (s, (ms.filter fun r => bytesField r.entry 0 1 == 1 && r.index != s.dev.deviceId).map DirRecord.index)

/-- The watched heartbeats have come on the retraining plane for CLEAN without a miss: it is the understudy (R334). -/
def State.understudyClean (s : State) (port : Port) : State :=
  let d := s.dev
  if d.ens.portState[port] ≠ 2 ∨ !d.passed d.ens.cleanFrom[port] (d.fld rHbCfg 16 12 * 1_000_000) then s
  else
    let (s, ids) := s.watched
    let heard (id : Nat) : Bool := match (s.dev.heardOf id).last port with
      | some t => decide (s.dev.ens.cleanFrom[port] ≤ t) && (s.dev.heardOf id).miss port == 0
      | none => false
    if ids.all heard then
      s.onDev fun d => ({ d with ens.portState := d.ens.portState.set port 0 }).showPaths
    else s

def execUnderstudyClean (port : Port) (s : State) : Host.Outcome State Fault Refusal := .next (s.understudyClean port)

/-- The k-th heartbeat in a row is missed k PERIOD + 10 µs after the last one on that port (R331). -/
def Dev.missDue (d : Dev) (h : Heard) (p : Port) : Bool :=
  match h.last p with
  | some t => d.passed t ((h.miss p + 1) * d.hbPeriod + 10_000)
  | none => true

/-- HB_MISS: the manager's, or on the manager the largest over the members (R354). -/
def Dev.showMisses (d : Dev) (p : Port) : Dev :=
  let n := if d.role = 2 then d.ens.heard.foldl (fun m h => max m (h.2.miss p)) 0 else (d.heardOf d.managerId).miss p
  d.setF (rPortStat p) 4 4 (min n 15)

/-- A heartbeat from a sender is missing on a port (R331, R332, R336, R350). -/
def State.heartbeatMissed (s : State) (port : Port) (id : Nat) : State :=
  let d := s.dev
  let lim := d.fld rHbCfg 8 4
  let h := (d.heardOf id).setMiss port ((d.heardOf id).miss port + 1)
  let p := d.activePort
  -- a miss on a retraining plane restarts its CLEAN count
  let note (d : Dev) : Dev :=
    ({ d with ens.cleanFrom := d.ens.cleanFrom.set port d.beats }.setHeard id h).showMisses port
  let both := decide (lim ≤ h.missA) && decide (lim ≤ h.missB)
  let onActive := decide (lim ≤ h.miss p) && h.miss (otherPort p) == 0
  if !d.missDue (d.heardOf id) port then s
  else if d.role = 2 then
    let (s, st) := s.memberState id
    if st ≠ 1 then s
    else
      let s := s.onDev note
      if both then s.markLost id
      else if onActive then s.onDev fun d => d.pathLost false else s
  else if d.role = 1 ∧ id = d.managerId ∧ !d.orphaned then
    let s := s.onDev note
    if both then s.orphan else if onActive then s.onDev fun d => d.pathLost true else s
  else s

def execHeartbeatMissed (port : Port) (sender : DevId) (s : State) : Host.Outcome State Fault Refusal :=
  .next (s.heartbeatMissed port sender.val)

/-- The manager takes a member's fields from its heartbeat (R338, R340). -/
def State.noteHeartbeat (s : State) (hb : HeartbeatPkt) : State :=
  let id := hb.src.val
  let a := dirEntryOff 1 id
  let h := s.dev.heardOf id
  let s := s.dirWrite (a + 1) (leBytes 1 (b2n hb.manager + 2 * b2n hb.orphan + 4 * b2n (hb.stateWord.getLsbD 6)))
  let s := s.dirWrite (a + 4) (leBytes 4 hb.epoch.toNat)
  let s := s.dirWrite (a + 24) (leBytes 8 hb.discId.toNat ++ leBytes 4 hb.stateWord.toNat ++ leBytes 4 hb.fwdUse.toNat)
  s.dirWrite (a + 44) (leBytes 2 hb.count.toNat ++ leBytes 1 (min h.missA 15 + min h.missB 15 * 16))

/-- The manager hears a member or a joiner. -/
def State.managerHears (s : State) (hb : HeartbeatPkt) : State :=
  let id := hb.src.val
  let s := s.noteHeartbeat hb
  let (s, st) := s.memberState id
  if hb.join then
    if (st = 1 ∨ st = 2) ∧ s.dev.dirPending id then s
    else (s.onDev fun d => d.memberBack id).noteMember id 1 [id]
  else if hb.doze then if st = 1 then s.noteMember id 2 [] else s
  else
    let s := if st = 2 then s.noteMember id 1 [] else s
    -- a member behind the manager asks for the whole directory (R339, R342)
    if (st = 1 ∨ st = 2) ∧ hb.epoch.toNat ≠ s.dev.epoch ∧ !s.dev.dirPending id then
      let (s, all) := s.allRecords
      let e := s.dev.epoch
      s.onDev fun d => d.sendDir id (dirFrames e true false all)
    else s

/-- This manager's claim falls: it becomes a worker of the other and discards its directory (R352). -/
def Dev.yieldClaim (d : Dev) (id : Nat) : Dev :=
  let d := ((d.setF rEnsCfg 0 2 1).setF rEnsCfg 16 10 id).setB rEnsStat 4 false
  { (d.wr rEpoch 0).setB rDirCtl 1 false with
    ens.changes := [], ens.distributing := [], ens.pulling := [], ens.pullBest := [], ens.peers := [] }

/-- A HEARTBEAT arrives (R330-R332, R336, R337, R351, R352). -/
def State.heartbeat (s : State) (hb : HeartbeatPkt) : State :=
  let id := hb.src.val
  if s.dev.role = 0 ∨ id = s.dev.deviceId then s
  else
    let s := s.onDev fun d =>
      (d.setHeard id { ((d.heardOf id).setMiss hb.port 0).setLast hb.port d.beats with
          epoch := hb.epoch.toNat, manager := hb.manager }).showMisses
        hb.port
    if s.dev.role = 2 then
      if hb.manager then
        let e := s.dev.epoch
        if e < hb.epoch.toNat ∨ (e = hb.epoch.toNat ∧ id < s.dev.deviceId) then s.onDev fun d => d.yieldClaim id else s
      else
        let s := s.managerHears hb
        if hb.failover ∧ hb.active ≠ s.dev.activePort then s.onDev fun d => d.pathLost false
        else s
    else if !hb.manager then s
    else if s.dev.orphaned then
      s.onDev fun d => { (d.setB rEnsStat 3 false).setF rEnsCfg 16 10 id with ens.peers := [] }
    else if id ≠ s.dev.managerId then s
    else if hb.failover ∧ hb.active ≠ s.dev.activePort then s.onDev fun d => d.pathLost false
    else s

def execHeartbeat (hb : HeartbeatPkt) (s : State) : Host.Outcome State Fault Refusal := .next (s.heartbeat hb)

/-! ### PACKETS (R325, R345, R349) -/

/-- The DATA_DESCRIPTOR with which the entry device answers a worker's offer (R345). -/
def descriptorBytes (tag offer dptr dlen : Nat) : List Byte :=
  pad64 (leBytes 1 3 ++ leBytes 1 8 ++ leBytes 2 0 ++ leBytes 2 tag ++ leBytes 2 offer ++ leBytes 8 dptr ++ leBytes 4 dlen)

/-- A worker's TRANSFER_READY for a sub-command: the entry device points it to the records. -/
def Dev.workerOffer (d : Dev) (id : Nat) (p : Slot) : Dev :=
  match d.hq.cmds.findSome? fun c => c.subs.find? fun u => u.dev == id && u.tag == pTag p && u.state == 1 with
  | none => d
  | some u =>
    let a := d.fwdWindow (u.region + 4112 * slotField p 8 4)
    d.sendFrame id (.packets [descriptorBytes u.tag.toNat (slotField p 6 2) a (slotField p 16 4)])

/-- A worker's DEFERRED_PENDING: mapped back to the ensemble LBA and its ring, or kept on the event ring (R349). What the
original status was, the event does not say. -/
def Dev.workerEvent (d : Dev) (id : Nat) (p : Slot) : Dev :=
  if slotField p 4 2 ≠ 1 then d
  else
    let lba := slotField p 8 8; let ns := slotField p 16 2
    let st := d.fresh % 256
    let d := d.drawn
    match d.hq.fwd.find? fun r => r.dev == id && r.nsid == ns && decide (r.loc ≤ lba) && decide (lba < r.loc + r.count) with
    | some r => d.deferOne r.src r.ensNsid (r.ensLba + (lba - r.loc)) 1 st
    | none => d.deferOne (.ring (Fin.ofNat 16 (d.fld rHqCtl 0 4))) ns lba 1 st

/-- One slot of a PACKETS frame. -/
def State.packetIn (s : State) (id : DevId) (p : Slot) : State :=
  match pType p with
  | 2 => s.onDev fun d => d.workerOffer id.val p
  | 4 => s.subStatus id.val p
  | 6 => s.onDev fun d => d.workerEvent id.val p
  | 7 => s.onDev Dev.dropFrame
  | 8 => s.onDev Dev.dropFrame
  | _ => s.takeEntry (.peer id) p

def execPackets (f : FrameHdr) (slots : List Slot) (s : State) : Host.Outcome State Fault Refusal :=
  let (d, ok) := s.dev.frameIn f
  let s := { s with dev := d }
  .next ((if ok then slots.foldl (fun s p => s.packetIn f.src p) s else s).dirSettle)

/-- A NAK arrives (R325). -/
def execNak (f : FrameHdr) (tag : BitVec 16) (err : Byte) (s : State) : Host.Outcome State Fault Refusal :=
  let (d, ok) := s.dev.frameIn f
  let s := { s with dev := d }
  .next ((if ok then s.onDev fun d =>
      let d := d.bump rEnsCounts 16 8
      match d.ens.remote.find? fun o => o.dev == f.src.val && o.tag == tag.toNat with
      | some o => ({ d with ens.remote := d.ens.remote.erase o }).remoteFailed o (if err = 2 then 4 else 3)
      | none => d
    else s).dirSettle)

/-! ### Time (R353) -/

/-- Step the ensemble time by a signed number of nanoseconds. -/
def Dev.stepTime (d : Dev) (x : Int) : Dev :=
  let t : Int := (d.sec : Int) * 1000000000 + d.ns + x
  { d with ns := (t % 1000000000).toNat, sec := (t / 1000000000 % 2 ^ 48).toNat }

/-- A PTP message (R353): a member measures its offset and disciplines its time; the manager answers delay requests. -/
def Dev.ptpMessage (d : Dev) (port : Port) (msg : PtpMsg) : Dev :=
  if d.role = 0 then d
  else
    let now : Int := (d.sec : Int) * 1000000000 + d.ns
    match msg with
    | .sync _ t2 => if d.role = 2 then d else { d with ens.ptpT2 := t2 }
    | .followUp t1 => if d.role = 2 then d else { d.emit (.ptp port.val 3 now) with ens.ptpT1 := t1 }
    | .delayReq _ => if d.role = 2 then d.emit (.ptp port.val 4 now) else d
    | .delayResp t3 t4 =>
      if d.role = 2 ∨ port ≠ d.activePort then d
      else
        let ofs := quot ((d.ens.ptpT2 - d.ens.ptpT1) - (t4 - t3)) 2
        (d.wr rPtpOfs (BitVec.ofNat 32 (uns 32 ofs))).stepTime (-ofs)

def execPtpMessage (port : Port) (msg : PtpMsg) (s : State) : Host.Outcome State Fault Refusal :=
  .next (s.onDev fun d => d.ptpMessage port msg)

/-- The manager sends a two-step Sync on both ports. -/
def execPtpSyncSend (s : State) : Host.Outcome State Fault Refusal :=
  .next (s.onDev fun d =>
    let now : Int := (d.sec : Int) * 1000000000 + d.ns
    let log : Int := sgn 4 (d.fld rPtpCfg 0 4)
    let period := if log < 0 then 1_000_000_000 / 2 ^ (-log).toNat else 1_000_000_000 * 2 ^ log.toNat
    let due : Bool := match d.ens.syncSent with
      | some t => d.passed t period
      | none => true
    if d.role = 2 ∧ due ∧ !d.engineHalted 7 then
      d.each allPorts (fun d p => (d.emit (.ptp p.val 1 now)).emit (.ptp p.val 2 now)) |> fun d =>
        { d with ens.syncSent := some d.beats }
    else d)

/-- A write of ENS_PTP_OFS steps the manager's time (R354). -/
def Dev.ptpOfsWrite (d : Dev) (v : W32) : Dev := if d.role = 2 then d.stepTime v.toInt else d

def execPtpOfsWrite (_m : Master) (v : W32) (s : State) : Host.Outcome State Fault Refusal :=
  .next (s.onDev fun d => d.ptpOfsWrite v)

/-! ### MDIO (R322, R354) -/

/-- A write of ENS_MDIO_CMD: GO starts a frame, except while BUSY and with OP 2. -/
def Dev.mdioCmd (d : Dev) (v : W32) : Dev :=
  let d := d.wr rMdioCmd (v &&& 0x0FFF_FFFF)
  if !v.getLsbD 31 ∨ d.flag rMdioStat 16 ∨ fget v 26 2 = 2 then d
  else
    let d := { d.setB rMdioStat 16 true with ens.mdio := some (v &&& 0x0FFF_FFFF) }
    d.emit (.mdio (fget v 26 2) (fget v 21 5) (fget v 16 5) (fget v 0 16))

/-- The command rows: GO with the OP of the row. -/
def mdioWord (v : W32) (op : Nat) : W32 := fset (fset v 26 2 op) 31 1 1

def execMdioAddress (_m : Master) (v : W32) (s : State) : Host.Outcome State Fault Refusal :=
  .next (s.onDev fun d => d.mdioCmd (mdioWord v 0))
def execMdioWrite (_m : Master) (v : W32) (s : State) : Host.Outcome State Fault Refusal :=
  .next (s.onDev fun d => d.mdioCmd (mdioWord v 1))
def execMdioRead (_m : Master) (v : W32) (s : State) : Host.Outcome State Fault Refusal :=
  .next (s.onDev fun d => d.mdioCmd (mdioWord v 3))

/-- The MDIO frame completes; a read's result is in DATA. -/
def execMdioDone (data : BitVec 16) (s : State) : Host.Outcome State Fault Refusal :=
  .next (s.onDev fun d =>
    match d.ens.mdio with
    | none => d
    | some v =>
      let d := { d.setB rMdioStat 16 false with ens.mdio := none }
      if fget v 26 2 = 3 then d.setF rMdioStat 0 16 data.toNat else d)

end Sys2Proof.Machine
end

