-- ==== Sys2Proof/Machine/Foc.lean ====
section
/-! DEFINITION. The spindle's field-oriented control (07_spindle_drive.md, R185-R191): transforms, current loops,
space-vector modulation, inverter outputs and observer. Currents are in mA, voltages in mV, vectors are (α, β). The spec
gives no number formats: every quotient may be rounded to either neighbour (notes/assumptions/5.md). -/

namespace Sys2Proof.Machine

abbrev rSpnStat : Nat := 0x60_0000
abbrev rSpnSpeed : Nat := 0x60_0008
abbrev rPwmCfg : Nat := 0x60_0030
abbrev rIloop : Nat := 0x60_0034
abbrev rSloop : Nat := 0x60_0038
abbrev rIlim : Nat := 0x60_003C
abbrev rIdq : Nat := 0x60_0040
abbrev rMotor : Nat := 0x60_0044
abbrev rObsCfg : Nat := 0x60_0048
abbrev rObs : Nat := 0x60_004C
abbrev rAdc (k : Nat) : Nat := 0x60_2000 + 4 * k

def Dev.onSpn (d : Dev) (f : Spn → Spn) : Dev := { d with spn := f d.spn }
def Dev.onLoops (d : Dev) (f : CurrentLoops → CurrentLoops) : Dev := d.onSpn fun s => { s with loops := f s.loops }
def Dev.onObs (d : Dev) (f : Observer → Observer) : Dev := d.onSpn fun s => { s with obs := f s.obs }

/-! ### Arithmetic -/

/-- The cosine of j/65,536 turn, j at most a quarter turn, in 2^-30: its power series in 2^-32 of a radian. -/
def quarterCos (j : Nat) : Int :=
  let x : Int := (j * 26986075409 / 65536 : Nat)
  let sq := x * x / 2 ^ 32
  let step (p : Int × Int) (n : Nat) : Int × Int :=
    let t := -(p.2 * sq / 2 ^ 32) / ((2 * n + 1) * (2 * n + 2) : Nat)
    (p.1 + t, t)
  ((List.range 8).foldl step ((2 : Int) ^ 32, (2 : Int) ^ 32)).1 / 4

/-- The cosine of an angle in 1/65,536 turn, in 2^-30. -/
def cosTurn (k : Nat) : Int :=
  let k := k % 65536
  if k ≤ 16384 then quarterCos k
  else if k ≤ 32768 then -quarterCos (32768 - k)
  else if k ≤ 49152 then -quarterCos (k - 32768)
  else quarterCos (65536 - k)

/-- The sine, likewise. -/
def sinTurn (k : Nat) : Int := cosTurn (k + 49152)

/-- 1/√3 and √3 in 2^-30. -/
abbrev invSqrt3 : Int := 619925131
abbrev sqrt3 : Int := 1859775393

/-- The integer square root of a number below 2^80. -/
def root (x : Nat) : Nat := isqrt 40 x 0

/-- A field whose value the spec states, where it exceeds the field: free. -/
def fitsNat (w : Nat) (x : Int) : Nat := if 0 ≤ x ∧ x < 2 ^ w then x.toNat else (Config.overflow w x).toNat

/-- A quotient rounded to either neighbour; free where the divisor is 0. -/
def Dev.nearQ (d : Dev) (a : Int) (b : Nat) : Dev × Int := if b = 0 then (d.drawn, d.freshInt 32) else d.near a b

/-! ### Transforms (R188, R189) -/

/-- The Clarke transform of IU, IV and IW = -IU - IV. -/
def Dev.clarke (d : Dev) (u v : Int) : Dev × (Int × Int) :=
  let (d, b) := d.near ((u + 2 * v) * invSqrt3) (2 ^ 30)
  (d, u, b)

/-- The Park transform at an angle in 1/65,536 turn: (d, q). -/
def Dev.park (d : Dev) (x : Int × Int) (angle : Nat) : Dev × (Int × Int) :=
  let (d, a) := d.near (x.1 * cosTurn angle + x.2 * sinTurn angle) (2 ^ 30)
  let (d, b) := d.near (x.2 * cosTurn angle - x.1 * sinTurn angle) (2 ^ 30)
  (d, a, b)

/-- The inverse Park transform. -/
def Dev.unpark (d : Dev) (x : Int × Int) (angle : Nat) : Dev × (Int × Int) :=
  let (d, a) := d.near (x.1 * cosTurn angle - x.2 * sinTurn angle) (2 ^ 30)
  let (d, b) := d.near (x.1 * sinTurn angle + x.2 * cosTurn angle) (2 ^ 30)
  (d, a, b)

/-- The three phase voltages of a vector. -/
def Dev.phases (d : Dev) (x : Int × Int) : Dev × List Int :=
  let (d, v) := d.near (sqrt3 * x.2 - x.1 * 2 ^ 30) (2 ^ 31)
  let (d, w) := d.near (-(sqrt3 * x.2) - x.1 * 2 ^ 30) (2 ^ 31)
  (d, [x.1, v, w])

/-! ### Modulation and outputs (R185, R186, R189) -/

/-- A compare value after MIN_PULSE: a pulse, or a gap, shorter than it becomes 0 or MIN_PULSE, whichever is nearer. The
pulse lasts 2 (12,500 - C) cycles of 1 ns, the gap 2 C. -/
def minPulse (mp : Nat) (c : Int) : Nat :=
  let c := (max 0 (min 12500 c)).toNat
  let fix (half : Nat) : Nat :=
    if 2 * half < mp then (if 4 * half < mp then 0 else min 12500 ((quot mp 2).toNat)) else half
  if 6250 ≤ c then 12500 - fix (12500 - c) else fix c

/-- The compare values of three phase voltages at a bus voltage in mV: the shift by the mean of the largest and the
smallest, the dead-time correction in the direction of each phase's current, duty 0.5 + v / VBUS, MIN_PULSE. -/
def Dev.compares (d : Dev) (v cur : List Int) (vbus : Nat) : Dev × Vector Nat 3 :=
  let big := max (v.getD 0 0) (max (v.getD 1 0) (v.getD 2 0))
  let small := min (v.getD 0 0) (min (v.getD 1 0) (v.getD 2 0))
  let (d, mid) := d.near (big + small) 2
  let dead : Int := (d.fld rPwmCfg 0 11 * vbus : Nat)
  let one (d : Dev) (k : Nat) : Dev × Nat :=
    let (d, fix) := d.near (dead * (cur.getD k 0).sign) 25000
    let (d, c) := d.nearQ (6250 * (vbus : Int) - 12500 * (v.getD k 0 - mid + fix)) vbus
    (d, minPulse (d.fld rPwmCfg 12 10) c)
  let (d, u) := one d 0
  let (d, w) := one d 1
  let (d, x) := one d 2
  (d, #v[u, w, x])

/-- When the two outputs of a phase change in a period, in cycles from the carrier's 0, and their levels from then on: the
high side is active while the carrier is at or above C, each output turns on DEADTIME after the other has turned off, and
POL_HI and POL_LO invert. -/
def phaseEdges (c dead : Nat) (polHi polLo : Bool) : List (Nat × Bool × Bool) :=
  let at' (t : Nat) (hi lo : Bool) : Nat × Bool × Bool := (t, xor hi polHi, xor lo polLo)
  if 12500 ≤ c then [at' 0 false true]
  else if c = 0 then [at' 0 true false]
  else
    [at' 0 false true, at' c false false] ++
    (if c + dead < 25000 - c then [at' (c + dead) true false, at' (25000 - c) false false] else []) ++
    (if 25000 - c + dead < 25000 then [at' (25000 - c + dead) false true] else [])

/-- The carrier reaches 0: the compare values computed in the previous period take effect (R186, R187). -/
def Dev.carrierZero (d : Dev) : Dev :=
  let d := (d.onSpn fun s => { s with compare := s.nextCompare }).onLoops fun l => { l with volts := l.nextVolts }
  if d.spn.driven then
    d.emit (.inverter true (d.spn.compare.toList.map fun c =>
      phaseEdges c (d.fld rPwmCfg 0 11) (d.flag rPwmCfg 24) (d.flag rPwmCfg 25)))
  else d

/-- Every spindle output is inactive. -/
def Dev.inverterOff (d : Dev) (why : Nat) : Dev :=
  (d.onlyIf d.spn.driven fun d => d.emit (.inverter false [])).onSpn fun s => { s with driven := false, off := why, phase := 0 }

/-! ### The current loops (R188, R189) -/

/-- ω·LS times a current, as a voltage: 2π · 40,000 · 10^-7 in 10^-18. -/
def Dev.cross (d : Dev) (cur : Int) : Dev × Int :=
  d.near (d.spn.obs.omega * (d.fld rMotor 16 16 : Nat) * cur * 25132741228718346) (10 ^ 18 * 2 ^ 32)

/-- The voltage limit VBUS/√3: a larger vector keeps its Vd and has Vq reduced until the vector meets the limit. Where Vd
alone exceeds it the spec states no Vq. -/
def limitVector (vd vq : Int) (vbus : Nat) : Int × Bool :=
  let top : Int := (vbus * vbus : Nat)
  if 3 * (vd * vd + vq * vq) ≤ top then (vq, false)
  else if 3 * (vd * vd) ≤ top then (vq.sign * (root ((top - 3 * (vd * vd)) / 3).toNat : Nat), true)
  else (Config.overflow 32 vq, true)

/-- Put a voltage vector out in the next period. -/
def Dev.modulate (d : Dev) (vdq : Int × Int) (angle : Nat) (cur : List Int) (vbus : Nat) : Dev :=
  let (d, ab) := d.unpark vdq angle
  let (d, v) := d.phases ab
  let (d, c) := d.compares v cur vbus
  (d.onSpn fun s => { s with nextCompare := c }).onLoops fun l => { l with nextVolts := ab }

/-- One period of the two current loops at an angle, with the references of d and q. -/
def Dev.currentLoop (d : Dev) (u v : Int) (ab : Int × Int) (angle vbus : Nat) (refD refQ : Int) : Dev :=
  let (d, dq) := d.park ab angle
  let d := (d.setF rIdq 0 16 (uns 16 (fits 16 dq.1))).setF rIdq 16 16 (uns 16 (fits 16 dq.2))
  let kp : Int := d.fld rIloop 0 16
  let ki : Int := d.fld rIloop 16 16
  let ed := refD - dq.1
  let eq := refQ - dq.2
  let (d, vd) := d.near (kp * ed + d.spn.loops.intD) 256
  let (d, vq) := d.near (kp * eq + d.spn.loops.intQ) 256
  let (d, xd) := d.cross (-dq.2)
  let (d, xq) := d.cross dq.1
  let (q, limited) := limitVector (vd + xd) (vq + xq) vbus
  let d := d.setB rSpnStat 15 limited
  let d := if limited then d else d.onLoops fun l => { l with intD := l.intD + ki * ed, intQ := l.intQ + ki * eq }
  d.modulate (vd + xd, q) angle [u, v, -u - v] vbus

/-! ### The observer (R190) -/

/-- A correction whose gain is not stated: none where there is nothing to correct, else free. -/
def Dev.correct (d : Dev) (w : Nat) (err : Int) : Dev × Int := if err = 0 then (d, 0) else (d.drawn, d.freshInt w)

/-- One axis of the winding's model: the current after a period of 25 µs under the voltage in force. -/
def Dev.winding (d : Dev) (volts est emf : Int) : Dev × Int :=
  let rs : Int := d.fld rMotor 4 12
  let (d, step) := d.nearQ (250 * (1000 * volts - rs * est - 1000 * emf)) (1000 * d.fld rMotor 16 16)
  (d, est + step)

/-- One period of the observer and the PLL: the estimated currents, the residual, the correction of the back-EMF by the
current error and of angle and speed by the phase error; the gains are not stated. Then the counts of R192 and R202. -/
def Dev.observe (d : Dev) (ab : Int × Int) (ramp : Nat) : Dev :=
  let o := d.spn.obs
  let v := d.spn.loops.volts
  let (d, a) := d.winding v.1 o.est.1 o.emf.1
  let (d, b) := d.winding v.2 o.est.2 o.emf.2
  let resid := root ((a - ab.1) * (a - ab.1) + (b - ab.2) * (b - ab.2)).toNat
  let (d, ka) := d.correct 24 (ab.1 - a)
  let (d, kb) := d.correct 24 (ab.2 - b)
  let emf := (o.emf.1 + ka, o.emf.2 + kb)
  let (d, lag) := d.park emf (o.theta / 2 ^ 16)
  let (d, dw) := d.correct 32 lag.1
  let (d, dt) := d.correct 32 lag.1
  let omega := o.omega + dw
  let theta := ((o.theta + omega + dt) % 2 ^ 32).toNat
  let (d, rpm) := d.nearQ (omega * 2400000) (2 ^ 32 * d.fld rMotor 0 4)
  let d := (d.setF rObs 0 16 (fitsNat 16 resid)).setF rObs 16 16 (theta / 2 ^ 16)
  let d := d.setF rSpnSpeed 0 16 (fitsNat 16 rpm)
  let th := d.fld rObsCfg 0 16
  d.onObs fun o =>
    { o with
      est := (a, b), emf, omega, theta
      lost := if th < resid then o.lost + 1 else 0
      good := if resid < th then o.good + 1 else 0
      near := if 10 * (rpm * 10000 - ramp).natAbs ≤ ramp then o.near + 1 else 0 }

/-! ### The converters (R183, R184) -/

/-- A sample of a quantity shows in its channel's readout. -/
def Dev.adcShow (d : Dev) (ch : Nat) (x : Int) : Dev := d.setF (rAdc ch) 0 12 (Config.adcCode ch x)

/-- The channels a converter takes in turn: those that no spindle or auxiliary request samples. -/
def roundRobin : Fin 4 → List Nat
  | 0 => [1, 3]
  | 1 => [5, 7]
  | 2 => [9, 10, 11]
  | 3 => [13, 14, 15]

end Sys2Proof.Machine
end

