-- ==== Sys2Proof/Machine/Spn.lean ====
section
/-! DEFINITION. Spindle drive, bus and chopper, converters, auxiliary motors (07_spindle_drive.md). A command that stands for
the end of a span of time has its effect only when the beats that State counts have reached it. -/

namespace Sys2Proof.Machine

abbrev rSpeedCmd : Nat := 0x60_000C
abbrev rDemand : Nat := 0x60_0010
abbrev rDemandCfg : Nat := 0x60_0014
abbrev rCurveCfg : Nat := 0x60_0018
abbrev rRamp : Nat := 0x60_0020
abbrev rVbus : Nat := 0x60_0024
abbrev rVbusLimit : Nat := 0x60_0028
abbrev rChopCfg : Nat := 0x60_002C
abbrev rStartCfg : Nat := 0x60_0050
abbrev rRecatchCfg : Nat := 0x60_0054
abbrev rCurve (k : Nat) : Nat := 0x60_0100 + 4 * k
abbrev rAuxCtl (a : Aux) : Nat := 0x60_1000 + 0x100 * a.val
abbrev rAuxStat (a : Aux) : Nat := rAuxCtl a + 0x04
abbrev rAuxSpeed (a : Aux) : Nat := rAuxCtl a + 0x08
abbrev rAuxCfg (a : Aux) : Nat := rAuxCtl a + 0x0C
abbrev rAuxLimit (a : Aux) : Nat := rAuxCtl a + 0x10
abbrev rAuxPos (a : Aux) : Nat := rAuxCtl a + 0x14
abbrev rAuxTarget (a : Aux) : Nat := rAuxCtl a + 0x18
abbrev rPwrStat : Nat := 0xF0_0000
abbrev rThermAct : Nat := 0xF0_001C

def Dev.onAux (d : Dev) (a : Aux) (f : AuxState → AuxState) : Dev := { d with aux := vmod d.aux a f }

/-! ### States of the drive (SPN_STAT.STATE; R376) -/

def Dev.spnState (d : Dev) : Nat := d.fld rSpnStat 0 3

/-- All terminal voltages, VTU, VTV and VTW, are below 0.5 V of 60 V full scale. -/
def Dev.terminalsLow (d : Dev) : Bool := [1, 5, 9].all fun k => decide (d.fld (rAdc k) 0 12 * 60 < 2048)

/-- All line voltages, between the terminals as the converters last sampled them, are below VT_MIN (in 10 mV). -/
def Dev.linesLow (d : Dev) : Bool :=
  let v (k : Nat) : Int := d.fld (rAdc k) 0 12
  let top := d.fld rRecatchCfg 12 8 * 4096
  [v 1 - v 5, v 5 - v 9, v 9 - v 1].all fun x => decide (x.natAbs * 6000 < top)

/-- So many beats, 800 to the millisecond, have passed since the phase, the off time or the attempt that runs began. -/
def Dev.spnPast (d : Dev) (beats : Nat) : Bool := decide (d.spn.since + beats ≤ d.beats)

/-- Enter a state: the power state follows between P0 and P1 in the same beat (R376). -/
def Dev.setSpn (d : Dev) (st : Nat) : Dev :=
  let now := d.beats
  let d := (d.setF rSpnStat 0 3 st).onSpn fun s =>
    { s with stoppedSince := if st = 0 then some (s.stoppedSince.getD now) else none }
  if d.fld rPwrStat 0 2 ≤ 1 then
    d.setF rPwrStat 0 2 (if st = 0 ∨ (st = 5 ∧ d.terminalsLow) then 1 else 0)
  else d

/-- The set-point, and the pair that shows it (R197). -/
def Dev.setPoint (d : Dev) (x : Nat) : Dev :=
  let v := (quot x 10000).toNat
  (d.setPair rSpeedCmd v).onSpn fun s => { s with setpt := x, kept := v }

/-- LOCKOUT (R203): outputs inactive; a call-board entry, which triggers a copy (R372), and the host is told. -/
def Dev.enterLockout (d : Dev) : Dev :=
  let d := (d.inverterOff 4).setSpn 5
  (d.postFatal 0x0142 1 (d.fld rSpnStat 13 2) (d.fld rSpnStat 12 1) (d.fld rSpnSpeed 0 16) 0).hostEvent 6 0 0

/-- A failure or a loss counts; the third brings LOCKOUT. -/
def Dev.countFail (d : Dev) : Dev :=
  let n := min 3 (d.fld rSpnStat 13 2 + 1)
  let d := d.setF rSpnStat 13 2 n
  if 3 ≤ n then d.enterLockout else d

/-- The loops and the observer begin anew, at an angle and a speed. -/
def Dev.loopsAnew (d : Dev) (theta : Nat) (omega : Int) : Dev :=
  (d.onLoops fun l => { l with intD := 0, intQ := 0, intW := 0, iqRef := 0, volts := (0, 0), nextVolts := (0, 0) }).onObs
    fun _ => { est := (0, 0), emf := (0, 0), theta, omega, lost := 0, good := 0, near := 0 }

/-- A start begins with the align phase (R192); its first period puts out no line voltage. -/
def Dev.startAlign (d : Dev) : Dev :=
  let now := d.beats
  ((d.loopsAnew 0 0).onSpn fun s =>
    { s with phase := 1, ramp := 0, driven := !d.pwr.forced, off := 0, still := false, since := now, openAngle := 0,
             nextCompare := Vector.replicate 3 6250 }).setSpn 1

/-- An attempt to re-catch the rotor begins (R202). -/
def Dev.attempt (d : Dev) : Dev :=
  let now := d.beats
  d.onSpn fun s => { s with driven := false, off := 0, still := false, since := now, crossings := [], lines := none,
                            sampled := none, muddled := false, above := false }

/-- A failed start: off for 2 s; the third in a row brings LOCKOUT (R192). -/
def Dev.startFailed (d : Dev) : Dev :=
  let n := d.spn.startFails + 1
  let now := d.beats
  let d := (d.inverterOff 4).onSpn fun s => { s with startFails := n, phase := 3, since := now }
  if 3 ≤ n then (d.onSpn fun s => { s with phase := 0 }).enterLockout else d.setSpn 1

/-- The start is abandoned (R192). -/
def Dev.startAbandoned (d : Dev) : Dev :=
  let now := d.beats
  ((d.inverterOff 3).onSpn fun s => { s with since := now }).setSpn 3

/-- The drive is turning the rotor or trying to. -/
def Dev.turning (d : Dev) : Bool := d.spnState == 1 || d.spnState == 2 || d.spnState == 4

/-! ### Bus tests (R199-R201) -/

/-- What a bus sample adds to the chopper's criteria (R201): the output as it stood, the new sample, the one before. -/
def Dev.chopperCount (d : Dev) (active : Bool) (vbus old ibrk : Nat) : Dev :=
  let low := decide (ibrk < d.fld rChopCfg 20 8 * 5)
  let weak := active && decide (d.fld rChopCfg 0 10 * 5 + 100 ≤ vbus) && decide (old ≤ vbus)
  let now := d.beats
  d.onSpn fun s =>
    { s with openRun := if active && low then s.openRun + 1 else 0
             stuckRun := if !active && !low then s.stuckRun + 1 else 0
             weakSince := if weak then some (s.weakSince.getD now) else none }

/-- The span that a recovery waits for goes on, or starts anew: after a cut below LIMIT - 2 V, after an undervoltage above
18.0 V (R199). -/
def Dev.busSettling (d : Dev) (vbus : Nat) : Dev :=
  let ok := if d.spn.off = 1 then decide (vbus + 200 < d.fld rVbusLimit 0 16) else decide (d.spn.off = 2 ∧ 1800 < vbus)
  let now := d.beats
  d.onSpn fun s => { s with busSince := if ok then some (s.busSince.getD now) else none }

/-- The braking limit in mA at the latest bus sample (R200), as a numerator over 100. -/
def Dev.regenMax100 (d : Dev) : Nat :=
  d.fld rIlim 16 16 * min 100 (d.fld rVbusLimit 0 16 - d.fld rVbus 0 16)

/-- The tests of one bus sample, in order: VBUS and IBRK in the units of SPN_VBUS. -/
def Dev.busTests (d : Dev) (vbus ibrk : Nat) : Dev :=
  let old := d.fld rVbus 0 16
  let active := d.flag rSpnStat 5
  let d := (d.setF rVbus 0 16 vbus).setF rVbus 16 16 ibrk
  let cut := decide (d.fld rVbusLimit 16 16 ≤ vbus)
  let d := if cut && d.turning && d.spn.off != 1 then
      (((d.inverterOff 1).setSpn 3).setB rSpnStat 9 true |>.gcnt 0x14).raise 18 1 rSpnStat vbus 0 0
    else d
  let d := if d.spn.chopBad then d.setB rSpnStat 5 false
    else if d.fld rChopCfg 0 10 * 5 ≤ vbus then d.setB rSpnStat 5 true
    else if vbus ≤ d.fld rChopCfg 10 10 * 5 then d.setB rSpnStat 5 false
    else d
  let d := d.setB rSpnStat 6 (decide (d.regenMax100 < d.fld rIlim 16 16 * 100))
  let d := if vbus < 1500 then
      let d := d.setB rSpnStat 16 true
      if d.turning then ((d.inverterOff 2).setSpn 3).post 0x0143 1 vbus 0 0 0 else d
    else d
  (d.chopperCount active vbus old ibrk).busSettling vbus

/-- Converter 2 samples VBUS at the carrier's 0, where new compare values take effect: once in a beat with G mod 20 = 0
(R185, R187). IBRK is the peak's. -/
def Dev.busSample (d : Dev) (vbus : Nat) : Dev :=
  if !d.fabric || d.outputsHeld || d.beats % 20 != 0 || d.spn.zeroBeat == some d.beats then d
  else
    let now := d.beats
    let d := (d.onSpn fun s => { s with zeroBeat := some now }).carrierZero
    (d.adcShow 8 vbus).busTests vbus (d.fld rVbus 16 16)

def execBusSample (vbus : Nat) (s : State) : Host.Outcome State Fault Refusal := .next (s.onDev fun d => d.busSample vbus)

/-- The bus has settled for 1 ms after a cut, or 10 ms after an undervoltage: the rotor is re-caught. -/
def execVbusRecover (s : State) : Host.Outcome State Fault Refusal :=
  .next (s.onDev fun d =>
    let settled : Bool := match d.spn.busSince with
      | some b => decide (b + (if d.spn.off = 1 then 800 else 8000) ≤ d.beats)
      | none => false
    if d.outputsHeld || d.spnState != 3 || !(d.spn.off == 1 || d.spn.off == 2) || !settled then d
    else d.attempt.setSpn 4)

/-! ### The PWM period (R185-R191, R197) -/

/-- The target in force: 0 from UNLOAD's clean record until the next LOAD (R280). -/
def Dev.targetNow (d : Dev) : Nat := if d.hq.unloaded then 0 else d.fld rSpnSpeed 16 16

/-- The speed loop's PI controller (R191, R200): its output is the q-axis reference, between +IQ_MAX and the braking limit;
while the clamp acts the integrator does not advance. -/
def Dev.speedControl (d : Dev) (err : Int) : Dev :=
  let (d, out) := d.near ((d.fld rSloop 0 16 : Nat) * err + d.spn.loops.intW) 256
  let (d, brake) := d.near (d.regenMax100 : Nat) 100
  let q := max (-brake) (min (d.fld rIlim 0 16 : Nat) out)
  let ki : Int := d.fld rSloop 16 16
  d.onLoops fun l => { l with iqRef := q, intW := if q = out then l.intW + ki * err else l.intW }

/-- One speed-loop period: the set-point is checked and moves toward the target (R191, R197). -/
def Dev.speedLoop (d : Dev) : Dev :=
  let (d, v) := d.checkPair 1 rSpeedCmd d.spn.kept
  let cur := match v with
    | some v => if v = (quot d.spn.setpt 10000).toNat then d.spn.setpt else v * 10000
    | none => d.spn.kept * 10000
  let target := d.targetNow * 10000
  let next := if cur < target then min target (cur + d.fld rRamp 0 16) else max target (cur - d.fld rRamp 16 16)
  let d := (d.setPoint next).setB rSpnStat 4 (decide (next < cur))
  let speed := d.fld rSpnSpeed 0 16
  let near := decide (next = target) && decide (200 * ((speed : Int) - d.targetNow).natAbs ≤ d.targetNow)
  let n := if near then min 256 (d.spn.near + 1) else 0
  let d := (d.onSpn fun s => { s with near := n }).setB rSpnStat 3 (n == 256)
  let d := d.speedControl ((d.spn.kept : Int) - speed)
  if d.targetNow = 0 ∧ next = 0 then ((d.inverterOff 0).setSpn 0).settle else d

/-- The open-loop ramp of a start: its vector turns and its speed rises by START_ACCEL x 25 µs up to HANDOVER (R192). -/
def Dev.rampBeat (d : Dev) : Dev :=
  let top := d.fld rStartCfg 8 12 * 10000
  let (d, turn) := d.near ((d.spn.ramp * d.fld rMotor 0 4 * 2 ^ 32 : Nat) : Int) (10000 * 60 * 40000)
  let (d, rise) := d.near (d.fld rStartCfg 20 12 * 10 : Nat) 4
  let now := d.beats
  let next := min top (d.spn.ramp + rise.toNat)
  d.onSpn fun s =>
    { s with openAngle := (s.openAngle + turn.toNat) % 2 ^ 32, ramp := next
             since := if next = top ∧ s.ramp < top then now else s.since }

/-- The computing beat of a period in which the inverter is driven (R187, R192): aligning, a current of IQ_MAX / 2 at angle
0; in the ramp that current at the open-loop angle; else the loops at the PLL's angle. -/
def Dev.control (d : Dev) (iu iv : Int) (vbus : Nat) : Dev :=
  let (d, ab) := d.clarke iu iv
  let (d, half) := d.near (d.fld rIlim 0 16 : Nat) 2
  if d.spnState = 1 ∧ d.spn.phase = 1 then d.currentLoop iu iv ab 0 (vbus * 10) half 0
  else if d.spnState = 1 then
    let d := (d.observe ab d.spn.ramp).rampBeat
    d.currentLoop iu iv ab (d.spn.openAngle / 2 ^ 16) (vbus * 10) half 0
  else
    let d := d.observe ab 0
    d.currentLoop iu iv ab (d.spn.obs.theta / 2 ^ 16) (vbus * 10) 0 d.spn.loops.iqRef

/-- The samples at the carrier's peak, currents in mA and the bus in the units of SPN_VBUS, and what the motor controller's
claim computes from them: once in a beat with G mod 20 = 10 (R184, R185, R187). -/
def Dev.pwmPeriod (d : Dev) (iu iv : Int) (vbus ibrk : Nat) : Dev :=
  if !d.fabric || d.outputsHeld || d.beats % 20 != 10 || d.spn.peakBeat == some d.beats then d
  else
    let now := d.beats
    let d := (((d.adcShow 0 iu).adcShow 4 iv).adcShow 8 vbus).adcShow 12 ibrk
    let d := (d.onSpn fun s => { s with peakBeat := some now }).busTests vbus ibrk
    if d.engineHalted 1 then d
    else
      let d := if d.spn.driven then d.control iu iv vbus else d
      if d.beats / 20 % 4 = 0 ∧ d.spnState = 2 then d.speedLoop else d

def execPwmPeriod (iu iv : Int) (vbus ibrk : Nat) (s : State) : Host.Outcome State Fault Refusal :=
  .next (s.onDev fun d => d.pwmPeriod iu iv vbus ibrk)

/-! ### Starting (R192) -/

/-- ALIGN_MS has passed. -/
def execAlignEnd (s : State) : Host.Outcome State Fault Refusal :=
  .next (s.onDev fun d =>
    if d.spnState = 1 ∧ d.spn.phase = 1 ∧ d.spnPast (d.fld rStartCfg 0 8 * 8000) then
      d.onSpn fun s => { s with phase := 2, ramp := 0 }
    else d)

/-- The ramp has reached HANDOVER and both criteria have held for 20 periods: the PLL's angle takes over, and the speed loop
starts from the ramp's current. -/
def execHandover (s : State) : Host.Outcome State Fault Refusal :=
  .next (s.onDev fun d =>
    let top := d.fld rStartCfg 8 12 * 10000
    if d.spnState = 1 ∧ d.spn.phase = 2 ∧ d.spn.ramp = top ∧ 20 ≤ d.spn.obs.good ∧ 20 ≤ d.spn.obs.near then
      let (d, half) := d.near (d.fld rIlim 0 16 : Nat) 2
      let now := d.beats
      (((d.setPoint top).onSpn fun s => { s with phase := 0, startFails := 0, near := 0, since := now }).onLoops fun l =>
        { l with iqRef := half, intW := half * 256 }).setSpn 2
    else d)

/-- No handover within 100 ms of the ramp's end. -/
def execStartTimeout (s : State) : Host.Outcome State Fault Refusal :=
  .next (s.onDev fun d =>
    if d.spnState = 1 ∧ d.spn.phase = 2 ∧ d.spn.ramp = d.fld rStartCfg 8 12 * 10000 ∧ d.spnPast 80000 then d.startFailed
    else d)

/-- A line voltage between terminals, in 10 mV, is at or above VT_MIN. -/
def Dev.turnsStill (d : Dev) (u v w : Nat) : Bool :=
  [(u : Int) - v, (v : Int) - w, (w : Int) - u].any fun x => decide (d.fld rRecatchCfg 12 8 ≤ x.natAbs)

/-- The terminal voltages sampled at one instant on converters 0-2 show in channels 1, 5 and 9. -/
def Dev.terminals (d : Dev) (u v w : Nat) : Dev := ((d.adcShow 1 u).adcShow 5 v).adcShow 9 w

/-- The inverter has been off for 2 s after a failed start: the terminal voltages are sampled, and the start repeats
(R192). -/
def execStartRetry (vtu vtv vtw : Nat) (s : State) : Host.Outcome State Fault Refusal :=
  .next (s.onDev fun d =>
    if d.spnState = 1 ∧ d.spn.phase = 3 ∧ d.spnPast 1600000 then
      let d := d.terminals vtu vtv vtw
      if d.turnsStill vtu vtv vtw then (d.attempt.onSpn fun s => { s with phase := 4 }).setSpn 4 else d.startAlign
    else d)

/-- An abandoned start's line voltages have stayed below VT_MIN for STILL_MS (R192); or the outputs have been inactive for
STILL_MS after an attempt without line voltages (R203). -/
def execStillTimeout (s : State) : Host.Outcome State Fault Refusal :=
  .next (s.onDev fun d =>
    let span := d.fld rRecatchCfg 20 12 * 800
    let quiet : Bool := match d.spn.stillSince with
      | some b => decide (max b d.spn.since + span ≤ d.beats)
      | none => false
    if d.spnState = 3 ∧ d.spn.off = 3 ∧ quiet then ((d.inverterOff 0).setSpn 0).settle
    else if d.spnState = 4 ∧ d.spn.still ∧ d.spnPast span then
      if 0 < d.targetNow then d.startAlign else ((d.inverterOff 0).setSpn 0).settle
    else d)

/-! ### Chopper, loss of the rotor, re-catch (R201-R203) -/

/-- The chopper criterion of a case is met (R201): 4 bus samples, or 2 ms. -/
def Dev.chopperMet (d : Dev) : ChopperCase → Bool
  | .openCircuit => decide (4 ≤ d.spn.openRun)
  | .ineffective => match d.spn.weakSince with
    | some b => decide (b + 1600 ≤ d.beats)
    | none => false
  | .stuckOn => decide (4 ≤ d.spn.stuckRun)

/-- A chopper criterion is met; a stuck-on chopper also stops the spindle. -/
def execChopperFault (c : ChopperCase) (s : State) : Host.Outcome State Fault Refusal :=
  .next (s.onDev fun d =>
    if d.chopperMet c then
      let code := match c with | .openCircuit => 0 | .ineffective => 1 | .stuckOn => 2
      let d := ((d.setB rSpnStat 8 true).gcnt 0x15).raise 19 1 rSpnStat code 0 0
      let d := d.onSpn fun s => { s with openRun := 0, stuckRun := 0, weakSince := none }
      if c = .stuckOn then (((d.inverterOff 5).setSpn 3).setB rSpnStat 5 false) else d
    else d)

/-- The CHOPPER_FAULT chain: the chopper output stays inactive until reset; a stuck-on one ends in LOCKOUT. -/
def Dev.chopperChain (d : Dev) : Dev :=
  let d := (d.setB rSpnStat 5 false).onSpn fun s => { s with chopBad := true }
  if d.spnState = 3 ∧ d.spn.off = 5 then d.enterLockout else d

/-- The rotor is lost: outputs inactive, OBSERVER_LOST, and a failure counted; in a start it is a failed start. -/
def Dev.rotorLost (d : Dev) (cause : Nat) : Dev :=
  let d := d.setF rSpnStat 12 1 cause
  if d.spnState = 1 then d.startFailed
  else if d.spnState = 2 ∨ d.spnState = 4 then
    let d := ((d.inverterOff 4).setB rSpnStat 10 true).raise 17 1 rSpnStat cause 0 0
    d.countFail
  else d

/-- The residual has exceeded OBS_TH in every period for LOST_MS. -/
def execRotorLost (s : State) : Host.Outcome State Fault Refusal :=
  .next (s.onDev fun d =>
    if d.turning && d.spn.driven && decide (d.fld rObsCfg 24 8 * 40 ≤ d.spn.obs.lost) then
      ((d.gcnt 0x12).rotorLost 0).onObs fun o => { o with lost := 0 }
    else d)

def execGateFault (s : State) : Host.Outcome State Fault Refusal :=
  .next (s.onDev fun d =>
    let d := (d.setB rSpnStat 11 true).gcnt 0x13
    if d.turning then d.rotorLost 1
    else (d.onlyIf d.spn.driven fun d => d.emit (.inverter false [])).onSpn fun s => { s with driven := false })

/-- The fault input deasserts: a deferred re-catch may begin. -/
def execGateFaultClear (s : State) : Host.Outcome State Fault Refusal :=
  .next (s.onDev fun d =>
    let d := d.setB rSpnStat 11 false
    if d.spnState = 4 then d.attempt else d)

/-- The OBSERVER_LOST chain: every write gate goes, and STATE is RECATCH (R202). -/
def Dev.observerChain (d : Dev) : Dev :=
  let d := d.dropGates
  if d.spnState = 2 ∨ d.spnState = 4 then d.attempt.setSpn 4 else d

/-- The zero crossings of the line voltages between two samples, each by its place in the order of forward rotation:
UV rising, WU falling, VW rising, UV falling, WU rising, VW falling. -/
def newCrossings (a b : Int × Int × Int) : List Nat :=
  let lines (v : Int × Int × Int) : List Int := [v.1 - v.2.1, v.2.1 - v.2.2, v.2.2 - v.1]
  (List.range 3).filterMap fun k =>
    let x := (lines a).getD k 0
    let y := (lines b).getD k 0
    if x < 0 ∧ 0 ≤ y then some ([0, 2, 4].getD k 0)
    else if 0 ≤ x ∧ y < 0 then some ([3, 5, 1].getD k 0)
    else none

/-- The rotor's angle at a crossing, in 2^-32 electrical turn: with the back-EMF a quarter turn ahead of the d axis the line
voltage UV rises through 0 at 5/12 turn, and each later crossing comes 1/6 turn on (notes/assumptions/82.md). -/
def crossingAngle (k : Nat) : Nat := (k + 2) % 6 * (2 ^ 32 / 6) + 2 ^ 32 / 12

/-- Three consecutive crossings, newest first, in a consistent order: the direction of rotation, and the beats from the
first to the third. -/
def consistent : List (Nat × Nat) → Option (Int × Nat)
  | [(c, tc), (b, _), (a, ta)] =>
    if b = (a + 1) % 6 ∧ c = (b + 1) % 6 then some (1, tc - ta)
    else if a = (b + 1) % 6 ∧ b = (c + 1) % 6 then some (-1, tc - ta)
    else none
  | _ => none

/-- The angle and the speed are found: the PLL is loaded, the integrators take the measured back-EMF in the d-q frame, and
the outputs are enabled with an Iq reference of 0 (R202). The terminal voltages are in 10 mV. -/
def Dev.lockRotor (d : Dev) (k : Nat) (dir : Int) (beats : Nat) (v : Int × Int × Int) : Dev :=
  let (d, omega) := d.nearQ (dir * 2 ^ 32 * 20) (3 * beats)
  let theta := crossingAngle k
  let d := d.loopsAnew theta omega
  let (d, a) := d.near ((2 * v.1 - v.2.1 - v.2.2) * 10) 3
  let (d, b) := d.near ((v.2.1 - v.2.2) * 10 * invSqrt3) (2 ^ 30)
  let (d, dq) := d.park (a, b) (theta / 2 ^ 16)
  let d := d.onLoops fun l => { l with intD := dq.1 * 256, intQ := dq.2 * 256 }
  let d := d.onObs fun o => { o with emf := (a, b) }
  let d := d.modulate dq (theta / 2 ^ 16) [0, 0, 0] (d.fld rVbus 0 16 * 10)
  d.onSpn fun s => { s with driven := !d.pwr.forced, off := 0 }

/-- A re-catch sample in 10 mV, every 5 µs until the outputs are enabled; deferred while the gate driver's fault input is
asserted. -/
def execRecatchSample (vtu vtv vtw : Nat) (s : State) : Host.Outcome State Fault Refusal :=
  .next (s.onDev fun d =>
    let due : Bool := match d.spn.sampled with
      | some b => decide (b + 4 ≤ d.beats)
      | none => true
    if d.spnState != 4 || d.flag rSpnStat 11 || d.spn.still || d.spn.driven || d.engineHalted 1 || !due then d
    else
      let d := d.terminals vtu vtv vtw
      let v : Int × Int × Int := (vtu, vtv, vtw)
      let now := d.beats
      let seen := match d.spn.lines with
        | some u => (newCrossings u v).reverse.map fun k => (k, now)
        | none => []
      let above := d.turnsStill vtu vtv vtw
      let d := d.onSpn fun s => { s with
        lines := some v, sampled := some now, above := s.above || above, crossings := (seen ++ s.crossings).take 3 }
      if seen.isEmpty || decide (d.spn.crossings.length < 3) then d
      else match d.spn.crossings, consistent d.spn.crossings with
        | (k, _) :: _, some (dir, beats) => d.lockRotor k dir beats v
        | _, _ => d.onSpn fun s => { s with muddled := true })

/-- How a re-catch attempt stands (R202, R203): 1 it has succeeded, the residual below OBS_TH for 20 periods; 2 the crossings
were inconsistent, or its 20 ms ended without success; 3 they ended without line voltages; 0 it goes on. -/
def Dev.attemptStands (d : Dev) : Nat :=
  let late := d.spnPast 16000
  if d.spn.driven then (if 20 ≤ d.spn.obs.good then 1 else if late then 2 else 0)
  else if d.spn.muddled then 2
  else if late then (if d.spn.above then 2 else 3)
  else 0

/-- A re-catch attempt ends (R202, R203); in a repeated start its failure is a failed start (R192). -/
def execRecatchResult (s : State) : Host.Outcome State Fault Refusal :=
  .next (s.onDev fun d =>
    if d.spnState != 4 || d.flag rSpnStat 11 || d.spn.still then d
    else
      let again := d.spn.phase == 4
      let now := d.beats
      match d.attemptStands with
      | 1 =>
        ((d.setPoint (d.fld rSpnSpeed 0 16 * 10000)).onSpn fun s =>
          { s with phase := 0, startFails := 0, near := 0, since := now }).setSpn 2
      | 2 => if again then d.startFailed else ((d.inverterOff 0).attempt).countFail
      | 3 =>
        if again then d.startAlign
        else d.onSpn fun s => { s with still := true, driven := false, since := now }
      | _ => d)

/-- RUN has lasted 1 s. -/
def execFailsReset (s : State) : Host.Outcome State Fault Refusal :=
  .next (s.onDev fun d => if d.spnState = 2 ∧ d.spnPast 800000 then d.setF rSpnStat 13 2 0 else d)

/-- SPN_CTL.CLEAR_LOCKOUT: only after the terminal voltages have been below 0.5 V for 1 s (R203). -/
def Dev.clearLockout (d : Dev) : Dev :=
  let low := match d.spn.lowSince with
    | some b => decide (b + 800000 ≤ d.beats)
    | none => false
  if d.spnState == 5 && low then (d.inverterOff 0).setSpn 0 else d

def execClearLockout (_m : Master) (s : State) : Host.Outcome State Fault Refusal :=
  .next (s.onDev Dev.clearLockout)

/-- A converter takes the next of its round-robin channels; the terminal voltages are followed for LOCKOUT and for an
abandoned start (R184, R192, R203). -/
def execAdcRoundRobin (converter : Fin 4) (v : BitVec 12) (s : State) : Host.Outcome State Fault Refusal :=
  .next (s.onDev fun d =>
    let chs := roundRobin converter
    let k := d.spn.adcNext[converter]
    let d := d.setF (rAdc (chs.getD k 0)) 0 12 v.toNat
    let now := d.beats
    let low := d.terminalsLow
    let still := d.linesLow
    let d := d.onSpn fun s =>
      { s with adcNext := vmod s.adcNext converter fun k => (k + 1) % chs.length
               adcPass := (vmod s.adcNext converter fun k => (k + 1) % chs.length).toList.all (· == 0)
               lowSince := if low then some (s.lowSince.getD now) else none
               stillSince := if still then some (s.stillSince.getD now) else none }
    if d.spnState = 5 then d.setSpn 5 else d)

/-! ### Demand index and target (R193-R197) -/

/-- RBs a READ or VERIFY still has to read from the medium. -/
def Dev.rbsToRead (d : Dev) : Nat :=
  (d.hq.cmds.map fun c =>
    if (c.op == 0x10 || c.op == 0x12) && !c.forwarded then
      (((d.mlbas c.slot).filter fun m => (d.rowAt m).isNone).map fun m => (homeOf m).1).dedup.length
    else 0).sum

/-- A flush, an FUA write or a commit record waits. -/
def Dev.mediumWanted (d : Dev) : Bool :=
  d.hq.cmds.any (fun c => c.op == 0x13 || (c.op == 0x11 && c.fua && c.acked)) ||
    allSides.any fun x => d.sides[x].recWanted || (d.sides[x].recFlight).isSome

/-- The demand index (R193); a WUNIT of 0 lies outside every declared range. -/
def Dev.demandIndex (d : Dev) : Nat :=
  let w := 4096 * (d.hq.rows.filter fun r => r.place.isNone && !r.released).length
  let r := d.rbsToRead
  let unit := d.fld rDemandCfg 0 8 * 2 ^ 20
  let di := min 1023 (w / unit + d.fld rDemandCfg 8 8 * r)
  if 1 ≤ r ∨ d.mediumWanted then max di (d.fld rCurveCfg 0 10 + 1) else di

/-- The curve's speed at an index (R194). -/
def Dev.curveAt (d : Dev) (di : Nat) : Nat :=
  let pt (k : Nat) : Nat × Nat := (d.fld (rCurve k) 0 10, d.fld (rCurve k) 16 16)
  if di ≤ (pt 0).1 then (pt 0).2
  else match (List.range 31).find? fun k => decide (di < (pt (k + 1)).1) with
    | none => (pt 31).2
    | some k =>
      let (a, ra) := pt k; let (b, rb) := pt (k + 1)
      if ra ≤ rb then ra + (rb - ra) * (di - a) / (b - a)
      else (ra * (b - a) - (ra - rb) * (di - a)) / (b - a)

/-- A curtain that can write, during which the quiet ceiling is disregarded (R196, R384). -/
def Dev.curtainRuns (d : Dev) : Bool := d.hq.curtain.isSome && d.mayWrite

/-- The target after the ceilings: the quiet ceiling, then the thermal one (R196, R396). -/
def Dev.clampTarget (d : Dev) (t : Nat) : Nat :=
  let c := d.fld rSpnQuiet 0 16
  let t := if d.curtainRuns then t
    else if d.smpF rSpnCtl 1 1 = 1 ∨ c < 1200 then 0
    else if c = 0xFFFF then t else min t c
  if d.flag rPwrStat 9 then min t (d.fld rThermAct 0 16) else t

/-- The spindle's work at an act boundary: demand index, run decision, target (R193, R195, R196). `wanted` is a demand of
start-up calibration (R245). -/
def Dev.spindleAct (d : Dev) (wanted : Bool) : Dev :=
  let di0 := d.demandIndex
  let di := if wanted then max di0 (d.fld rCurveCfg 0 10 + 1) else di0
  let st := d.spnState
  let below := if di < d.fld rCurveCfg 10 10 then satAdd 12 (d.fld rDemand 16 12) 1 else 0
  let d := (d.setF rDemand 0 10 di).setF rDemand 16 12 below
  let stopDue := decide (d.fld rCurveCfg 20 12 ≤ below) && decide (0 < below)
  let raw :=
    if d.ghostLight ∨ d.hq.unloaded ∨ !d.hq.disc then 0
    else if d.curtainRuns then d.curveAt di
    else if st = 0 then (if d.fld rCurveCfg 0 10 < di then d.curveAt di else 0)
    else if stopDue then 0 else d.curveAt di
  let t := d.clampTarget raw
  let d := (d.setF rSpnSpeed 16 16 t).setB rSpnStat 7 (decide (t < raw) && !(d.flag rPwrStat 9 && d.clampTarget raw == t &&
    decide (t = d.fld rThermAct 0 16)))
  if d.outputsHeld then d
  else if st = 0 ∧ 0 < t then d.startAlign
  else if st = 1 ∧ t = 0 then d.startAbandoned
  else d

/-! ### Auxiliary motors (R204-R208) -/

/-- Step of a Hall state (C B A), forward. -/
def hallStep : Nat → Option Nat
  | 1 => some 0
  | 3 => some 1
  | 2 => some 2
  | 6 => some 3
  | 4 => some 4
  | 5 => some 5
  | _ => none

/-- The high and the low phase of a step; reversed, they are exchanged. -/
def stepPhases (n : Nat) (rev : Bool) : Nat × Nat :=
  let p := [(0, 1), (0, 2), (1, 2), (1, 0), (2, 0), (2, 1)].getD n (0, 1)
  if rev then (p.2, p.1) else p

/-- The step after another in the direction of rotation. -/
def stepAfter (n : Nat) (rev : Bool) : Nat := if rev then (n + 5) % 6 else (n + 1) % 6

/-- A fault of a channel: every output inactive until EN is written 0 and then 1; its flag is set. -/
def Dev.auxFault (d : Dev) (a : Aux) (bit : Nat) : Dev :=
  (((d.setB (rAuxStat a) bit true).setF (rAuxSpeed a) 16 16 0).onAux a fun x =>
    { x with latched := true, cleared := false, moving := false, holding := false, ramp := none }).emit
      (.auxDrive a [none, none, none])

/-- The channel drives its motor: EN as the engines sampled it. -/
def Dev.auxOn (d : Dev) (a : Aux) : Bool := (d.smpF (rAuxCtl a) 0 1 == 1) && !(d.aux[a]).latched && !d.outputsHeld

/-- The cycle in which this beat begins. -/
def Dev.cycles (d : Dev) : Nat := d.beats * 1250

/-- How far A0 stands from its target, in edges (R208). -/
def Dev.auxLeft (d : Dev) : Int := d.sfld (rAuxTarget 0) 0 24 - d.sfld (rAuxPos 0) 0 24

/-- The channel turns in reverse: A1 by DIR, A0 towards its target. -/
def Dev.auxReverse (d : Dev) (a : Aux) : Bool :=
  if a = 0 then decide (d.auxLeft < 0) else d.smpF (rAuxCtl a) 1 1 == 1

/-- The speed set-point: on A0 it falls linearly to 0 over the last BRAKE_EDGES edges (R208). -/
def Dev.auxSetpoint (d : Dev) (a : Aux) : Nat :=
  let set := d.smpF (rAuxCtl a) 16 16
  let brake := d.fld (rAuxPos 0) 24 8
  if a = 0 then
    if !d.aux[a].moving then 0
    else if d.auxLeft.natAbs < brake then (quot (set * d.auxLeft.natAbs : Nat) brake).toNat else set
  else set

/-- A0 reaches its target: the three low sides are on for HOLD_MS. -/
def Dev.auxArrived (d : Dev) (a : Aux) : Dev :=
  if a = 0 ∧ d.aux[a].moving ∧ d.fld (rAuxPos a) 0 24 = d.fld (rAuxTarget a) 0 24 then
    let now := d.beats
    ((d.setF (rAuxSpeed a) 16 16 0).onAux a fun x =>
      { x with moving := false, holding := true, holdSince := now, ramp := none }).emit
        (.auxDrive a [some 0, some 0, some 0])
  else d

/-- The length of a ramp: RAMP/64 of the previous step's duration (R205). -/
def Dev.rampLen (d : Dev) (a : Aux) : Nat := d.fld (rAuxCfg a) 0 6 * d.aux[a].stepLen / 64

/-- A qualified Hall state, at a cycle of this beat: its step, the step's duration and the speed, the count of A0; a ramp
that has not begun begins at the edge (R204, R205, R208). -/
def Dev.hallEdge (d : Dev) (a : Aux) (hall : BitVec 3) (cycle : Fin 1250) : Dev :=
  match hallStep hall.toNat with
  | none => d.auxFault a 4
  | some n =>
    let old := d.fld (rAuxStat a) 0 3
    let now := d.cycles + cycle.val
    let long := now - d.aux[a].lastEdge
    let fwd := n == (old + 1) % 6
    let back := old == (n + 1) % 6
    let len := d.rampLen a
    let d := ((d.setF (rAuxStat a) 0 3 n).setF (rAuxSpeed a) 0 16 (Config.auxRpm a.val long)).onAux a fun x =>
      { x with stepLen := long, lastEdge := now, quietSince := now,
               ramp := if x.driveStep = n then x.ramp
                 else match x.ramp with
                   | some r => some r
                   | none => if 0 < len then some { start := now, len, step := x.driveStep } else none
               driveStep := if x.ramp.isNone && len == 0 then n else x.driveStep }
    let d := if a = 0 then
        let p := d.fld (rAuxPos a) 0 24
        d.setF (rAuxPos a) 0 24 (if fwd then p + 1 else if back then p + 2 ^ 24 - 1 else p)
      else d
    d.auxArrived a

def execHallEdge (a : Aux) (hall : BitVec 3) (cycle : Fin 1250) (s : State) : Host.Outcome State Fault Refusal :=
  .next (s.onDev fun d => d.hallEdge a hall cycle)

/-- The commutation ramp at a period's start: it begins half its length before the commutation predicted from the last
step's duration, and when it has lasted its length the next step's phases are driven (R205). -/
def Dev.auxRamp (d : Dev) (a : Aux) : Dev :=
  let x := d.aux[a]
  let now := d.cycles
  let len := d.rampLen a
  let rev := d.auxReverse a
  match x.ramp with
  | some r =>
    if r.start + r.len ≤ now then d.onAux a fun x => { x with ramp := none, driveStep := stepAfter r.step rev } else d
  | none =>
    if 0 < len ∧ x.driveStep = d.fld (rAuxStat a) 0 3 ∧ x.lastEdge + x.stepLen ≤ now + len / 2 then
      d.onAux a fun x => { x with ramp := some { start := now, len, step := x.driveStep } }
    else d

/-- The duties of phases U, V, W in 1/65,536, none for a floating one. In a step the high phase has duty D and the low phase
0. In a ramp the outgoing phase goes linearly from its duty to the shared phase's, and the incoming one from the shared
phase's to the outgoing one's (R205). -/
def Dev.auxDuties (d : Dev) (a : Aux) : List (Option Nat) :=
  let x := d.aux[a]
  let duty := d.fld (rAuxSpeed a) 16 16
  let rev := d.auxReverse a
  let put (l : List (Nat × Nat)) : List (Option Nat) :=
    (List.range 3).map fun k => (l.find? fun e => e.1 == k).map Prod.snd
  match x.ramp with
  | none =>
    let (hi, lo) := stepPhases x.driveStep rev
    put [(hi, duty), (lo, 0)]
  | some r =>
    let (hi, lo) := stepPhases r.step rev
    let (hi', lo') := stepPhases (stepAfter r.step rev) rev
    let part := (quot (duty * min r.len (d.cycles - r.start) : Nat) r.len).toNat
    if hi = hi' then put [(hi, duty), (lo, part), (lo', duty - part)]
    else put [(lo, 0), (hi, duty - part), (hi', part)]

/-- A window, given as a difference of duties, lasts at least MIN_WIN (R206). -/
def Dev.windowOk (d : Dev) (a : Aux) (width : Nat) : Bool :=
  decide (d.fld (rAuxCfg a) 6 10 * 10 * 65536 ≤ width * 25000)

/-- The windows of a period: the phase whose current each gives, whether the sample is its negative, and the window's width.
In a step there is one; in a ramp the highest duty's phase and the lowest duty's. -/
def auxWindows (duties : List (Option Nat)) : List (Nat × Bool × Nat) :=
  let l := (List.range 3).filterMap fun k => (duties.getD k none).map fun x => (k, x)
  let put (m : List (Nat × Nat)) (e : Nat × Nat) : List (Nat × Nat) :=
    m.takeWhile (fun f => decide (e.2 ≤ f.2)) ++ e :: m.dropWhile (fun f => decide (e.2 ≤ f.2))
  match l.foldl put [] with
  | [(hi, x), (_, y)] => [(hi, false, x - y)]
  | [(hi, x), (_, y), (lo, z)] => [(hi, false, x - y), (lo, true, y - z)]
  | _ => []

/-- The phase currents after a period's samples: those of the windows long enough, the others by Kirchhoff's law; the phases
that conduct are the ones with a duty. -/
def phaseCurrents (old : Vector Int 3) (duties : List (Option Nat)) (got : List (Nat × Int)) : Vector Int 3 :=
  let on := (List.range 3).filter fun k => (duties.getD k none).isSome
  let wins := (auxWindows duties).map Prod.fst
  let known (k : Nat) : Int := ((got.find? fun e => e.1 == k).map Prod.snd).getD (old.toList.getD k 0)
  Vector.ofFn fun (k : Fin 3) =>
    if !on.contains k.val then 0
    else if wins.contains k.val then known k.val
    else -((wins.map known).foldl (· + ·) 0)

/-- A PWM period of a channel, with the shunt in mA as its one or two windows show it: windows too short are skipped and
counted, a sample above ITRIP turns the channel off, and the speed loop, whose gains the spec does not give, answers a duty,
scaled down while a phase current exceeds ILIM (R205-R207). It starts OFFSET cycles after the spindle carrier's 0. -/
def Dev.auxPeriod (d : Dev) (a : Aux) (first second : Int) : Dev :=
  if !d.fabric || !d.auxOn a || d.engineHalted 1 || d.beats % 20 != d.fld (rAuxCfg a) 16 16 / 1250 % 20 ||
      d.aux[a].period == some d.beats || (a == 0 && !d.aux[a].moving) then d
  else
    let now := d.beats
    let d := (d.onAux a fun x => { x with period := some now }).auxRamp a
    let duties := d.auxDuties a
    let wins := (auxWindows duties).zip [first, second]
    let good := wins.filter fun w => d.windowOk a w.1.2.2
    let d := (d.emit (.auxDrive a duties)).bump (rAuxStat a) 8 8 (wins.length - good.length)
    let d := d.each good fun d w => d.adcShow (2 + 4 * a.val) w.2
    if good.any fun w => decide (d.fld (rAuxLimit a) 8 8 * 50 < w.2.natAbs) then d.auxFault a 5
    else
      let cur := phaseCurrents d.aux[a].currents duties (good.map fun w => (w.1.1, if w.1.2.1 then -w.2 else w.2))
      let top := cur.toList.foldl (fun m i => max m i.natAbs) 0
      let ilim := d.fld (rAuxLimit a) 0 8 * 50
      let (d, want) := if d.auxSetpoint a = 0 then (d, 0) else d.draw 65536
      let duty := if ilim < top then (quot (want * ilim : Nat) top).toNat else want
      let cyc := d.cycles
      ((d.onAux a fun x => { x with currents := cur, quietSince := if duty = 0 then cyc else x.quietSince }).setF
        (rAuxSpeed a) 16 16 duty).setB (rAuxStat a) 3 (d.aux[a].ramp.isSome)

def execAuxPwmPeriod (a : Aux) (first second : Int) (s : State) : Host.Outcome State Fault Refusal :=
  .next (s.onDev fun d => d.auxPeriod a first second)

/-- No Hall edge for STALL_MS while D > 0. -/
def execAuxStall (a : Aux) (s : State) : Host.Outcome State Fault Refusal :=
  .next (s.onDev fun d =>
    if d.auxOn a && decide (0 < d.fld (rAuxSpeed a) 16 16) &&
        decide (d.aux[a].quietSince + d.fld (rAuxLimit a) 16 8 * 10000000 ≤ d.cycles) then d.auxFault a 6
    else d)

/-- A write of SPN_Am_CTL: after a fault, EN = 0 and then EN = 1 restart the channel (R207). -/
def Dev.auxCtlWrite (d : Dev) (a : Aux) (v : W32) : Dev :=
  let en := v.getLsbD 0
  let d := d.wr (rAuxCtl a) (v &&& 0xFFFF_0003)
  let d := d.onAux a fun x =>
    if en then { x with latched := x.latched && !x.cleared, cleared := false }
    else { x with cleared := true, moving := false, holding := false, ramp := none }
  if en then d else (d.setF (rAuxSpeed a) 16 16 0).emit (.auxDrive a [none, none, none])

/-- EN written 0 and then 1. -/
def execAuxEnable (_m : Master) (a : Aux) (s : State) : Host.Outcome State Fault Refusal :=
  .next (s.onDev fun d =>
    let v := d.rd (rAuxCtl a)
    (d.auxCtlWrite a (fset v 0 1 0)).auxCtlWrite a (fset v 0 1 1))

/-- A write of SPN_A0_TARGET starts a move (R208). -/
def Dev.auxTargetWrite (d : Dev) (v : W32) : Dev :=
  let d := (d.setF (rAuxTarget 0) 0 24 v.toNat).onAux 0 fun x => { x with moving := true, holding := false }
  d.auxArrived 0

def execAuxTarget (_m : Master) (v : W32) (s : State) : Host.Outcome State Fault Refusal :=
  .next (s.onDev fun d => d.auxTargetWrite v)

/-- HOLD_MS after its target A0 turns every output off and sets DONE. -/
def execAuxHoldEnd (s : State) : Host.Outcome State Fault Refusal :=
  .next (s.onDev fun d =>
    let x := d.aux[(0 : Fin 2)]
    if x.holding ∧ x.holdSince + d.fld (rAuxLimit 0) 24 8 * 8000 ≤ d.beats then
      ((d.setB (rAuxStat 0) 7 true).onAux 0 fun x => { x with holding := false }).emit (.auxDrive 0 [none, none, none])
    else d)

end Sys2Proof.Machine
end

