-- ==== Sys2Proof/Machine/Axs.lean ====
section
/-! DEFINITION. Stepper axes: bridges and windings, the profile generator, moves, coupling, stops, homing, release and
retention, parking (08_sled_and_axes.md). -/

namespace Sys2Proof.Machine

abbrev rAx (x : Axis) (o : Nat) : Nat := 0x70_0000 + 0x100 * x.val + o
abbrev rAxStat (x : Axis) : Nat := rAx x 0x04
abbrev rAxPos (x : Axis) : Nat := rAx x 0x08
abbrev rAxTarget (x : Axis) : Nat := rAx x 0x0C
abbrev rAxTargetN (x : Axis) : Nat := rAx x 0x10
abbrev rAxMove (x : Axis) : Nat := rAx x 0x14
abbrev rAxVmax (x : Axis) : Nat := rAx x 0x18
abbrev rAxAccel (x : Axis) : Nat := rAx x 0x1C
abbrev rAxDecel (x : Axis) : Nat := rAx x 0x20
abbrev rAxJerk (x : Axis) : Nat := rAx x 0x24
abbrev rAxVlimLo (x : Axis) : Nat := rAx x 0x28
abbrev rAxVlimHi (x : Axis) : Nat := rAx x 0x2C
abbrev rAxChop (x : Axis) : Nat := rAx x 0x30
abbrev rAxCurrent (x : Axis) : Nat := rAx x 0x34
abbrev rAxHomeCfg (x : Axis) : Nat := rAx x 0x38
abbrev rAxHomeVel (x : Axis) : Nat := rAx x 0x3C
abbrev rAxHomeDist (x : Axis) : Nat := rAx x 0x40
abbrev rAxHomePos (x : Axis) : Nat := rAx x 0x44
abbrev rAxPark (x : Axis) : Nat := rAx x 0x48
abbrev rAxStby (x : Axis) : Nat := rAx x 0x4C
abbrev rAxRef (x : Axis) : Nat := rAx x 0x50
abbrev rAxIndex (x : Axis) : Nat := rAx x 0x54
abbrev rAxSw (x : Axis) : Nat := rAx x 0x58
abbrev rAxRebase (x : Axis) : Nat := rAx x 0x5C

def allAxes : List Axis := [0, 1, 2, 3, 4, 5, 6, 7]
def sleds : List Axis := [0, 1, 2, 3]

def Dev.onAx (d : Dev) (x : Axis) (f : AxisState → AxisState) : Dev := { d with axes := vmod d.axes x f }

/-- The sled axis of a head. -/
def sledOf (h : Head) : Axis := ⟨h.val, by omega⟩

/-- STATE: 0 RELEASED, 1 STANDSTILL, 2 MOVING, 3 HOMING, 4 COUPLING. -/
def Dev.axState (d : Dev) (x : Axis) : Nat := d.fld (rAxStat x) 0 3
def Dev.setAxState (d : Dev) (x : Axis) (n : Nat) : Dev := d.setF (rAxStat x) 0 3 n
def Dev.axUncertain (d : Dev) (x : Axis) : Bool := d.flag (rAxStat x) 3
/-- The whole microsteps issued (AXS_Xn_POS). -/
def Dev.axPos (d : Dev) (x : Axis) : Int := d.sfld (rAxPos x) 0 32
def Dev.setAxPos (d : Dev) (x : Axis) (n : Int) : Dev := d.wr (rAxPos x) (BitVec.ofNat 32 (uns 32 n))
/-- TARGET_REJECT. -/
def Dev.rejectMove (d : Dev) (x : Axis) : Dev := d.setB (rAxStat x) 9 true

/-! ### Bridges and windings (R210-R213) -/

/-- π in 2^-80. -/
def piQ : Nat := 0x3243F6A8885A308D31319

/-- Terms of the cosine series from the k-th on, in 2^-80, for the square of the angle. -/
def cosTerms : Nat → Nat → Nat → Int → Int
  | 0, _, _, _ => 0
  | n + 1, k, x2, t => t + cosTerms n (k + 1) x2 (-(t * x2 / 2 ^ 80) / ((2 * k + 1) * (2 * k + 2) : Nat))

/-- |cos(2π i / 1024)| in 2^-80. -/
def cosMag (i : Nat) : Nat :=
  let j := i % 512
  let j := if 256 < j then 512 - j else j
  if j = 256 then 0
  else
    let x := piQ * j / 512
    (cosTerms 16 0 (x * x / 2 ^ 80) (2 ^ 80)).toNat

/-- The cosine is negative. -/
def cosNeg (i : Nat) : Bool := decide (256 < i % 1024) && decide (i % 1024 < 768)

/-- The DAC code round(|I cos(2π i / 1024)|) (R211), for a current of part/800 of amp. -/
def dacCode (amp part i : Nat) : Nat := (amp * part * cosMag i + 400 * 2 ^ 80) / (800 * 2 ^ 80)

/-- The number of a cycle of the beat since the clock began. -/
def Dev.cycleNo (d : Dev) (cycle : Nat) : Nat := d.beats * 1250 + cycle

/-- The chopper phase of a winding after its code or sign may have changed: a reversal ends an off-time (R212, R213). -/
def windPhase (bridge code : Nat) (turned : Bool) (old : Nat) : Nat :=
  if bridge = 0 then 0
  else if bridge = 3 ∨ code = 0 then 3
  else if turned then 1
  else if old = 1 ∨ old = 2 then old else 1

/-- A winding from cycle t on: its chopper phase, and the counts of R214. A phase that changes begins anew, and an on-phase
that so ends has not tripped (notes/assumptions/84.md). -/
def AxisState.rewind (a : AxisState) (w : Winding) (code : Nat) (turned : Bool) (t : Nat) : AxisState :=
  let old := a.wind[w]
  let new := windPhase a.bridge code turned old
  let begun := new != old || (turned && new == 1)
  let untripped := old == 1 && begun
  let kept (n : Nat) : Nat := if new = 0 then 0 else n
  { a with
    wind := a.wind.set w new
    windAt := if begun then a.windAt.set w t else a.windAt
    strong := a.strong.set w (decide (32 ≤ code) || (!begun && a.strong[w]))
    noTrip := a.noTrip.set w (kept (a.noTrip[w] + b2n (untripped && a.strong[w])))
    early := a.early.set w (kept (if untripped then 0 else a.early[w])) }

/-- How much of its current an axis has, in 800ths: all of it, but for the ramps of R229. -/
def Dev.axPart (d : Dev) (x : Axis) : Nat :=
  match d.axes[x].fade with
  | none => 800
  | some (b, rising) => let e := min 800 (d.beats - b); if rising then e else 800 - e

/-- Apply an index from cycle t on: targets, DAC codes, signs and chopper phases of both windings. -/
def Dev.applyIndex (d : Dev) (x : Axis) (i t : Nat) : Dev :=
  let s := d.axes[x]
  let amp := if s.bridge = 1 then d.fld (rAxCurrent x) 0 8 else if s.bridge = 2 then d.fld (rAxCurrent x) 8 8 else 0
  let ib := (i + 768) % 1024
  let ca := dacCode amp (d.axPart x) i
  let cb := dacCode amp (d.axPart x) ib
  let na := cosNeg i && decide (0 < amp)
  let nb := cosNeg ib && decide (0 < amp)
  let ta := na != d.flag (rAxIndex x) 10
  let tb := nb != d.flag (rAxIndex x) 11
  (d.wr (rAxIndex x) (BitVec.ofNat 32 (i % 1024 + b2n na * 2 ^ 10 + b2n nb * 2 ^ 11 + ca * 2 ^ 16 + cb * 2 ^ 24))).onAx x
    fun a => (a.rewind 0 ca ta t).rewind 1 cb tb t

/-- The drive inputs IN1 and IN2 of a winding that drives in its target's direction, or against it (R210). -/
def driven (neg : Bool) : Bool × Bool := (!neg, neg)

/-- IN1 and IN2 of a winding in cycle t (R210, R212): COAST, the target's direction in the on-phase, the opposite for FD/16
of TOFF and SHORT for the rest of it, SHORT. -/
def Dev.bridgePins (d : Dev) (x : Axis) (w : Winding) (t : Nat) : Bool × Bool :=
  let a := d.axes[x]
  let neg := d.flag (rAxIndex x) (10 + w.val)
  if a.wind[w] = 0 then (false, false)
  else if a.wind[w] = 1 then driven neg
  else if a.wind[w] = 2 ∧ (t - a.windAt[w]) * 16 < d.fld (rAxChop x) 16 4 * (d.fld (rAxChop x) 0 8 * 100) then driven (!neg)
  else (true, true)

/-- Set the bridges' mode; COAST while the outputs are forced. -/
def Dev.setBridge (d : Dev) (x : Axis) (b : Nat) : Dev :=
  (d.onAx x fun a => { a with bridge := if d.pwr.forced then 0 else b, fade := none }).applyIndex x (d.fld (rAxIndex x) 0 10)
    (d.cycleNo 0)

/-- Pulses older than any DEBOUNCE are forgotten. -/
def Dev.trimTrail (d : Dev) (x : Axis) : Dev :=
  let now := d.cycleNo 0
  d.onAx x fun a => { a with trail := a.trail.filter fun e => decide (now ≤ e.1 + 300000) }

/-- One step pulse (R211): position and index; its DAC codes hold from the next cycle on (R213). -/
def Dev.stepPulse (d : Dev) (x : Axis) (p : Nat × Int) : Dev :=
  let t := d.cycleNo p.1
  ((d.setAxPos x (d.axPos x + p.2)).onAx x fun a => { a with trail := (t, p.2) :: a.trail }).applyIndex x
    (((d.fld (rAxIndex x) 0 10 : Int) + p.2) % 1024).toNat (t + 1)

/-- The step pulses of a beat, as its cycles and directions (R216): the servo cluster is told how many a sled's are. -/
def Dev.issueSteps (d : Dev) (x : Axis) (pulses : List (Nat × Int)) : Dev :=
  let d := if hx : x.val < 4 then d.onHead ⟨x.val, hx⟩ fun h => { h with sledSteps := (pulses.map (·.2)).sum } else d
  (pulses.foldl (fun d p => d.stepPulse x p) d).trimTrail x

/-- The standstill mode of STBY.MODE: HOLD on sleds; HOLD, OFF or SHORT on the others (R228). The spec gives no effect
for MODE 3 on those: the mode is then free. -/
def Dev.enterStandby (d : Dev) (x : Axis) : Dev :=
  let d := d.onAx x fun a => { a with holding := false }
  if x.val < 4 then d.setBridge x 2
  else
    let m := d.fld (rAxStby x) 0 2
    let (d, m) := if m = 3 then (d.drawn, d.fresh % 3) else (d, m)
    d.setBridge x (if m = 1 then 0 else if m = 2 then 3 else 2)

/-- A comparator trip in cycle t ends the on-phase: fast, then slow decay (R212). Until BLANK it is ignored; one at the first
cycle after it counts for R214. -/
def Dev.comparatorTrip (d : Dev) (x : Axis) (w : Winding) (t : Nat) : Dev :=
  let a := d.axes[x]
  let open' := a.windAt[w] + d.fld (rAxChop x) 8 8 * 10
  if a.wind[w] = 1 ∧ open' ≤ t then
    d.onAx x fun a => { a with wind := a.wind.set w 2, windAt := a.windAt.set w t, noTrip := a.noTrip.set w 0,
                               early := a.early.set w (if t = open' then a.early[w] + 1 else 0) }
  else d

def execComparatorTrip (x : Axis) (w : Winding) (cycle : Fin 1250) (s : State) : Host.Outcome State Fault Refusal :=
  .next (s.onDev fun d => d.comparatorTrip x w (d.cycleNo cycle))

/-- TOFF has expired by cycle t: the next on-phase began then (R212). -/
def Dev.offTimeEnd (d : Dev) (x : Axis) (w : Winding) (t : Nat) : Dev :=
  let begun := d.axes[x].windAt[w] + d.fld (rAxChop x) 0 8 * 100
  if d.axes[x].wind[w] = 2 ∧ begun ≤ t then
    let strong := decide (32 ≤ d.fld (rAxIndex x) (16 + 8 * w.val) 8)
    d.onAx x fun a => { a with wind := a.wind.set w 1, windAt := a.windAt.set w begun, strong := a.strong.set w strong }
  else d

def execOffTimeEnd (x : Axis) (w : Winding) (cycle : Fin 1250) (s : State) : Host.Outcome State Fault Refusal :=
  .next (s.onDev fun d => d.offTimeEnd x w (d.cycleNo cycle))

/-! ### The stopping distance (R215), in units of 2^-48 microstep: twice its floor, plus 1 where it is not whole -/

def stopQuot (n m : Nat) : Nat := 2 * (n / m) + b2n (n % m != 0)

/-- stop_dist(v, a) for v in 2^-24, a and decel in 2^-32, jerk in 2^-48. -/
def stopDist (v : Nat) (a : Int) (decel jerk : Nat) : Nat :=
  let v := v * 2 ^ 24
  let dc := decel * 2 ^ 16
  if jerk = 0 then stopQuot (v * (v + dc)) (2 * dc)
  else
    let a := a.toNat * 2 ^ 16
    let n := 2 * jerk * v + a * a
    let b := 2 * a * (2 * jerk * v + n)
    let c := 8 * jerk * jerk
    if 2 * dc * dc ≤ n then stopQuot (b * dc + n * (n + 2 * dc * dc)) (c * dc)
    else
      let r := isqrt 200 (8 * n * n * n) 0
      let q := stopQuot (b + r) c
      if r * r = 8 * n * n * n then q else 2 * (q / 2) + 1

/-- DECEL as the tick takes it: 0 is taken as 1 (R216). -/
def Dev.axDecel (d : Dev) (x : Axis) : Nat := max 1 (d.smpF (rAxDecel x) 0 32)

/-- The axis moves outward, or would. -/
def AxisState.outward (a : AxisState) : Bool := decide (a.p ≤ a.target * 2 ^ 24)

/-- The point at which a distance of half-units ends, rounded to a whole microstep away from the axis. -/
def AxisState.stopPoint (a : AxisState) (dist : Nat) : Int :=
  if a.outward then -((-(a.p * 2 ^ 25 + dist)) / 2 ^ 49) else (a.p * 2 ^ 25 - dist) / 2 ^ 49

/-- The virtual limits hold a position, or are not enforced (R218). -/
def Dev.inLimits (d : Dev) (x : Axis) (t : Int) : Bool :=
  d.axUncertain x || (decide (d.sfld (rAxVlimLo x) 0 32 ≤ t) && decide (t ≤ d.sfld (rAxVlimHi x) 0 32))

/-- A move in this direction runs toward an asserted switch (R227). -/
def Dev.towardSwitch (d : Dev) (x : Axis) (t : Int) : Bool :=
  (decide (t < d.axPos x) && d.flag (rAxSw x) 0) || (decide (d.axPos x < t) && d.flag (rAxSw x) 1)

/-! ### Starting and stopping moves (R217-R219, R221, R222) -/

/-- Drop a coupling remainder, counting it in CPL_DROP (R221). -/
def Dev.dropCoupling (d : Dev) (x : Axis) : Dev :=
  match d.axes[x].cpl with
  | none => d
  | some (n, k, _) =>
    (d.bump (rAxStat x) 24 8 (n - k).natAbs |>.onAx x fun a => { a with cpl := none }).setAxState x 1

/-- Launch from standstill toward a target. -/
def Dev.launch (d : Dev) (x : Axis) (t : Int) (cap : Option Nat) (st : Nat) : Dev :=
  let d := d.dropCoupling x
  let p := d.axPos x * 2 ^ 24
  let d := d.onAx x fun a => { a with p, v := 0, a := 0, phase := 1, target := t, cap, decelSeen := none, back := none,
                                      overshoot := false, holding := false }
  (((d.setAxState x st).setB (rAxStat x) 18 false).setB (rAxStat x) 7 false).setBridge x 1

/-- Decelerate to a stop at DECEL, then go on to `back` if given (R219, R222). -/
def Dev.brake (d : Dev) (x : Axis) (back : Option Int) : Dev :=
  let dc := d.axDecel x
  let sp := d.axes[x].stopPoint (stopDist d.axes[x].v d.axes[x].a dc (d.smpF (rAxJerk x) 0 32))
  (d.onAx x fun a => { a with target := sp, back, overshoot := false, phase := 2, decel := dc, decelSeen := some dc }).setB
    (rAxStat x) 18 false

/-- Start a move, or redirect the one that runs (R219). -/
def Dev.moveTo (d : Dev) (x : Axis) (t : Int) : Dev :=
  let a := d.axes[x]
  if a.phase = 0 ∧ a.p = d.axPos x * 2 ^ 24 ∨ d.axState x = 4 then d.launch x t none 2
  else
    let ds := stopDist a.v a.a (d.axDecel x) (d.smpF (rAxJerk x) 0 32)
    let ahead := if a.outward then t * (2 ^ 24 : Int) - a.p else a.p - t * (2 ^ 24 : Int)
    if ahead * 2 ^ 25 < ds then
      if d.inLimits x (a.stopPoint ds) then d.brake x (some t) else d.rejectMove x
    else (d.onAx x fun a => { a with target := t, phase := 1, decelSeen := none, back := none, overshoot := false }).setB
      (rAxStat x) 18 false

/-- A controlled stop (R222). -/
def Dev.haltAxis (d : Dev) (x : Axis) : Dev :=
  if d.axes[x].phase = 0 then d.dropCoupling x else d.brake x none

/-- A write of TARGET_N (R217). -/
def Dev.absoluteMove (d : Dev) (m : Master) (x : Axis) (n : W32) : Dev :=
  let d := d.wr (rAxTargetN x) n
  let t := d.rd (rAxTarget x)
  if n ≠ ~~~ t then
    d.mismatch 1 false (rAxTarget x) (rAxTarget x) t.toNat (uns 32 d.axes[x].target) (writerCode m)
  else if d.axUncertain x || d.axState x == 3 || d.axState x == 0 || !d.inLimits x t.toInt || d.towardSwitch x t.toInt then
    d.rejectMove x
  else d.moveTo x t.toInt

def execAbsoluteMove (m : Master) (x : Axis) (targetN : W32) (s : State) : Host.Outcome State Fault Refusal :=
  .next (s.onDev fun d => d.absoluteMove m x targetN)

/-- The whole microstep last issued before the next tick: that of the tick just made is issued first (R217). -/
def Dev.lastIssued (d : Dev) (x : Axis) : Int := d.axPos x + (d.axes[x].plan.map (·.2)).sum

/-- A relative move of k microsteps from the last one issued. -/
def Dev.stepBy (d : Dev) (x : Axis) (k : Int) : Dev :=
  let t := d.lastIssued x + k
  if d.axState x = 3 ∨ d.axState x = 0 ∨ !d.inLimits x t ∨ d.towardSwitch x t then d.rejectMove x else d.moveTo x t

/-- A write of AXS_Xn_MOVE (R217). -/
def Dev.relativeMove (d : Dev) (m : Master) (x : Axis) (v : W32) : Dev :=
  let d := d.wr (rAxMove x) v
  if !pairOk 16 (fget v 0 16) (fget v 16 16) then
    d.mismatch 1 false (rAxMove x) (rAxMove x) (fget v 0 16) (uns 32 d.axes[x].target) (writerCode m)
  else d.stepBy x (sgn 16 (fget v 0 16))

def execRelativeMove (m : Master) (x : Axis) (v : W32) (s : State) : Host.Outcome State Fault Refusal :=
  .next (s.onDev fun d => d.relativeMove m x v)

/-- The register of a profile parameter, and its width. -/
def profileReg (x : Axis) : ProfileParam → Nat × Nat
  | .vmax => (rAxVmax x, 25)
  | .accel => (rAxAccel x, 32)
  | .decel => (rAxDecel x, 32)
  | .jerk => (rAxJerk x, 32)

/-- VMAX, ACCEL, DECEL and JERK are live: the next beat's tick uses them (R220). -/
def execProfileParamWrite (_m : Master) (x : Axis) (p : ProfileParam) (v : W32) (s : State) :
    Host.Outcome State Fault Refusal :=
  .next (s.onDev fun d => d.setF (profileReg x p).1 0 (profileReg x p).2 v.toNat)

/-- A hard stop with its STOP_CAUSE (R222): step pulses stop, the index stays, the position becomes uncertain. A seek
that used the sled goes on from the address. -/
def Dev.hardStop (d : Dev) (x : Axis) (cause : Nat) : Dev :=
  let d := d.dropCoupling x
  let p := d.axPos x * 2 ^ 24
  let released := d.axState x == 0
  let d := d.onAx x fun a => { a with p, v := 0, a := 0, phase := 0, target := p / 2 ^ 24, back := none, overshoot := false,
                                      home := none, holding := false, plan := [] }
  let d := (((d.setF (rAxStat x) 20 4 cause).setB (rAxStat x) 3 true).setB (rAxStat x) 4 false).setB (rAxStat x) 7 false
  let d := d.setB (rAxStat x) 18 false
  let d := if cause = 4 ∨ cause = 5 then (d.setAxState x 0).setBridge x 0
    else if released then d
    else (d.setAxState x 1).enterStandby x
  let d := if hx : x.val < 4 then
      let h : Head := ⟨x.val, hx⟩
      if (d.heads[h].seek).isSome then d.setF (rSeek h) 24 4 3 else d
    else d
  d.raise ⟨(20 + x.val) % 256, Nat.mod_lt _ (by decide)⟩ 1 (rAxStat x) cause 0 0

def execAxisStop (_m : Master) (x : Axis) (s : State) : Host.Outcome State Fault Refusal :=
  .next (s.onDev fun d => d.hardStop x 1)

/-- The AXIS_STOP chain's work (R222). -/
def Dev.axisStopChain (d : Dev) (x : Axis) : Dev := d.dropCoupling x

/-- Whether a winding's count makes it a bridge fault of this kind (R214). -/
def Dev.windFault (d : Dev) (x : Axis) (w : Winding) : BridgeKind → Bool
  | .openWinding => decide (64 ≤ d.axes[x].noTrip[w])
  | .shortedWinding => decide (4 ≤ d.axes[x].early[w])

/-- A bridge fault is declared on a winding (R214). -/
def execBridgeFault (x : Axis) (w : Winding) (k : BridgeKind) (s : State) : Host.Outcome State Fault Refusal :=
  .next (s.onDev fun d =>
    if d.axes[x].bridge = 0 || !d.windFault x w k then d
    else ((d.setB (rAxStat x) 11 true).gcnt 0x16).hardStop x (match k with | .openWinding => 4 | .shortedWinding => 5))

/-- HALT (R222); during homing it ends the homing (R226). -/
def Dev.axisHalt (d : Dev) (x : Axis) : Dev :=
  let homing := (d.axes[x].home).isSome
  let d := (d.onAx x fun a => { a with home := none }).haltAxis x
  if homing then
    if d.axes[x].phase = 0 then (d.setAxState x 1).onAx x fun a => { a with holding := true } else d.setAxState x 2
  else d

def execAxisHalt (_m : Master) (x : Axis) (s : State) : Host.Outcome State Fault Refusal :=
  .next (s.onDev fun d => d.axisHalt x)

/-! ### Homing (R226, R227) -/

/-- A distance beyond every axis: a homing state has no end of its own. -/
def farAway : Int := 2 ^ 40

/-- Begin CLEAR (1), SEEK (2) or BACKOFF (4). -/
def Dev.homeStage (d : Dev) (x : Axis) (st : Nat) : Dev :=
  let vel := if st = 2 then d.fld (rAxHomeVel x) 0 16 else d.fld (rAxHomeVel x) 16 16
  let cap := min (quot (vel * 64 * 2 ^ 24) 800000).toNat 0x146_6666
  let pos := d.axPos x
  (d.launch x (if st = 2 then pos - farAway else pos + farAway) (some cap) 3).onAx x fun a =>
    { a with home := a.home.map fun h => { h with stage := st, start := pos, released := false } }

/-- CLEAR where the inner switch is asserted, else SEEK. -/
def Dev.homeFirst (d : Dev) (x : Axis) : Dev := d.homeStage x (if d.flag (rAxSw x) 0 then 1 else 2)

/-- A home speed or RANGE of 0 refuses homing. -/
def Dev.homeUnset (d : Dev) (x : Axis) : Bool :=
  d.fld (rAxHomeVel x) 0 16 == 0 || d.fld (rAxHomeVel x) 16 16 == 0 || d.fld (rAxHomeDist x) 16 16 == 0

/-- HOME (R226). -/
def Dev.axisHome (d : Dev) (x : Axis) : Dev :=
  if d.axState x = 3 then d
  else if d.axState x = 0 ∨ d.homeUnset x then d.rejectMove x
  else
    let d := (d.onAx x fun a => { a with home := some { stage := 0, start := d.axPos x, latch := 0, latchBeat := none,
                                                        released := false, why := 0 } }).setF (rAxSw x) 8 4 0
    if d.axes[x].phase = 0 then d.homeFirst x else (d.brake x none).setAxState x 3

def execAxisHome (_m : Master) (x : Axis) (s : State) : Host.Outcome State Fault Refusal :=
  .next (s.onDev fun d => d.axisHome x)

/-- A sled's parking has failed: it counts as parked (R231). -/
def Dev.parkFail (d : Dev) (x : Axis) (why : Nat) : Dev :=
  if d.axes[x].park = 1 then
    ((d.setB (rAxStat x) 19 true).onAx x fun a => { a with park := 2 }).post 0x0141 1 x.val why (uns 64 (d.axPos x)) 0
  else d

/-- HOME_FAIL and HOME_WHY; the position is left uncertain. -/
def Dev.homeFlags (d : Dev) (x : Axis) (why : Nat) : Dev :=
  (((d.setB (rAxStat x) 12 true).setF (rAxStat x) 13 3 why).setB (rAxStat x) 3 true).setB (rAxStat x) 4 false

/-- Standstill after a move: IRUN for HOLD_DELAY (R228). -/
def Dev.axisRest (d : Dev) (x : Axis) : Dev :=
  (((d.setAxState x 1).setB (rAxStat x) 18 false).setB (rAxStat x) 7 false).onAx x fun a =>
    { a with home := none, holding := true, cap := none, overshoot := false }

/-- Homing fails and ends in a controlled stop. -/
def Dev.homeFail (d : Dev) (x : Axis) (why : Nat) : Dev :=
  let d := d.homeFlags x why
  if d.axes[x].phase = 0 then (d.axisRest x).parkFail x why
  else (d.brake x none).onAx x fun a => { a with home := a.home.map fun h => { h with stage := 5, why } }

/-- A sled that parks moves to PARK. -/
def Dev.goPark (d : Dev) (x : Axis) : Dev :=
  let t := d.sfld (rAxPark x) 0 32
  if d.axes[x].park = 1 then if d.inLimits x t then d.moveTo x t else d.rejectMove x else d

/-- DONE: the position is re-based on the latched one. -/
def Dev.homeDone (d : Dev) (x : Axis) (latch : Int) : Dev :=
  let p := d.sfld (rAxHomePos x) 0 32 + d.axPos x - latch
  let d := (d.setAxPos x p).onAx x fun a => { a with p := p * 2 ^ 24, target := p }
  ((((d.setB (rAxStat x) 3 false).setB (rAxStat x) 4 true).axisRest x)).goPark x

/-- A sled at its park position is parked. -/
def Dev.parkDone (d : Dev) (x : Axis) : Dev :=
  if d.axes[x].park = 1 ∧ d.axPos x = d.sfld (rAxPark x) 0 32 then d.onAx x fun a => { a with park := 2 } else d

/-- A profile has ended and its pulses are out: the return or redirect follows, the next homing state, or standstill. -/
def Dev.arrived (d : Dev) (x : Axis) : Dev :=
  let a := d.axes[x]
  match a.back, a.home with
  | some t, _ => (d.launch x t a.cap (d.axState x)).setB (rAxStat x) 18 a.overshoot
  | none, some h =>
    if h.stage = 0 then d.homeFirst x
    else if h.stage = 1 then d.homeStage x 2
    else if h.stage = 3 then d.homeStage x 4
    else if h.stage = 4 then d.homeDone x h.latch
    else if h.stage = 5 then (d.axisRest x).parkFail x h.why
    else d
  | none, none => (d.axisRest x).parkDone x

/-- An edge of the inner switch in homing, at its latched position. -/
def Dev.homeInner (d : Dev) (x : Axis) (h : Homing) (asserted : Bool) (pos : Int) : Dev :=
  let locked := match h.latchBeat with
    | some b => decide (d.beats < b + 800 * d.fld (rAxHomeCfg x) 8 8)
    | none => false
  let now := d.beats
  if locked then d
  else if h.stage = 2 ∧ asserted then
    (d.brake x none).onAx x fun a =>
      { a with home := some { h with stage := 3, latch := pos, latchBeat := some now } }
  else if (h.stage = 1 ∨ h.stage = 4) ∧ !asserted then
    (d.onAx x fun a => { a with home := some { h with released := true } }).moveTo x (pos + d.fld (rAxHomeDist x) 0 16)
  else if (h.stage = 1 ∨ h.stage = 4) ∧ asserted then
    let d := d.onAx x fun a => { a with home := some { h with released := false } }
    if h.stage = 4 then
      let d := d.bump (rAxSw x) 8 4
      let n := d.fld (rAxSw x) 8 4
      if d.fld (rAxHomeCfg x) 16 4 < n then d.homeFail x 2 else d.moveTo x (h.start + farAway)
    else d.moveTo x (h.start + farAway)
  else d

/-- The position at the last step pulse issued at or before cycle t (R225). -/
def Dev.posAt (d : Dev) (x : Axis) (t : Nat) : Int :=
  d.axPos x - ((d.axes[x].trail.filter fun e => decide (t < e.1)).map (·.2)).sum

/-- A qualified switch change (R225-R227), at its latched position. -/
def Dev.limitEdge (d : Dev) (x : Axis) (sw : Switch) (asserted : Bool) (pos : Int) : Dev :=
  let bit := match sw with | .inner => 0 | .outer => 1
  if d.flag (rAxSw x) bit = asserted then d
  else
    let d := d.setB (rAxSw x) bit asserted
    match d.axes[x].home, sw with
    | some h, .inner => if h.stage = 5 then d else d.homeInner x h asserted pos
    | some _, .outer =>
      if asserted then (((d.homeFlags x 4).gcnt 0x17).hardStop x 3).parkFail x 4 else d
    | none, _ =>
      if asserted then
        (((d.setB (rAxStat x) 10 true).bump (rAxSw x) 16 8).gcnt 0x17).hardStop x (2 + bit)
      else d

/-- An input has held its level for DEBOUNCE in cycle t (R225): POL says which level asserts the switch, and the edge is
DEBOUNCE old. -/
def Dev.limitQualified (d : Dev) (x : Axis) (sw : Switch) (level : Bool) (t : Nat) : Dev :=
  let pol := d.flag (rAxHomeCfg x) (match sw with | .inner => 20 | .outer => 21)
  d.limitEdge x sw (level != pol) (d.posAt x (t - d.fld (rAxHomeCfg x) 0 8 * 1000))

def execLimitQualified (x : Axis) (sw : Switch) (level : Bool) (cycle : Fin 1250) (s : State) :
    Host.Outcome State Fault Refusal :=
  .next (s.onDev fun d => d.limitQualified x sw level (d.cycleNo cycle))

/-- CLEAR, SEEK and BACKOFF fail after RANGE times 256 microsteps (R226). -/
def execHomeRangeExceeded (x : Axis) (s : State) : Host.Outcome State Fault Refusal :=
  .next (s.onDev fun d =>
    match d.axes[x].home with
    | some h =>
      if d.fld (rAxHomeDist x) 16 16 * 256 ≤ (d.axPos x - h.start).natAbs ∧ !h.released then
        if h.stage = 2 then d.homeFail x 1 else if h.stage = 1 ∨ h.stage = 4 then d.homeFail x 3 else d
      else d
    | none => d)

/-- HOLD_DELAY after a move the axis enters its standstill mode (R228). -/
def execHoldDelayEnd (x : Axis) (s : State) : Host.Outcome State Fault Refusal :=
  .next (s.onDev fun d => if d.axes[x].holding && d.axState x == 1 then d.enterStandby x else d)

/-! ### Release, retention, energise (R229, R230) -/

/-- The axis lets go: its state is RELEASED; a sled with RET_EN retains index and position. -/
def Dev.letGo (d : Dev) (x : Axis) : Dev :=
  let i := d.fld (rAxIndex x) 0 10
  let pos := d.axPos x
  let d := d.dropCoupling x
  let d := d.onAx x fun a => { a with p := pos * 2 ^ 24, v := 0, a := 0, phase := 0, target := pos, back := none,
                                      overshoot := false, home := none, holding := false, plan := [] }
  let d := d.setAxState x 0
  let d := (d.setB (rAxStat x) 7 false).setB (rAxStat x) 18 false
  if x.val < 4 ∧ d.flag (rAxStby x) 2 then
    (d.setB (rAxStat x) 5 true).onAx x fun a => { a with retained := some (i, pos) }
  else (d.setB (rAxStat x) 3 true).setB (rAxStat x) 4 false

/-- RELEASE, at standstill only (R229): the currents of bridges that chop ramp to 0 over 1 ms, then COAST. -/
def Dev.axisRelease (d : Dev) (x : Axis) : Dev :=
  if d.axState x ≠ 1 then d
  else
    let d := d.letGo x
    if d.axes[x].bridge = 1 ∨ d.axes[x].bridge = 2 then
      let now := d.beats
      d.onAx x fun a => { a with fade := some (now, false) }
    else d.setBridge x 0

def execAxisRelease (_m : Master) (x : Axis) (s : State) : Host.Outcome State Fault Refusal :=
  .next (s.onDev fun d => d.axisRelease x)

/-- Entry into P2 or P3 releases every axis (R230). -/
def Dev.releaseAll (d : Dev) : Dev :=
  d.each allAxes fun d x =>
    let d := (if d.axState x = 0 then d else d.letGo x).setBridge x 0
    if 4 ≤ x.val then (d.setB (rAxStat x) 3 true).setB (rAxStat x) 4 false else d

/-- The currents ramp from 0 to IHOLD over 1 ms at an index. -/
def Dev.fadeIn (d : Dev) (x : Axis) (i : Nat) : Dev :=
  let now := d.beats
  let d := d.setBridge x 2
  (d.onAx x fun a => { a with fade := some (now, true) }).applyIndex x i (d.cycleNo 0)

/-- A beat of a ramp of the currents; at its end they stand at IHOLD, or the bridges are in COAST. -/
def Dev.fadeBeat (d : Dev) (x : Axis) : Dev :=
  match d.axes[x].fade with
  | none => d
  | some (b, rising) =>
    if d.beats < b + 800 then d.applyIndex x (d.fld (rAxIndex x) 0 10) (d.cycleNo 0) else d.setBridge x (if rising then 2 else 0)

/-- ENERGISE (R229): with the supply present, at the retained index or the index from reset. -/
def Dev.axisEnergise (d : Dev) (x : Axis) (supply : Bool) : Dev :=
  if !supply || d.axState x != 0 then d
  else
    let d := d.setAxState x 1
    match d.axes[x].retained with
    | some (i, pos) =>
      let d := ((d.setAxPos x pos).onAx x fun a => { a with retained := some (i, pos), p := pos * 2 ^ 24 })
      ((d.fadeIn x i).setB (rAxStat x) 5 false).setB (rAxStat x) 6 (decide (x.val < 4))
    | none => d.fadeIn x 0

def execAxisEnergise (_m : Master) (x : Axis) (supply : Bool) (s : State) : Host.Outcome State Fault Refusal :=
  .next (s.onDev fun d => d.axisEnergise x supply)

/-! ### Coupling and re-base (R163, R221, R223) -/

/-- The motor controller issues no step pulse: it is halted, or the part has stopped safely. -/
def Dev.motorStopped (d : Dev) : Bool := d.cue.halted.getLsbD 1 || d.outputsHeld

/-- Pulses k + 1 to k + m of n evenly spaced over an act, in its beat b: pulse j falls at j/n of the act's cycles. -/
def spacedPulses (n b k m : Nat) (dir : Int) : List (Nat × Int) :=
  (List.range m).map fun j => (min 1249 (((k + j + 1) * 1280000 - 1) / n - b * 1250), dir)

/-- A beat of coupling: evenly spaced pulses over 1,024 beats. -/
def Dev.coupleBeat (d : Dev) (x : Axis) : Dev :=
  match d.axes[x].cpl with
  | none => d
  | some (n, k, b) =>
    let q := (b + 1) * n.natAbs / 1024
    let dir : Int := if n < 0 then -1 else 1
    let goal := dir * q
    let d := d.issueSteps x (spacedPulses n.natAbs b k.natAbs (q - k.natAbs) dir)
    if b + 1 < 1024 then d.onAx x fun a => { a with cpl := some (n, goal, b + 1) }
    else (d.onAx x fun a => { a with cpl := none }).axisRest x

/-- A microstep request of the sled loop (R221): it is issued from the act's first beat on. -/
def Dev.couple (d : Dev) (x : Axis) (k : Int) : Dev :=
  let st := d.axState x
  if st = 0 ∨ st = 3 ∨ st = 2 then d.bump (rAxStat x) 24 8 k.natAbs
  else
    let pos := d.axPos x
    let t := if d.axUncertain x then pos + k
      else clampI (d.sfld (rAxVlimLo x) 0 32) (d.sfld (rAxVlimHi x) 0 32) (pos + k)
    let d := d.onlyIf (decide (t ≠ pos + k)) fun d => d.setB (rAxStat x) 16 true
    let d := ((d.onAx x fun a => { a with cpl := some (t - pos, 0, 0), holding := false }).setAxState x 4).setBridge x 1
    if d.motorStopped then d else d.coupleBeat x

/-- The sled loop's request at an act boundary (R163): in the direction that reduces lp. SLD_OUT shows it (R182). A tie of
the rounding goes away from zero (notes/assumptions/76.md). -/
def Dev.sledRequest (d : Dev) (h : Head) : Dev :=
  let lp := d.heads[h].sledLp
  if !d.coupled h || !d.flag (rLoopCtl h 5) 0 || decide (lp.natAbs ≤ d.fld (rSledCfg h) 16 8 * 64) then d.setCode h 5 0
  else
    let u := d.fld (rSledCfg h) 0 16
    let k := if u = 0 then Config.divZero lp else divRound (lp * 256) u
    let lim : Int := d.sfld (rLoopLimit h 5) 0 16
    let k := clampI (-lim) lim k
    (d.setCode h 5 k).couple (sledOf h) k

/-- A homing state's positions move with a re-base. -/
def Homing.shift (diff : Int) (h : Homing) : Homing := { h with start := h.start + diff, latch := h.latch + diff }

/-- The position is re-based to p (R223). -/
def Dev.rebase (d : Dev) (x : Axis) (p : Int) : Dev :=
  let diff := p - d.axPos x
  let a := d.axes[x]
  let moving := a.phase != 0
  let goal := a.back.getD a.target + diff
  let lim := clampI (d.sfld (rAxVlimLo x) 0 32) (d.sfld (rAxVlimHi x) 0 32) goal
  let d := (d.setAxPos x p).wr (rAxRebase x) (BitVec.ofNat 32 (uns 24 diff))
  let d := d.onAx x fun a => { a with
    p := a.p + diff * 2 ^ 24
    target := if a.back.isSome then a.target + diff else if moving then lim else p
    back := a.back.map fun _ => lim
    home := a.home.map (Homing.shift diff) }
  let d := if moving then
      ((d.wr (rAxTarget x) (BitVec.ofNat 32 (uns 32 lim))).wr (rAxTargetN x) (~~~ BitVec.ofNat 32 (uns 32 lim))).onlyIf
        (decide (lim ≠ goal)) fun d => d.setB (rAxStat x) 16 true
    else d
  let tol := d.fld (rAxStby x) 8 8
  let kept := match a.retained with | some r => r.2 | none => 0
  let d := if d.flag (rAxStat x) 6 ∧ tol < diff.natAbs then
      (d.setB (rAxStat x) 17 true).post 0x0140 1 x.val (uns 64 kept) (uns 64 p) tol
    else d
  (((d.onAx x fun a => { a with retained := none }).setB (rAxStat x) 3 false).setB (rAxStat x) 6 false)

/-- TRK_LOCK of a head is set on a band-turn: its sled is re-based (R223). r is 22 mm plus 1.92 µm a turn. -/
def Dev.sledRebase (d : Dev) (h : Head) (turn : Nat) : Dev :=
  let x := sledOf h
  let r0 := d.fld (rAxRef x) 0 16
  let pitch := d.fld (rAxRef x) 16 16
  let u := d.fld (rSledCfg h) 0 16
  let trk := d.lastCode h 1
  let num : Int := ((22000 - r0 : Int) * 10000 + turn * 19200) * u - trk * 256 * pitch
  let p := if pitch * u = 0 then Config.divZero num else divRound num (pitch * u)
  d.rebase x p

/-! ### The profile tick (R215, R216, R220) -/

/-- A new DECEL (R220). -/
def Dev.newDecel (d : Dev) (x : Axis) : Dev :=
  let a := d.axes[x]
  let dc := d.axDecel x
  if a.decelSeen = some dc then d
  else if a.phase ≠ 2 ∨ a.decelSeen = none then d.onAx x fun a => { a with decel := dc, decelSeen := some dc }
  else
    let dn := stopDist a.v a.a dc (d.smpF (rAxJerk x) 0 32)
    let sp := a.stopPoint dn
    if dn ≤ (a.target * 2 ^ 24 - a.p).natAbs * 2 ^ 25 then
      d.onAx x fun a => { a with decel := dc, decelSeen := some dc }
    else if d.inLimits x sp then
      d.onAx x fun a => { a with decel := dc, decelSeen := some dc, target := sp,
                                 back := some (a.back.getD a.target), overshoot := if a.back.isNone then true else a.overshoot }
    else (d.setB (rAxStat x) 8 true).onAx x fun a => { a with decelSeen := some dc }

/-- Speed, acceleration and phase after a tick of the generator's pseudocode (R215). -/
def Dev.rampNext (d : Dev) (x : Axis) : Nat × Int × Nat :=
  let a := d.axes[x]
  let vmax := a.cap.getD (min (d.smpF (rAxVmax x) 0 25) 0x146_6666)
  let accel := max 1 (d.smpF (rAxAccel x) 0 32)
  let jerk := d.smpF (rAxJerk x) 0 32
  let rem := (a.target * 2 ^ 24 - a.p).natAbs
  let near := decide (rem * 2 ^ 25 ≤ stopDist a.v a.a a.decel jerk)
  let ph := if near then 2 else a.phase
  let braking := (ph == 2 && near) || decide (vmax < a.v)
  let goal : Int := if braking then -a.decel else if ph = 2 ∨ a.v = vmax then 0 else accel
  let acc := if jerk = 0 then goal
    else quot (clampI (a.a * 2 ^ 16 - jerk) (a.a * 2 ^ 16 + jerk) (goal * 2 ^ 16)) (2 ^ 16)
  let lo := if vmax < a.v ∧ braking ∧ !near then vmax else 0
  let hi := if ph = 2 ∨ vmax < a.v then a.v else vmax
  ((clampI lo hi (quot (a.v * 256 + acc) 256)).toNat, acc, ph)

/-- One tick of the generator (R215): the move ends at its target, or goes on by the mean speed. -/
def Dev.profile (d : Dev) (x : Axis) : Dev :=
  let a := d.axes[x]
  let (vn, acc, ph) := d.rampNext x
  let rem := (a.target * 2 ^ 24 - a.p).natAbs
  if 2 * rem ≤ a.v + vn ∨ (ph = 2 ∧ vn = 0) then
    d.onAx x fun a => { a with p := a.target * 2 ^ 24, v := 0, a := 0, phase := 0 }
  else
    let step := quot (a.v + vn : Nat) 2
    (d.onAx x fun a => { a with p := if a.outward then a.p + step else a.p - step, v := vn, a := acc, phase := ph }).setB
      (rAxStat x) 7 (ph == 2)

/-- The whole microstep an axis is to have reached. -/
def AxisState.whole (a : AxisState) : Int := if a.outward then a.p / 2 ^ 24 else -(-a.p / 2 ^ 24)

/-- The cycle of the next beat, not before `low`, in which a position moving from p0 by `step` passes microstep m (R216). One
it does not pass in the tick, the remainder of a move that has ended, has no stated cycle: it is free. -/
def Dev.pulseCycle (d : Dev) (p0 : Int) (step : Nat) (m : Int) (low : Nat) : Dev × Nat :=
  let n := (m * 2 ^ 24 - p0).natAbs
  if n = 0 ∨ step < n then (d.drawn, low + d.fresh % (1250 - low)) else (d, max low (min 1249 (quot (n * 1250 : Nat) step).toNat))

/-- Plan the pulses of the next beat, at most two (R215, R216), after a tick that began at p0 with this step. -/
def Dev.planSteps (d : Dev) (x : Axis) (p0 : Int) (step : Nat) : Dev :=
  let pos := d.axPos x
  let k := clampI (-2) 2 ((d.axes[x]).whole - pos)
  let dir : Int := if k < 0 then -1 else 1
  if k = 0 then d.onAx x fun a => { a with plan := [] }
  else
    let (d, c) := d.pulseCycle p0 step (pos + dir) 0
    if k.natAbs = 1 then d.onAx x fun a => { a with plan := [(c, dir)] }
    else
      let (d, c') := d.pulseCycle p0 step (pos + 2 * dir) c
      d.onAx x fun a => { a with plan := [(c, dir), (c', dir)] }

/-- A tick of an axis that moves under R217: at the end of its pulses the move ends. Coupling is issued by the beat. -/
def Dev.axisTick (d : Dev) (x : Axis) : Dev :=
  let st := d.axState x
  if st = 2 ∨ st = 3 then
    let p0 := d.axes[x].p
    if d.axes[x].phase = 0 then
      if (d.axes[x]).whole = d.axPos x then d.arrived x else d.planSteps x p0 0
    else
      let d := d.newDecel x
      let step := (d.axes[x].v + (d.rampNext x).1) / 2
      let d := d.profile x
      let d := d.planSteps x p0 step
      if d.axes[x].phase = 0 ∧ (d.axes[x]).whole = d.axPos x then d.arrived x else d
  else d

/-- A beat of an axis: the planned pulses, or the beat's share of a coupling request, are issued, and a ramp of the currents
goes on. -/
def Dev.axisBeat (d : Dev) (x : Axis) : Dev :=
  let d := d.fadeBeat x
  if d.axState x = 4 then d.coupleBeat x
  else
    let plan := d.axes[x].plan
    (d.onAx x fun a => { a with plan := [] }).issueSteps x plan

/-- What a beat boundary does for the axes. -/
def Dev.axesBeat (d : Dev) : Dev := if d.motorStopped then d else d.each allAxes Dev.axisBeat

/-- A sled begins to park (R231; beats 9-63 of R179). -/
def Dev.parkSled (d : Dev) (x : Axis) : Dev :=
  let d := d.onAx x fun a => { a with park := 1 }
  if d.axState x = 0 then d.parkFail x 0
  else if d.axState x = 3 then d
  else if d.axUncertain x then
    if d.homeUnset x then (d.rejectMove x).parkFail x (d.fld (rAxStat x) 13 3) else d.axisHome x
  else d.goPark x |>.parkDone x

/-- Parking in GHOST_LIGHT, from the beat of R57 on: each sled parks, X4-X7 halt. -/
def Dev.parkAll (d : Dev) : Dev :=
  if d.ghostLight && decide (d.image.glRamp + 2 ≤ d.cue.glBeat) then
    let first := d.axes[(4 : Axis)].park == 0
    let d := d.each sleds fun d x => if d.axes[x].park = 0 then d.parkSled x else d
    if first then
      d.each [4, 5, 6, 7] fun d x => (d.axisHalt x).onAx x fun a => { a with park := 2 }
    else d
  else d

/-- The motor controller's tick for the eight axes, once a beat; none while it is halted or the part has stopped safely. -/
def Dev.profileTick (d : Dev) : Dev :=
  if d.motorStopped || d.spn.tickBeat == some d.beats then d
  else
    let now := d.beats
    (d.onSpn fun s => { s with tickBeat := some now }).parkAll.each allAxes Dev.axisTick

def execProfileTick (s : State) : Host.Outcome State Fault Refusal := .next (s.onDev Dev.profileTick)

/-- Every sled counts as parked. -/
def Dev.sledsParked (d : Dev) : Bool := sleds.all fun x => d.axes[x].park == 2

/-- A safe stop stops every axis (R59, R222, R231). -/
def Dev.axesSafeStop (d : Dev) : Dev := d.each allAxes fun d x => d.hardStop x 6

end Sys2Proof.Machine
end

