-- ==== Sys2Proof/Machine/Fmt.lean ====
section
/-! DEFINITION. The wobble address (03_zrf_medium.md): ADDRESS_WORD, WOBBLE_LOST, BAND_SLIP. -/

namespace Sys2Proof.Machine

/-- An address word passes its checks: CRC-16, and BAND_TURN equal to turn(512 * WORD) (R72, R73). -/
def addressValid (bits : BitVec 63) : Bool :=
  let v := bits.toNat
  v % 2 ^ 16 == addressCheck bits && v / 2 ^ 43 % 2 ^ 15 == turnOf (512 * (v / 2 ^ 21 % 2 ^ 22))

/-- One wobble word has passed: the count carries the position on by one word (R72). -/
def Wobble.carry (w : Wobble) : Wobble := { w with next := w.next + 1, count := 0, odd := w.odd.map (· + 1) }

/-- A discarded word (CRC or BAND_TURN): counted, the position is carried. -/
def Dev.wordDiscarded (d : Dev) (h : Head) : Dev :=
  (d.bump (rWstat h) 0 8).onHead h fun s =>
    { s with wobble := { s.wobble.carry with discards := s.wobble.discards + 1 } }

/-- The position is re-based on word n, whose successor comes next. -/
def Wobble.rebase (w : Wobble) (n : Nat) (layer : Layer) (side : Side) : Wobble :=
  { w with seen := true, next := n + 1, count := 0, layer, side, discards := 0, odd := none }

/-- A valid word n of the given layer and side (the table "When the wobble address cannot be trusted"). Three points are the
model's (notes/assumptions/73.md): a word that agrees with neither the carried count nor the ignored word becomes the
ignored word itself; a discarded word between two ignored ones does not part them; and LAYER and SIDE are not compared,
but taken over with the number. -/
def Dev.wordValid (d : Dev) (h : Head) (n : Nat) (layer : Layer) (side : Side) : Dev :=
  let w := d.heads[h].wobble
  if w.seen && w.next == n then
    -- agrees with the carried position: LOST clears
    (d.onHead h fun s => { s with wobble := s.wobble.rebase n layer side }).setB (rWstat h) 9 false
  else if w.odd == some n then
    -- agrees with the valid word before it
    let d1 := (d.onHead h fun s => { s with wobble := s.wobble.rebase n layer side }).setB (rWstat h) 9 false
    if w.seen then
      (d1.setB (rWstat h) 8 true).post 0x0123 0x02 h.val w.next n (side.val + layer.val * 16)
    else d1
  else if w.seen then
    d.onHead h fun s => { s with wobble := { s.wobble.carry with odd := some (n + 1), discards := 0 } }
  else
    -- the first valid word since lock gives the position; LOST stays until a second one agrees
    d.onHead h fun s => { s with wobble := { (s.wobble.rebase n layer side) with odd := some (n + 1) } }

/-- Symbol i of a word: which of its eight wobbles stand at 180° to the carrier, wobble 0 first (R71). -/
def symbolAt (w : BitVec 512) (i : Nat) : Nat := (w >>> (8 * i)).toNat % 256

/-- The phases of R71: wobbles 0-1 and 4-5 turned for sync, wobbles 2-3 for a 1. -/
def syncSymbol : Nat := 0x33
def oneSymbol : Nat := 0x0C

/-- The address bits of a word. A symbol that is in no row of R71's table reads as the bit `open_` gives it. -/
def addressBits (w : BitVec 512) (open_ : Nat) : BitVec 63 :=
  BitVec.ofNat 63 ((List.range 63).foldl (fun v i =>
    let y := symbolAt w (i + 1)
    2 * v + (if y = 0 then 0 else if y = oneSymbol then 1 else open_ / 2 ^ i % 2)) 0)

/-- Some symbol after the sync is in no row of R71's table. -/
def doubtful (w : BitVec 512) : Bool := (List.range 63).any fun i => symbolAt w (i + 1) != 0 && symbolAt w (i + 1) != oneSymbol

/-- T0 is decoded while focus and tracking are in lock: FOC_LOCK, and the tracking loop closed (R176 reads the address
before it sets TRK_LOCK). -/
def Dev.decodesWobble (d : Dev) (h : Head) : Bool := d.flag (rSrvStat h) 1 && d.heads[h].trackClosed

/-- 512 wobbles of T0 have passed: an address word is decoded (R71-R73). A word without its sync symbol is discarded. -/
def Dev.addressWord (d : Dev) (h : Head) (w : BitVec 512) : Dev :=
  if !d.decodesWobble h then d.onHead h fun s => { s with wobble := s.wobble.carry }
  else
    let bits := addressBits w d.fresh
    let v := bits.toNat
    let d := d.onlyIf (doubtful w) Dev.drawn
    if symbolAt w 0 = syncSymbol ∧ addressValid bits then
      d.wordValid h (v / 2 ^ 21 % 2 ^ 22) (Fin.ofNat 16 (v / 2 ^ 58)) (Fin.ofNat 2 (v / 2 ^ 62))
    else d.wordDiscarded h

def execAddressWord (h : Head) (w : BitVec 512) (s : State) : Host.Outcome State Fault Refusal :=
  .next { s with dev := s.dev.addressWord h w }

/-- At a beat boundary FMT_Hn_WADDR shows the position carried forward, and each spot the zone it is in (R92, R122). -/
def Dev.showPosition (d : Dev) (h : Head) : Dev :=
  let w := d.heads[h].wobble
  let valid := w.seen && !d.flag (rWstat h) 9
  let turn := turnOf (512 * w.next) % 2 ^ 15
  let d := (d.wr (rWaddrLo h) (BitVec.ofNat 32 (w.next % 2 ^ 22 + w.count / 1350000000 % 512 * 2 ^ 22 +
    b2n valid * 2 ^ 31))).wr (rWaddrHi h) (BitVec.ofNat 32 (turn + w.layer.val * 2 ^ 16 + w.side.val * 2 ^ 20))
  d.each allSpots fun d j => d.setF (rSpotStat h j) 8 5 (zoneOf turn)

/-- Four words in a row have been discarded: LOST, and the gate goes at the next beat boundary (R93). -/
def Dev.wobbleLost (d : Dev) (h : Head) : Dev :=
  if d.heads[h].wobble.discards ≥ 4 ∧ !d.flag (rWstat h) 9 then
    (((d.setB (rWstat h) 9 true).setB (rWaddrLo h) 31 false).gcnt 0x0F).gateOffNext h
  else d

def execWobbleLost (h : Head) (s : State) : Host.Outcome State Fault Refusal :=
  .next { s with dev := s.dev.wobbleLost h }

/-- Every spot's phase is off by the same non-zero multiple of 45 degrees: the shift in tracks (R70). -/
def slipOf (phases : List (Fin 8)) : Option (Fin 8) :=
  match phases with
  | [] => none
  | p :: r => if p ≠ 0 ∧ phases.length = 8 ∧ r.all (· == p) then some p else none

/-- The offset that eight consecutive beats have in common. -/
def slipOver (beats : List (List (Fin 8))) : Option (Fin 8) :=
  match beats with
  | [] => none
  | b :: r => if beats.length = 8 ∧ r.all (fun c => slipOf c == slipOf b) then slipOf b else none

/-- Eight beats of a uniform offset while TRK_LOCK is set: BAND_SLIP, and the gate goes at the next beat boundary; the
array is re-centred by acquiring the band anew (R70, R93, R176). -/
def Dev.bandSlip (d : Dev) (h : Head) (phases : List (List (Fin 8))) : Dev :=
  match slipOver phases with
  | some sl =>
    if d.flag (rSrvStat h) 2 then
      ((((d.setB (rWstat h) 10 true).setF (rWstat h) 11 3 sl.val).gcnt 0x0E).gateOffNext h).clearTrk h
    else d
  | none => d

def execBandSlip (h : Head) (phases : List (List (Fin 8))) (s : State) : Host.Outcome State Fault Refusal :=
  .next { s with dev := s.dev.bandSlip h phases }

end Sys2Proof.Machine
end

