-- ==== Sys2Proof/Machine/Seek.lean ====
section
/-! DEFINITION. The servo group of a beat; jumps, band acquisition, seeks, the OFF_TRACK chain, and lock flags being set
(06_optical_servo.md, R166, R168, R172-R178). -/

namespace Sys2Proof.Machine

/-! ### Jumps begin (R173-R175) -/

/-- A jump at its start: tracks outward, or layers upward. -/
def JumpState.begin_ (layers : Bool) (goal : Int) (first : Nat) : JumpState :=
  { layers, goal, stage := 0, timer := 0, total := 0, count := 0, sum := 0, first }

/-- A jump over tracks starts: tracking opens, and the crossing counter starts at 0 (R173, R174). -/
def Dev.jumpTracks (d : Dev) (h : Head) (n : Int) : Dev :=
  (((d.openTracking h).setJumping h true).setF (rXing h) 0 24 0).onHead h fun s => { s with jump := some (.begin_ false n 0) }

/-- A jump over layers starts: tracking and focus open, skew and tilt are held (R175). -/
def Dev.jumpLayers (d : Dev) (h : Head) (target : Layer) : Dev :=
  let k := d.layerOf h
  (((d.openTracking h).openFocus h).setJumping h true).onHead h fun s =>
    { s with jump := some (.begin_ true ((target.val : Int) - k) k), tiltHeld := true, sumAcc := 0, sumN := 0 }

/-- Whatever jump runs is dropped. -/
def Dev.dropJump (d : Dev) (h : Head) : Dev := (d.setJumping h false).onHead h fun s => { s with jump := none }

/-! ### Seeks (R177, R178) -/

/-- The seek ends. -/
def Dev.seekDone (d : Dev) (h : Head) : Dev :=
  ((d.setPhase h 0).setB (rSrvStat h) 5 false).onHead h fun s => { s with seek := none }

/-- Where a seek goes from where the head stands (R177): a fine jump; or tracking opens and its code ramps to centre, before
the sled moves. On the target band-turn already there is no jump, and only R176 is left. -/
def Dev.planSeek (d : Dev) (h : Head) (k : SeekState) : Dev :=
  let diff : Int := (k.turn : Int) - d.turnNow h
  if k.layer.val = d.layerOf h ∧ diff.natAbs ≤ d.fld (rJumpCfg h) 0 8 then
    if diff ≠ 0 then (d.setPhase h 4).jumpTracks h (8 * diff)
    else if d.flag (rSrvStat h) 2 then d.seekDone h
    else d.setPhase h 3
  else
    ((d.openTracking h).setPhase h 1).onHead h fun s => { s with seek := some { k with stage := 0 } }

/-- An attempt of a seek starts now. -/
def Dev.startAttempt (d : Dev) (h : Head) (layer : Layer) (turn n : Nat) : Dev :=
  let k : SeekState := { layer, turn, attempt := n, start := d.beats, stage := 3, timer := 0, code := d.lastCode h 1 }
  let d := d.onHead h fun s => { s with seek := some k }
  ((((d.setF (rSeek h) 0 15 turn).setF (rSeek h) 16 4 layer.val).setF (rSeek h) 20 4 n).setB (rSrvStat h) 5 true).planSeek h k

/-- The recovery ladder leaves the head free for a seek to this band: steps 3 to 5 of an RB keep it at that RB's place
(R118, R119). -/
def Dev.ladderAllows (d : Dev) (h : Head) (layer : Layer) (turn : Nat) : Bool :=
  !d.ladderHolds h || [h, partner h].any fun g => d.heads[g].recover.any fun x =>
    decide (3 ≤ x.step) && x.place.layer == layer && placeTurn x.place.rb == turn

/-- A seek to a layer and band-turn (R177), by a head in service. -/
def execSeek (h : Head) (layer : Layer) (turn : BitVec 15) (s : State) : Host.Outcome State Fault Refusal :=
  .next (s.onDev fun d =>
    if !d.inService h || d.ghostLight || !d.ladderAllows h layer turn.toNat then d
    else ((d.dropJump h).onHead h fun s => { s with resume := none }).startAttempt h layer turn.toNat 1)

/-- An attempt fails: another from the position the address gives, or HEAD_FAULT with cause SEEK (R178). -/
def Dev.attemptFailed (d : Dev) (h : Head) (k : SeekState) : Dev :=
  let d := d.dropJump h
  if k.attempt ≤ d.fld (rJumpCfg h) 24 4 then d.startAttempt h k.layer k.turn (k.attempt + 1)
  else (d.seekDone h).headFault h 4

/-- 80 ms have passed since the attempt started. -/
def execSeekTimeout (h : Head) (s : State) : Host.Outcome State Fault Refusal :=
  .next (s.onDev fun d =>
    match d.heads[h].seek with
    | some k => if k.start + 64000 ≤ d.beats then d.attemptFailed h k else d
    | none => d)

/-- The head may start a jump now. -/
def Dev.mayJump (d : Dev) (h : Head) : Bool :=
  d.inService h && !d.ghostLight && !d.heads[h].frozen && d.heads[h].jump.isNone

/-- A fine jump of n bands, outward counted positive (R174). Longer than JUMP_MAX it is no fine jump, and the attempt that
needs it fails (R178). -/
def Dev.fineJump (d : Dev) (h : Head) (n : Int) : Dev :=
  if !d.mayJump h || n == 0 then d
  else if d.fld (rJumpCfg h) 0 8 < n.natAbs then
    match d.heads[h].seek with
    | some k => d.attemptFailed h k
    | none => d
  else (d.onlyIf (d.heads[h].seek).isSome fun d => d.setPhase h 4).jumpTracks h (8 * n)

def execFineJump (h : Head) (bands : Int) (s : State) : Host.Outcome State Fault Refusal :=
  .next (s.onDev fun d => d.fineJump h bands)

/-- A layer jump (R175). -/
def Dev.layerJump (d : Dev) (h : Head) (target : Layer) : Dev :=
  if !d.mayJump h || target.val == d.layerOf h then d
  else (d.onlyIf (d.heads[h].seek).isSome fun d => d.setPhase h 2).jumpLayers h target

def execLayerJump (h : Head) (target : Layer) (s : State) : Host.Outcome State Fault Refusal :=
  .next (s.onDev fun d => d.layerJump h target)

/-! ### A beat of a jump, a seek or a search -/

/-- An open loop's code: the spec gives no codes for kicks, brakes, jumps and sweeps; any within the limits is free. -/
def Dev.driveCode (d : Dev) (h : Head) (l : Fin 6) : Dev :=
  let c := d.withinLimits h l (d.freshInt 16)
  d.drawn.setCode h l c

/-- Track crossings of a group (R173). Of TE's two zeros per track the one at which TE turns from inward to outward is
counted, beyond a hysteresis of XING_HYS/256 of its peak-to-peak; SUM against its low-pass gives the direction. The
peak-to-peak and the low-pass are not stated, and free (notes/assumptions/78.md). -/
def Dev.crossings (d : Dev) (h : Head) (q : Signals) : Dev :=
  if d.heads[h].trackClosed || d.heads[h].frozen then d
  else
    let band : Int := d.fld (rJumpCfg h) 16 8 * d.fresh
    d.drawn.each (q.tracking.zip q.sums) fun d p =>
      if !d.heads[h].crossSign && decide (band ≤ 512 * p.1) then
        let out := decide ((d.fresh : Int) ≤ p.2)
        (d.drawn.setF (rXing h) 0 24 (uns 24 (d.sfld (rXing h) 0 24 + if out then 1 else -1))).onHead h fun s =>
          { s with crossSign := true }
      else if d.heads[h].crossSign && decide (512 * p.1 ≤ -band) then d.onHead h fun s => { s with crossSign := false }
      else d

/-- Tracking is pulled in where a jump or a sled move has ended. -/
def Dev.pullIn (d : Dev) (h : Head) : Dev :=
  (d.setJumping h false).onHead h fun s => { s with jump := none, trackClosed := true, afterJump := 2 }

/-- A beat of a fine jump in which the count has moved (R174): accelerate, coast from VMAX on, brake at the braking distance,
which is not stated and free; tracking closes when the count is reached. -/
def Dev.trackBeat (d : Dev) (h : Head) (k : JumpState) (moved : Int) : Dev :=
  let n := d.sfld (rXing h) 0 24
  let left := if 0 ≤ k.goal then k.goal - n else n - k.goal
  if left ≤ 0 then
    let d := d.pullIn h
    d.onlyIf (d.seekPhase h == 4) fun d => d.setPhase h 5
  else
    let brake := decide (left ≤ d.fresh)
    let stage := if k.stage = 2 ∨ brake then 2
      else if 10 * d.fld (rJumpCfg h) 8 8 ≤ 192 * moved.natAbs then 1 else k.stage
    (d.drawn.driveCode h 1).onHead h fun s => { s with jump := some { k with stage, timer := k.timer + 1, total := k.total + 1 } }

/-- A beat of a layer jump (R175): kick, crossing until its layers are counted or their beats have passed, brake, settle. An
S-curve is counted where FE passes zero in the direction of the jump under a SUM peak, whose height is not stated. -/
def Dev.layerBeat (d : Dev) (h : Head) (k : JumpState) (fe : Int) (mean : Nat) : Dev :=
  let m := k.goal.natAbs
  let up := decide (0 < k.goal)
  let crossed := decide (k.stage ≤ 1) && decide (d.fresh ≤ mean) &&
    (if up then d.heads[h].feSign && decide (fe ≤ 0) else !d.heads[h].feSign && decide (0 ≤ fe))
  let count := if crossed then k.count + 1 else k.count
  let layer := if up then min (k.first + min count m) 15 else k.first - min count m
  let d := d.drawn.setF (rSrvStat h) 12 4 layer
  let closes := decide (2 ≤ k.stage) && decide (fe.natAbs < 4 * d.fld (rLockCfg h) 0 10)
  let d := d.onHead h fun s => { s with focusClosed := s.focusClosed || closes }
  let d := d.onlyIf (!d.heads[h].focusClosed) fun d => d.driveCode h 0
  let t := k.timer + 1
  let sum := if k.stage = 3 then k.sum + mean else 0
  let go (stage timer : Nat) : Dev :=
    d.onHead h fun s => { s with jump := some { k with stage, timer, total := k.total + 1, count, sum } }
  if k.stage = 0 then (if t < 40 then go 0 t else go 1 0)
  else if k.stage = 1 then (if t < 80 * m ∧ count < m then go 1 t else go 2 0)
  else if k.stage = 2 then (if t < 40 then go 2 t else go 3 0)
  else if t < 80 then go 3 t
  else
    let d := ((d.setF (rSrvSum h) 0 16 (quot sum 80).toNat).pullIn h).onHead h fun s => { s with tiltHeld := false }
    d.onlyIf (d.heads[h].seek).isSome fun d => d.setPhase h 3

/-- A beat of the jump that runs. In a hold a fine jump only brakes. -/
def Dev.jumpBeat (d : Dev) (h : Head) (fe : Int) (mean : Nat) (moved : Int) : Dev :=
  match d.heads[h].jump with
  | none => d
  | some k =>
    if k.layers then d.layerBeat h k fe mean
    else if k.stage = 3 then d
    else if d.heads[h].frozen then d.driveCode h 1
    else d.trackBeat h k moved

/-- A beat of a coarse move (R177): eight beats of ramp, the sled's move, 80 beats of settling; then the layer jump or the
pull-in. -/
def Dev.seekBeat (d : Dev) (h : Head) : Dev :=
  match d.heads[h].seek with
  | none => d
  | some k =>
    let go (stage timer : Nat) (d : Dev) : Dev := d.onHead h fun s => { s with seek := some { k with stage, timer } }
    let t := k.timer + 1
    if d.seekPhase h ≠ 1 then d
    else if k.stage = 0 then
      let d := d.setCode h 1 (quot (k.code * (8 - t)) 8)
      if t < 8 then go 0 t d
      else (go 1 0 d).stepBy (sledOf h) (d.coarseSteps h ((k.turn : Int) - d.turnNow h))
    else if k.stage = 1 then (if d.axState (sledOf h) = 2 then d else go 2 0 d)
    else if t < 80 then go 2 t d
    else if k.layer.val = d.layerOf h then ((go 3 0 d).pullIn h).setPhase h 3
    else ((go 3 0 d).setPhase h 2).jumpLayers h k.layer

/-- A beat of a focus search (R172): the focus code sweeps, and focus closes on the first S-curve whose SUM exceeds half the
image's nominal, which the spec does not give. -/
def Dev.sweepBeat (d : Dev) (h : Head) (fe : Int) (mean : Nat) : Dev :=
  if d.heads[h].search.isNone || d.heads[h].focusClosed then d
  else
    let half := decide (d.fresh < 2 * mean)
    let curve := half && d.heads[h].feSign && decide (fe ≤ 0)
    let d := d.drawn
    if curve then d.onHead h fun s => { s with focusClosed := true } else d.driveCode h 0

/-! ### The servo group (R155-R167) -/

/-- The servo cluster's work on a group while no ghost-light ramp runs. -/
def Dev.servoWork (d : Dev) (h : Head) (q : Signals) (avg : Nat) : Dev :=
  let fe := q.focus avg
  let mean := q.mean
  let d := d.runLoops h q avg
  let d := if d.heads[h].frozen then d
    else
      let d := d.countLocks h fe (q.track avg) (skewError q.pushPull) avg
      d.onlyIf (d.flag (rSrvStat h) 1) fun d => d.onHead h fun s => { s with sumAcc := s.sumAcc + mean, sumN := s.sumN + 1 }
  let n := d.sfld (rXing h) 0 24
  let d := d.crossings h q
  (((d.jumpBeat h fe mean (d.sfld (rXing h) 0 24 - n)).seekBeat h).sweepBeat h fe mean).gatherGain h

/-- A beat's servo group is presented, once a beat. A halted servo cluster does nothing, and ships nothing (R56). SUM_AVG keeps the low 16
bits of a larger mean (notes/assumptions/76.md). -/
def Dev.servoGroup (d : Dev) (h : Head) (g : ServoGroup) : Dev :=
  if d.engineHalted 0 || d.heads[h].grouped then d
  else
    let q := d.signals h g
    let avg := d.fld (rSrvSum h) 16 16
    let d := (d.holdTest h q g.bad).each (List.finRange 5) fun d l => d.catchUp h l
    let d := if 2 ≤ d.cue.glBeat then d.rampCodes h else d.servoWork h q avg
    let d := (d.setF (rSrvSum h) 16 16 q.mean).onHead h fun s => { s with feSign := decide (0 < q.focus avg) }
    (d.monitorBeat h q).ship h

def execServoGroup (h : Head) (g : ServoGroup) (s : State) : Host.Outcome State Fault Refusal :=
  .next (s.onDev fun d => d.servoGroup h g)

/-! ### Band acquisition (R176) -/

/-- The address found against the target of the seek, or of the read that OFF_TRACK cut short (R172, R176, R177). -/
def Dev.bandFound (d : Dev) (h : Head) (turn : Nat) (layer : Layer) : Dev :=
  let d := d.setF (rSrvStat h) 12 4 layer.val
  let ok (d : Dev) : Dev := d.onHead h fun s => { s with bandOk := true }
  match d.heads[h].seek with
  | none => match d.heads[h].resume with
    | none => ok d
    | some r =>
      if r.place.layer = layer ∧ placeTurn r.place.rb = turn then ok d
      else d.startAttempt h r.place.layer (placeTurn r.place.rb) 1
  | some k =>
    if k.turn = turn ∧ k.layer = layer then (ok d).setPhase h 5
    else if d.seekPhase h = 5 then d.attemptFailed h k
    else if k.layer ≠ layer then (d.setPhase h 2).jumpLayers h k.layer
    else if d.fld (rJumpCfg h) 0 8 < ((k.turn : Int) - turn).natAbs then d.attemptFailed h k
    else (d.setPhase h 4).jumpTracks h (8 * ((k.turn : Int) - turn))

/-- Every spot has stood at its phase of R70 for eight beats. -/
def phasesRight (beats : List (List (Fin 8))) : Bool :=
  beats.length == 8 && beats.all fun p => p.length == 8 && p.all (· == 0)

/-- The band is acquired after a pull-in (R176): the wobble phases of eight beats, a valid address, and the target. A uniform
shift of s tracks is corrected by a jump of s tracks inward, or 8 - s outward, and measured again. -/
def Dev.bandAcquire (d : Dev) (h : Head) (phases : List (List (Fin 8))) : Dev :=
  if !d.mayJump h || !d.heads[h].trackClosed || !d.flag (rSrvStat h) 1 || d.flag (rSrvStat h) 2 then d
  else match slipOver phases with
    | some sl => d.jumpTracks h (if sl.val ≤ 4 then -(sl.val : Int) else 8 - sl.val)
    | none =>
      if phasesRight phases && d.placed h then d.bandFound h (d.turnNow h) (Fin.ofNat 16 (d.fld (rWaddrHi h) 16 4)) else d

def execBandAcquire (h : Head) (phases : List (List (Fin 8))) (s : State) : Host.Outcome State Fault Refusal :=
  .next (s.onDev fun d => d.bandAcquire h phases)

/-- A lock flag is set (R168). Focus ends a search, and tracking pulls in for the address; TRK_LOCK re-bases the sled and ends
a seek (R172, R223, R177). -/
def Dev.lockSet (d : Dev) (h : Head) (f : LockFlag) : Dev :=
  if !d.lockReady h f then d
  else
    let d := d.setB (rSrvStat h) (LockFlag.bit f) true
    match f with
    | .focus =>
      d.onHead h fun s => { s with search := none, focusFails := 0, trackClosed := s.trackClosed || s.search.isSome }
    | .tracking =>
      let d := d.sledRebase h (d.turnNow h)
      if (d.heads[h].seek).isSome then d.seekDone h else d
    | .skew => d

def execLockSet (h : Head) (f : LockFlag) (s : State) : Host.Outcome State Fault Refusal :=
  .next (s.onDev fun d => d.lockSet h f)

/-! ### The OFF_TRACK chain and focus search (R172) -/

/-- A focus search begins: focus is retracted and swept. -/
def Dev.focusSearch (d : Dev) (h : Head) : Dev :=
  ((d.openTracking h).openFocus h).onHead h fun s => { s with search := some 0 }

/-- The chain's first beat: tracking opens with its code held, skew and tilt are held, a jump ends, and the channels return to
IDLE. The rows a read has accepted are kept for its next pass. -/
def Dev.offTrackChain (d : Dev) (h : Head) : Dev :=
  let job := d.heads[h].job
  (((d.idleChannels h).openTracking h).dropJump h).onHead h fun s =>
    { s with tiltHeld := true, resume := match job with | some j => some j | none => s.resume }

/-- The chain's end: acquisition on the nearest land and a reseek, or a focus search. -/
def Dev.offTrackEnd (d : Dev) (h : Head) : Dev :=
  let d := d.onHead h fun s => { s with tiltHeld := false }
  if d.flag (rSrvStat h) 1 ∧ !d.heads[h].frozen then
    (d.pullIn h).onlyIf (d.heads[h].seek).isSome fun d => d.setPhase h 3
  else d.focusSearch h

/-- A beat of a focus search: 40 ms without FOC_LOCK is a failed search, and the second one raises HEAD_FAULT with
cause FOCUS. -/
def Dev.searchBeat (d : Dev) (h : Head) : Dev :=
  match d.heads[h].search with
  | none => d
  | some n =>
    if n + 1 < 32000 then d.onHead h fun s => { s with search := some (n + 1) }
    else if d.heads[h].focusFails = 0 then
      (d.openFocus h).onHead h fun s => { s with search := some 0, focusFails := 1 }
    else (d.onHead h fun s => { s with search := none, focusFails := 0 }).headFault h 5

end Sys2Proof.Machine
end

