-- ==== Sys2Proof/Machine/Takeover.lean ====
section
/-! DEFINITION. A head leaves service and its partner takes its work over; a head returns to service (R139, R179-R181). -/

namespace Sys2Proof.Machine

/-- A command that touches a side: READ, WRITE and VERIFY of its LBAs, FLUSH while rows of it are not committed. -/
def Dev.touches (d : Dev) (c : Cmd) (x : Side) : Bool :=
  if isRw c.op then !c.forwarded && d.nsSide c.nsid == x
  else c.op == 0x13 && d.hq.rows.any fun r => (homeOf r.mlba).1.side == x && !r.committed

/-- With both heads of a side out of service, the commands that touch it end with NOT_READY; acknowledged writes stay in the
buffer (R180). -/
def Dev.sideLost (d : Dev) (x : Side) : Dev :=
  if !d.sideDown x then d
  else (d.each (d.hq.cmds.filter fun c => isMedia c.op && !c.acked && d.touches c x) fun d c => d.complete c 0x40).settle

/-- Beat 0 of a HEAD_FAULT chain (R179): the head retracts, its channels and decoder contexts are free, and it leaves service.
The place it was writing is abandoned; its places not yet verified stay queued (R139). -/
def Dev.headFaultChain (d : Dev) (h : Head) : Dev :=
  let d := (((d.dropGate h).retractHead h).idleChannels h).dropJump h
  let d := ((d.clearFocus h).setB (rSrvStat h) 0 false).onHead h fun s =>
    { s with faulted := true, lasers := false, seek := none, search := none, resume := none, focusClosed := false,
             trackClosed := false,
             recover := (s.recover.filter fun x => decide (3 ≤ x.step)).map fun (x : ReadJob) =>
               { x with waiting := true, closed := false, outer := false, msgs := [], llrs := [], iters := [] } }
  d.sideLost (sideOf h)

/-- Beats 1 to 8: the head's place work goes to its partner, re-reads of the ladder among it, and the side's writes are no
longer verified (R139, R179). A takeover makes power calibration of both zones due (R131). -/
def Dev.moveWork (d : Dev) (h : Head) : Dev :=
  let mine := d.heads[h].recover
  let d := (d.onSide (sideOf h) fun s => { s with takeover := true }).onHead h fun s => { s with recover := [] }
  if !d.inService (partner h) then d
  else d.onHead (partner h) fun s =>
    { s with opcDue := .both, recover := s.recover ++ mine.map fun (x : ReadJob) => { x with owner := partner h } }

/-- Beats 9 to 63: the sled begins its park move, and the side is marked degraded. -/
def Dev.markDegraded (d : Dev) (h : Head) : Dev := (d.parkSled (sledOf h)).hostEvent 2 (2 + (sideOf h).val) 0

/-- The chain's end: valid frames stop on the head's lanes. -/
def Dev.headFaultEnd (d : Dev) (h : Head) : Dev :=
  (d.onHead h fun s => { s with lanes := false }).emit (.lanes h false)

/-- At an act boundary degraded service ends on a side whose heads are both in service again (R181). -/
def Dev.takeoverAct (d : Dev) (x : Side) : Dev :=
  if (headsOf x).all fun h => d.inService h then d.onSide x fun s => { s with takeover := false } else d

/-- REINSTATE (R181), in REHEARSAL, for a head out of service: its reset line is pulsed, its type read and checked, and its
start-up calibration run, which has the result given. -/
def State.reinstate (s : State) (h : Head) (t : TypeRead) (cal : CalHead) : State :=
  if !s.dev.rehearsal || s.dev.inService h then s
  else
    let s := s.onDev fun d => ((d.emit (.headReset h true)).emit (.headReset h false)).showType h t
    let code := typeCode t
    let want := s.dev.headTypeOf h
    if code = 0 ∨ code ≠ want then s.onDev fun d => d.post 0x0145 0x00 h.val 2 code want
    else if !s.dev.calPassed cal then s.onDev fun d => d.post 0x0145 0x00 h.val 3 code want
    else
      let s := s.onDev fun d => ((d.setB (rSrvStat h) 0 true).onHead h fun s =>
        { s with faulted := false, lanes := true, lasers := true, focusClosed := true, trackClosed := true }).emit (.lanes h true)
      (s.drivePart h).onDev fun d => d.calHeadDone h cal

def execReinstate (_m : Master) (h : Head) (typ : TypeRead) (cal : CalHead) (s : State) :
    Host.Outcome State Fault Refusal :=
  .next (s.reinstate h typ cal)

end Sys2Proof.Machine
end

