-- ==== Sys2Proof/Machine/Pwr.lean ====
section
/-! DEFINITION. Power states, what goes before a reset, the life cycle, temperature, the house domain's counters and
pins (15_power_reset_boot.md, R363, R393, R412, R436, R447). The reset itself is in Boot.lean. -/

namespace Sys2Proof.Machine

abbrev rPwrCtl : Nat := 0xF0_0004
abbrev rDozeCfg : Nat := 0xF0_0008
abbrev rAlarm : Nat := 0xF0_000C
abbrev rPwrBoot : Nat := 0xF0_0014
abbrev rThermCfg : Nat := 0xF0_0018
abbrev rPwrTemp : Nat := 0xF0_0020
abbrev rClkStat : Nat := 0xF0_0028

def Dev.onPwr (d : Dev) (f : Pwr → Pwr) : Dev := { d with pwr := f d.pwr }

/-- PWR_STAT.STATE: P0 to P3. -/
def Dev.powerState (d : Dev) : Nat := d.fld rPwrStat 0 2

/-- The image's POLICY section, if one is loaded (R412). -/
def Dev.policyField (d : Dev) (o n : Nat) : Option Nat := d.cfg.policy.map fun b => lef b o n

/-! ### Outputs forced inactive (R363, R382, R436) -/

/-- Every write-and-actuate lane invalid; every spindle, auxiliary and bridge output inactive, until a device reset. -/
def Dev.forceOutputs (d : Dev) : Dev :=
  let d := d.each allHeads fun d h =>
    let d := if d.heads[h].lanes then d.emit (.lanes h false) else d
    d.onHead h fun s => { s with lanes := false, lasers := false }
  let d := (d.onPwr fun p => { p with forced := true }).inverterOff 4
  let d := (d.onSpn fun s => { s with chopBad := true }).setB rSpnStat 5 false
  d.each allAxes fun d x => d.setBridge x 0

/-! ### The discard record (R382, R385, R386) -/

/-- The ranges of acknowledged writes that are not committed, in the order in which they were opened. -/
def Dev.openRanges (d : Dev) : List (CmdSrc × Nat × Nat × Nat) :=
  discardRanges (d.hq.rows.filter fun r => !r.committed)

/-- A discard record of a cause. -/
def Dev.discardRecord (d : Dev) (cause : Nat) : List Byte :=
  let ranges := d.openRanges
  let taken := ranges.take 256
  let body := taken.flatMap fun g =>
    leBytes 2 (srcCode g.1) ++ leBytes 2 g.2.1 ++ leBytes 4 g.2.2.2 ++ leBytes 8 g.2.2.1
  leBytes 4 0x5244_435A ++ leBytes 1 cause ++ leBytes 1 0 ++ leBytes 2 taken.length ++ leBytes 4 ranges.length ++
    leBytes 4 (d.fld rPwrResets 0 16) ++ leBytes 8 ((ranges.map fun g => g.2.2.2).sum) ++
    leBytes 8 (d.sec % 2 ^ 48) ++ leBytes 8 (crc64 body) ++ List.replicate 24 0 ++ body

/-- R382 on PERST# (cause 1) or PFAIL_N (cause 2): fetching and offers end, every gate goes at the next beat boundary, the
outputs go inactive, a curtain stops, and the record is written where the list holds a range. -/
def State.stopService (s : State) (cause : Nat) : State :=
  let s := s.onDev fun d =>
    let d := d.onPwr fun p => { p with stopping := some cause }
    let d := (d.each allHeads Dev.gateOffNext).forceOutputs
    { d with hq.curtain := none }
  if s.dev.openRanges.isEmpty then
    s.onDev fun d => d.onPwr fun p => if cause = 1 then { p with resetDue := some 1 } else p
  else
    let bs := s.dev.discardRecord cause
    (s.preemptFlash.onDev fun d => { d with cfg.waiting := FlashOp.discard bs :: d.cfg.waiting }).startFlash

/-- R382 has begun, or a device reset is due anyway. -/
def Dev.resetting (d : Dev) : Bool := d.pwr.stopping.isSome || d.pwr.resetDue.isSome

/-! ### Power states (R376-R380) -/

/-- The clocks that P2 stops (R375). -/
def Dev.clocks (d : Dev) (on : Bool) : Dev := ((d.setB rClkStat 0 on).setB rClkStat 1 on).setB rClkStat 3 on

/-- Low-power idle on both ports, asserted or ended (R322, R337, R354). -/
def Dev.lowPowerIdle (d : Dev) (on : Bool) : Dev := d.each allPorts fun d p => d.setB (rPortStat p) 1 on

/-- P2 ends: the fabric resumes with beat 0 of a new act; the length of the doze is open (R376, R378, R379). -/
def Dev.leaveDoze (d : Dev) (code : Option Nat) : Dev :=
  let d := match code with | some c => d.setF rPwrStat 2 3 c | none => d
  let d := ((d.setF rPwrStat 16 16 d.fresh).drawn.setF rPwrStat 0 2 1).clocks true |>.lowPowerIdle false
  { d with cue.act := (d.cue.act + 1) % 2 ^ 64, cue.beat := 0, cue.slot := 0, cue.actDone := false }

/-- A wake source in P3: the supplies come up and start-up follows; sources 4 and 5 assert WAKE# (R378, R388). -/
def Dev.leaveHouse (d : Dev) (code : Nat) : Dev :=
  let d := (d.setF rPwrStat 2 3 code).emit (.supplies true true)
  let d := d.onlyIf (code == 4 || code == 5) fun d => d.emit .wakePin
  d.onPwr fun p => { p with enMain := true, enDdr := true, goodMain := true, goodDdr := true, resetDue := some 8,
                            wake := code == 4 || code == 5 }

def wakeCode : WakeSource → Nat
  | .clkreq => 1
  | .lpiA => 2
  | .lpiB => 3
  | .gpio => 4
  | .alarm => 5
  | .perst => 6
  | .pfail => 7

/-- WAKE_EN allows the source. -/
def Dev.wakeOn (d : Dev) : WakeSource → Bool
  | .lpiA => d.flag rDozeCfg 16
  | .lpiB => d.flag rDozeCfg 17
  | .gpio => d.flag rDozeCfg 18
  | .alarm => d.flag rDozeCfg 19
  | _ => true

/-- A wake source acts (R378). -/
def State.wakeBy (s : State) (w : WakeSource) : State :=
  let d := s.dev
  if d.powerState = 2 then
    if w = .perst ∨ !d.wakeOn w then s
    else
      let s := s.onDev fun d => d.leaveDoze (some (wakeCode w))
      if w = .pfail then
        (s.onDev fun d => d.onPwr fun p => { p with pfail := true }).stopService 2
      else s
  else if d.powerState = 3 then
    if (w = .gpio ∨ w = .alarm ∨ w = .perst) ∧ d.wakeOn w ∧ d.pwr.resetDue.isNone then
      s.onDev fun d => (d.leaveHouse (wakeCode w)).onPwr fun p => if w = .perst then { p with perst := false } else p
    else s
  else s

def execWake (w : WakeSource) (s : State) : Host.Outcome State Fault Refusal := .next (s.wakeBy w)

/-- Entry into P3 HOUSE (R380). -/
def Dev.enterHouse (d : Dev) : Dev :=
  let d := (d.releaseAll.emit (.supplies false false)).setF rPwrStat 0 2 3
  (d.wr rClkStat (d.rd rClkStat &&& 0x10)).onPwr fun p =>
    { p with enMain := false, enDdr := false, goodMain := false, goodDdr := false, toP3 := false, l23 := false }

/-- A curtain has completed and no write has been acknowledged since (R380). -/
def Dev.curtainHolds (d : Dev) : Bool := d.hq.curtained && d.powerState == 1

/-- PME_Turn_Off is acknowledged in every state; P3 follows at the next act boundary where R380 allows it, else the link
rests in L2/L3 Ready. -/
def execPmeTurnOff (s : State) : Host.Outcome State Fault Refusal :=
  .next (s.onDev fun d =>
    let d := d.emit .pmeAck
    if d.curtainHolds then d.onPwr fun p => { p with toP3 := true }
    else d.onPwr fun p => { p with l23 := true })

/-- At the act boundary (R376): P3 where it is still allowed. -/
def Dev.houseAct (d : Dev) : Dev :=
  if !d.pwr.toP3 then d
  else if d.curtainHolds && !d.resetting then d.enterHouse
  else d.onPwr fun p => { p with toP3 := false, l23 := true }

/-- Every condition of R377 holds. -/
def Dev.dozeReady (d : Dev) : Bool :=
  d.powerState == 1 && d.flag rDozeCfg 0 && !d.flag rPwrCtl 1 && !d.resetting && !d.pwr.forced &&
  (match d.spn.stoppedSince with
   | some b => decide (b + d.fld rDozeCfg 4 12 * 8000 ≤ d.beats) && d.spnState == 0
   | none => false) &&
  d.outstanding == 0 && !(allChans.any d.dmaBusy) &&
  d.cfg.busy.isNone && d.cfg.waiting.isEmpty && d.flt.copy.isNone &&
  allAxes.all (fun x => decide (d.axState x ≤ 1) && (d.axes[x].home).isNone && (d.axes[x].cpl).isNone) &&
  d.pcie.l12 && d.role != 2 && (d.role != 1 || (d.flag (rPortCfg 0) 2 && d.flag (rPortCfg 1) 2))

/-- Entry into P2 DOZE at an act boundary (R377). -/
def Dev.dozeAct (d : Dev) : Dev :=
  if !d.dozeReady then d
  else
    let d := d.releaseAll
    let d := d.onlyIf (d.role == 1) fun d => (d.sendHeartbeat allPorts false true).lowPowerIdle true
    (d.setF rPwrStat 0 2 2).clocks false

/-! ### PERST#, PFAIL_N, warm resets (R381-R383, R393) -/

def execPerst (s : State) : Host.Outcome State Fault Refusal :=
  let was := s.dev.pwr.perst
  let s := s.onDev fun d => d.onPwr fun p => { p with perst := true }
  .next (if was ∨ s.dev.resetting then s
    else if s.dev.powerState = 3 then s.onDev fun d => { d with pcie.busMaster := false, pcie.l12 := false }
    else
      let s := if s.dev.powerState = 2 then s.onDev fun d => d.leaveDoze none else s
      s.stopService 1)

/-- PERST# deasserts outside P3: the LTSSM goes on to Detect. -/
def execPerstRelease (s : State) : Host.Outcome State Fault Refusal :=
  .next (if s.dev.powerState = 3 then s else s.onDev fun d => d.onPwr fun p => { p with perst := false })

def execPfail (s : State) : Host.Outcome State Fault Refusal :=
  let was := s.dev.pwr.pfail
  let s := s.onDev fun d => d.onPwr fun p => { p with pfail := true }
  .next (if was ∨ s.dev.resetting ∨ s.dev.powerState = 3 then s
    else
      let s := if s.dev.powerState = 2 then s.onDev fun d => d.leaveDoze (some 7) else s
      s.stopService 2)

/-- A discard record is being written or waits for the flash. -/
def Dev.recording (d : Dev) : Bool := (d.cfg.busy.toList ++ d.cfg.waiting).any fun o => flashRank o == 0

/-- PFAIL_N deasserts: the device reset follows, after the record where one is being written. -/
def execPfailRelease (s : State) : Host.Outcome State Fault Refusal :=
  .next (s.onDev fun d => d.onPwr fun p =>
    let due := p.stopping == some 2 && p.pfail && !d.recording && p.resetDue.isNone && p.goodMain && p.goodDdr
    { p with pfail := false, resetDue := if due then some 2 else p.resetDue })

/-- PWR_CTL.WARM (R383, R392): in the blank stage a reset at once; else a curtain first, or the one that runs. -/
def Dev.warm (d : Dev) : Dev :=
  if d.resetting then d
  else if d.flag rPwrStat 8 then d.onPwr fun p => { p with resetDue := some 3 }
  else match d.hq.curtain with
    | some k => { d with hq.curtain := some { k with warm := true } }
    | none => d.startCurtain none true

def execWarm (_m : Master) (s : State) : Host.Outcome State Fault Refusal := .next (s.onDev Dev.warm)

/-- CURTAIN_COMMIT_END: the commit phase ends (R384). -/
def execCurtainCommitEnd (s : State) : Host.Outcome State Fault Refusal := .next (s.onDev Dev.curtainEnd)

/-! ### Clock monitor and supplies (R363, R381, R436) -/

/-- Acknowledged writes are lost without a record. -/
def Dev.recordLost (d : Dev) : Dev := d.onlyIf (!d.openRanges.isEmpty) fun d => d.setB rPwrStat 10 true

def execClockMonitorTrip (offFrequency : Bool) (s : State) : Host.Outcome State Fault Refusal :=
  .next (s.onDev fun d =>
    if decide (2 ≤ d.powerState) || d.pwr.resetDue.isSome then d
    else
      let n := match d.pwr.monitor with | some (_, n) => n + 1 | none => 1
      d.forceOutputs.recordLost.onPwr fun p =>
        { p with monitor := some (if offFrequency then 2 else 1, n), resetDue := some 4 })

def Dev.supplyGood (d : Dev) (ddr good : Bool) : Dev :=
  d.onPwr fun p => if ddr then { p with goodDdr := good } else { p with goodMain := good }

/-- A PGOOD input falls in P0 to P2: the outputs are forced; a record being written stops and is lost (R436). -/
def execPgoodLoss (ddr : Bool) (s : State) : Host.Outcome State Fault Refusal :=
  .next (s.onDev fun d =>
    if d.powerState = 3 then d
    else
      let d := d.supplyGood ddr false
      if d.recording then
        let keep (o : FlashOp) : Bool := flashRank o != 0
        { d.setB rPwrStat 10 true with cfg.busy := d.cfg.busy.filter keep, cfg.waiting := d.cfg.waiting.filter keep }
      else if d.pwr.stopping.isSome then d
      else d.forceOutputs.recordLost)

/-- Both PGOOD inputs are back after a loss: a device reset follows. -/
def execPgoodReturn (ddr : Bool) (s : State) : Host.Outcome State Fault Refusal :=
  .next (s.onDev fun d =>
    let lost := !d.pwr.goodMain || !d.pwr.goodDdr
    if d.powerState = 3 ∨ !lost then d
    else
      let d := d.supplyGood ddr true
      d.onPwr fun p => if p.goodMain && p.goodDdr then { p with resetDue := some (p.resetDue.getD 2) } else p)

/-! ### Life cycle (R394, R395) -/

/-- The changes that R394 allows. -/
def lifeAllowed (a b : Nat) : Bool := (a == 0 && b == 1) || (a == 1 && b == 2) || (a == 2 && b == 1) || (a == 2 && b == 0)

/-- Why a request is refused; 0 where it is accepted (notes/assumptions/25.md for the order of the checks). -/
def Dev.lifeWhy (d : Dev) (req reqN : Nat) : Nat :=
  if d.flag rLifecycle 4 then 5
  else if !pairOk 2 req reqN then 4
  else if !lifeAllowed (d.fld rLifecycle 0 2) req then 1
  else if !d.rehearsal then 2
  else if !d.spindleStopped || d.bufferHeld || d.uncommitted then 3
  else 0

/-- A write of TOP_LIFECYCLE: REFUSED is cleared by a 1; REQ and REQ_N request a change, except that a write which only
clears REFUSED requests none (notes/assumptions/25.md). -/
def State.lifecycleWrite (s : State) (v : W32) : State :=
  let s := if v.getLsbD 5 then s.onDev fun d => d.setB rLifecycle 5 false else s
  if v.getLsbD 5 ∧ fget v 16 4 = 0 then s
  else
    let why := s.dev.lifeWhy (fget v 16 2) (fget v 18 2)
    if why ≠ 0 then s.onDev fun d => (d.setB rLifecycle 5 true).setF rLifecycle 8 4 why
    else
      (s.onDev fun d => ({ d.setB rLifecycle 4 true with
          pwr.life := some (fget v 16 2),
          cfg.waiting := d.cfg.waiting ++ List.replicate 2 (FlashOp.bootRecord (fget v 16 2) (d.fld rPwrBoot 1 1)) })).startFlash

def execLifecycleRequest (_m : Master) (v : W32) (s : State) : Host.Outcome State Fault Refusal :=
  .next (s.lifecycleWrite v)

/-! ### Temperature (R396) -/

/-- The thresholds of the readings: HIGH and CRIT for TJ, BOARD_HIGH for each TEMPk that is enabled. -/
def Dev.hotNow (d : Dev) (tj : Int) (temps : List Int) (margin : Int) : BitVec 6 :=
  let at_ (x : Int) (limit : Nat) : Bool := decide ((limit : Int) - margin ≤ x)
  let bit (i : Nat) (b : Bool) : Nat := b2n b * 2 ^ i
  BitVec.ofNat 6 (bit 0 (at_ tj (d.fld rThermCfg 0 8)) + bit 1 (at_ tj (d.fld rThermCfg 8 8)) +
    ((List.range 4).map fun k => bit (2 + k) (d.flag rThermCfg (24 + k) &&
      at_ (temps.getD k (-273)) (d.fld rThermCfg 16 8))).sum)

/-- THERMAL_CHECK: PWR_TEMP, and THERMAL_HIGH where a reading has reached its threshold. -/
def Dev.thermalCheck (d : Dev) (tj : Int) (temps : List Int) : Dev :=
  let d := d.setF rPwrTemp 0 8 (uns 8 tj)
  let d := if d.sfld rPwrTemp 8 8 < tj then d.setF rPwrTemp 8 8 (uns 8 tj) else d
  let hot := d.hotNow tj temps 0
  let newly := hot &&& ~~~ d.pwr.hot
  let cool := (d.hotNow tj temps 4) == 0
  let now := d.beats
  let d := d.onPwr fun p => { p with hot, coolSince := if cool then some (p.coolSince.getD now) else none }
  match (List.range 6).find? fun i => newly.getLsbD i with
  | none => d
  | some i =>
    let sensor := if i ≤ 1 then 0 else i - 1
    d.raise 36 0x15 sensor (uns 64 (if i ≤ 1 then tj else temps.getD (i - 2) 0)) 0 0

def execThermalCheck (tj : Int) (temps : List Int) (s : State) : Host.Outcome State Fault Refusal :=
  .next (s.onDev fun d => d.thermalCheck tj temps)

/-- The THERMAL_HIGH chain: the thermal ceiling, the fan, and a GHOST_LIGHT request at CRIT. -/
def Dev.thermalChain (d : Dev) : Dev :=
  let fan := d.fld (rAuxCtl 1) 16 16
  let d := (d.setB rPwrStat 9 true).onPwr fun p => { p with fanBefore := some (p.fanBefore.getD fan) }
  let d := d.setF (rAuxCtl 1) 16 16 (d.fld rThermAct 16 16)
  if d.pwr.hot.getLsbD 1 then d.requestGl else d

/-- THERMAL_CLEAR: every reading has stayed 5 °C below its threshold for 1 s. -/
def execThermalClear (s : State) : Host.Outcome State Fault Refusal :=
  .next (s.onDev fun d =>
    match d.pwr.coolSince with
    | none => d
    | some b =>
      if !d.flag rPwrStat 9 || decide (d.beats < b + 800000) then d
      else
        let d := match d.pwr.fanBefore with | some f => d.setF (rAuxCtl 1) 16 16 f | none => d
        (d.setB rPwrStat 9 false).onPwr fun p => { p with fanBefore := none })

/-! ### The house domain's counters and pins (R374, R378, R381, R393, R412) -/

/-- One second: the alarm counter counts down, and wakes the device at 0. -/
def execAlarmTick (s : State) : Host.Outcome State Fault Refusal :=
  let n := (s.dev.rd rAlarm).toNat
  let s := s.onDev fun d => d.wr rAlarm (BitVec.ofNat 32 (n - 1))
  .next (if n = 1 then s.wakeBy .alarm else s)

def Dev.setCrystal (d : Dev) (ok : Bool) : Dev := (d.setB rClkStat 4 ok).onPwr fun p => { p with crystal := ok }

def execCrystalStable (s : State) : Host.Outcome State Fault Refusal := .next (s.onDev fun d => d.setCrystal true)
def execCrystalFail (s : State) : Host.Outcome State Fault Refusal := .next (s.onDev fun d => d.setCrystal false)

/-- A TAP reset affects the debug access port only. -/
def execTapReset (s : State) : Host.Outcome State Fault Refusal := .next (s.onDev fun d => { d with top.jtagErr := false })

/-- The identity the function presents: vendor and device ID. -/
def Dev.presentedId (d : Dev) : Nat := lef d.identity 0 4

/-- A configuration request: Retry Status until the identity has been read (R393). -/
def execPcieConfigRequest (q : ConfigReq) (s : State) : Host.Outcome State Fault Refusal :=
  .next (s.onDev fun d =>
    if !d.pcie.ready then d.emit .configRetry
    else
      let d := match q with
        | .readId => d
        | .busMaster on => { d with pcie.busMaster := on }
        | .aspm l12 => { d with pcie.l12 := l12 }
      d.emit (.configDone d.presentedId))

/-- A completion timeout of a ring fetch or of a DMA channel's host read (R318, R447). -/
def execCompletionTimeout (w : HostReadOf) (s : State) : Host.Outcome State Fault Refusal :=
  .next (s.onDev fun d =>
    match w with
    | .ring r => if d.fabric && !d.stopped && d.pcie.busMaster && d.ringReady r then d.fetchFail r 3 else d
    | .channel ch => d.dmaNoCompletion ch)

/-- The disc-present input, as POLICY names it: without one a disc is taken to be present (R412). -/
def Dev.discAt (d : Dev) : Bool :=
  match d.policyField 4 1 with
  | none => false
  | some n => decide (16 ≤ n) || (d.flag rGpioIn n != (d.policyField 5 1 == some 1))

/-- The drive holds a disc, or holds none: the host is told (R256, R412). -/
def Dev.setDisc (d : Dev) (disc : Bool) : Dev :=
  if d.hq.disc = disc then d
  else
    let d := { d with hq.disc := disc }
    let d := if disc then d else d.each allSides fun d x => (d.unmountSide x).onSide x fun s => { s with opcUsed := [] }
    (d.hostEvent 4 (if disc then 2 else 0) 0).settle

/-- The disc-present input changes level. -/
def execDiscPresentChange (level : Bool) (s : State) : Host.Outcome State Fault Refusal :=
  .next (s.onDev fun d =>
    match d.policyField 4 1 with
    | none => d
    | some n => if 16 ≤ n then d else let d := d.setB rGpioIn n level; d.setDisc d.discAt)

end Sys2Proof.Machine
end

