-- ==== Sys2Proof/Machine/Boot.lean ====
section
/-! DEFINITION. Power-on, the device reset and start-up: what survives, the boot record and the two slots, loading the
image, the blank stage (R381, R388-R393, R399-R412, R423). -/

namespace Sys2Proof.Machine

/-! ### What outlives a reset (R374, R381, R390) -/

/-- Pins, and what the house domain keeps; `power` for a power-on, which clears the house domain too; `house` for a
wake from P3, which is no device reset of R381 and keeps the retention registers. -/
def Dev.outlives (d : Dev) (power house : Bool) : Dev :=
  let p := d.pwr
  let n : Dev := { Dev.reset with
    sent := d.sent, draws := d.draws,
    pwr := { Pwr.reset with resetDue := none, perst := p.perst, pfail := p.pfail,
                            monitor := if power then none else p.monitor, crystal := !power && p.crystal,
                            newRecord := p.newRecord } }
  let n := (n.setF rGpioIn 0 16 (d.fld rGpioIn 0 16)).each allHeads fun n h =>
    n.setB (rHeadLines h) 1 (d.flag (rHeadLines h) 1)
  if power then n
  else
    let n := { n with top.jtagErr := d.top.jtagErr }
    let n := (((n.wr rAlarm (d.rd rAlarm)).wr rPwrResets (d.rd rPwrResets)).setF rPwrStat 5 3 (d.fld rPwrStat 5 3)).setB
      rPwrStat 10 (d.flag rPwrStat 10)
    let n := n.setB rClkStat 4 p.crystal
    if !house then n
    else (n.setF rPwrStat 2 3 (d.fld rPwrStat 2 3)).each sleds fun n x =>
      (n.onAx x fun a => { a with retained := d.axes[x].retained }).setB (rAxStat x) 5 (d.axes[x].retained).isSome

/-- Lanes that carried valid frames no longer do; head resets are asserted (R438). -/
def Dev.outputsDrop (d : Dev) : Dev :=
  d.each allHeads fun d h =>
    (if d.heads[h].lanes then d.emit (.lanes h false) else d).emit (.headReset h true)

/-- POWER_ON: VHOUSE rises. Everything but flash is as from power-on, and start-up follows. -/
def execPowerOn (s : State) : Host.Outcome State Fault Refusal :=
  let d := (s.dev.outlives true false).emit (.supplies true true)
  .next { s with dev := d.onPwr fun p => { p with resetDue := some 0 }, mem := { Mem.reset with flash := s.mem.flash } }

/-- RESET_CAUSE and PWR_RESETS: neither changes with a wake from P3, and a power-on starts both at 0. -/
def Dev.countReset (d : Dev) (cause : Nat) : Dev :=
  if cause = 8 then d
  else if cause = 0 then d.setF rPwrStat 5 3 0
  else (d.setF rPwrStat 5 3 cause).bump rPwrResets 0 16

/-! ### Flash found at start-up (R391, R398, R402) -/

/-- The retirement record at a stride, if it is valid: bank mask and pages. -/
def retireAt (m : List Host.Cell) (i : Nat) : Option (Nat × List Nat) :=
  let a := retireRegion.addr i
  let n := leNat (flashBytes m (a + 12) 2)
  let body := flashBytes m (a + 24) (4 * n)
  let mask := flashBytes m (a + 8) 4
  if leNat (flashBytes m a 4) = 0x5254_525A ∧ n ≤ 1024 ∧ leNat (flashBytes m (a + 16) 8) = crc64 (mask ++ body) then
    some (leNat mask, (chunks 4 n body).map fun w => leNat w % 2 ^ 21)
  else none

/-- The newest valid retirement record. -/
def retireNewest (m : List Host.Cell) : Option (Nat × List Nat) :=
  match retireRegion.newest m with
  | none => none
  | some i => (List.range retireRegion.count).findSome? fun k => retireAt m (i + retireRegion.count - k)

/-- PWR_DISCARD from the newest discard record. -/
def Dev.showDiscard (d : Dev) (m : List Host.Cell) : Dev :=
  let d := d.setB rPwrDiscard 9 d.pwr.newRecord
  let d := d.onPwr fun p => { p with newRecord := false }
  match discardRegion.newest m with
  | none => d
  | some i =>
    let a := discardRegion.addr i
    (d.setF rPwrDiscard 0 9 (leNat (flashBytes m (a + 6) 2))).setF rPwrDiscard 16 16
      (min 0xFFFF (leNat (flashBytes m (a + 8) 4)))

/-- The installed memory, what is retired of it, and the wipe's end (R282, R294, R295). -/
def Dev.bringMemory (d : Dev) (installed : Nat) (retired : Option (Nat × List Nat)) : Dev :=
  let d := d.setF rBufStat 0 2 installed
  let d := match retired with
    | none => d
    | some (mask, pages) =>
      { d.setPages (pages.map fun p => (p, true)) with buf.retired := BitVec.ofNat 32 mask }
  ((d.setF rBufStat 16 6 d.nb).setB rBufStat 2 false).setB rBufStat 3 true

/-- Why a slot fails, as FAIL_CHECK; a flash that does not answer fails both (R389). -/
def bootCheck (m : List Host.Cell) (env : BootEnv) (slot : Nat) : Option Nat :=
  if !env.flashAnswers then some 8 else slotCheck m slot (env.heads.map typeCode) (gibOf env.installed.val)

/-! ### Loading the image (R405-R412) -/

/-- A section's bytes go to its LOAD address. -/
def State.loadBytes (s : State) (slot : Nat) (x : Section) : State :=
  (s.writeInternal .jtag x.load (sectionBytes s.mem.flash slot x)).1

/-- A register takes a value of the image in force, its RW fields only. -/
def Dev.imageReg (d : Dev) (off v : Nat) : Dev :=
  match regRow off with
  | none => d
  | some r =>
    let m := BitVec.ofNat 32 r.rw
    d.wr off ((d.rd off &&& ~~~ m) ||| (BitVec.ofNat 32 v &&& m))

/-- IDENTITY (R409): what TOP and ENS show, and what the PCIe function presents. -/
def Dev.loadIdentity (d : Dev) (b : List Byte) : Dev :=
  let d := { d with cfg.identity := some b, pcie.ready := true }
  let d := ((((d.wr 0x00 (BitVec.ofNat 32 (lef b 0 4))).wr 0x08 (BitVec.ofNat 32 (lef b 4 4))).wr 0x18
    (BitVec.ofNat 32 (lef b 16 4))).wr 0x1C (BitVec.ofNat 32 (lef b 20 4)))
  let d := (d.setF rEnsCfg 4 10 (lef b 40 2)).setF rEnsCfg 16 10 (lef b 44 2)
  let role := lef b 42 1 % 4
  let d := if role = 3 then d else d.setF rEnsCfg 0 2 role
  let d := d.setB rEnsStat 4 (role == 2)
  allPorts.foldl (fun d p =>
    let mac := beNat ((b.drop (24 + 8 * p.val)).take 6)
    (d.wr (rPortMacLo p) (BitVec.ofNat 32 (mac % 2 ^ 32))).wr (rPortMacHi p) (BitVec.ofNat 32 (mac / 2 ^ 32))) d

/-- CURVE (R410). -/
def Dev.loadCurve (d : Dev) (b : List Byte) : Dev :=
  let d := d.each (List.range 32) fun d k => d.imageReg (rCurve k) (lef b (4 * k) 2 + lef b (4 * k + 2) 2 * 2 ^ 16)
  let d := d.imageReg rCurveCfg (lef b 128 2 % 2 ^ 10 + lef b 130 2 % 2 ^ 10 * 2 ^ 10 + lef b 132 2 % 2 ^ 12 * 2 ^ 20)
  d.imageReg rRamp (lef b 136 2 + lef b 138 2 * 2 ^ 16)

/-- MOTION (R411): 15 words for each axis, AXS_Xn_VMAX to AXS_Xn_REF. -/
def Dev.loadMotion (d : Dev) (b : List Byte) : Dev :=
  d.each allAxes fun d x => d.each (List.range 15) fun d i =>
    let o := 0x18 + 4 * i
    if 4 ≤ x.val ∧ (o = 0x48 ∨ o = 0x50) then d else d.imageReg (rAx x o) (lef b (64 * x.val + 4 * i) 4)

/-- POLICY (R412). -/
def Dev.loadPolicy (d : Dev) (b : List Byte) : Dev :=
  let d := { d with cfg.policy := some b, pwr.auto := BitVec.ofNat 2 (lef b 0 4) }
  let d := d.each (List.range 64) fun d k => d.imageReg (rStream k) (lef b 8 4)
  let d := d.setF rHqCtl 0 4 (lef b 12 1)
  { d with hq.disc := d.discAt }

/-- What the CUE registers show of the image in force: BUILD_ID, FMT_VERSION, IMAGE_SLACK (R51). -/
def Dev.showImage (d : Dev) : Dev :=
  let i := d.image
  let d := ((d.wr rImageBuildLo (BitVec.ofNat 32 (i.build % 2 ^ 32))).wr (rImageBuildLo + 4)
    (BitVec.ofNat 32 (i.build / 2 ^ 32))).wr rImageVer (BitVec.ofNat 32 i.version)
  (d.setF 0x88_0048 0 11 i.resIdle).each (List.finRange 12) fun d n => d.setF (rSlack n) 16 11 (i.slack.getD n.val 0)

/-- CUE: the image goes to bank 0, and the budgets start at its values (R38, R60). -/
def Dev.loadCue (d : Dev) (b : List Byte) : Dev :=
  let img := cueImageOf b
  let d := ({ d with cue.banks := d.cue.banks.set 0 img }).showImage
  d.each (List.finRange 7) fun d k =>
    match img.budgets[k.val]? with
    | some v => d.setF (rBudget k) 0 24 v
    | none => d

/-- Why a REGS entry is skipped (R407). -/
def Dev.regsSkipped (d : Dev) (e : Nat × Nat) : Bool :=
  e.1 % 4 != 0 ||
  (match regRow e.1 with
   | none => true
   | some r => r.cls == .cueOwned || (r.rw == 0 && r.w1c == 0 && r.rc == 0)) ||
  d.image.ranges.any fun r => r.1 == e.1 && (decide (e.2 < r.2.1) || decide (r.2.2 < e.2))

/-- REGS (R406, R407). -/
def Dev.loadRegs (d : Dev) (es : List (Nat × Nat)) : Dev :=
  d.each es fun d (e : Nat × Nat) =>
    if d.regsSkipped e then (d.setB rCfgStat 2 true).post 0x0160 0x13 e.1 e.2 0 0 else d.imageReg e.1 e.2

/-- CORE (R405): the core starts at its section's address. -/
def Dev.startCore (d : Dev) (x : Section) : Dev :=
  let c : Core := Fin.ofNat 4 x.arg
  let e := rCoreCtl c + 4
  let d := (d.wr e (BitVec.ofNat 32 (x.load % 2 ^ 32))).wr (e + 4) (BitVec.ofNat 32 (x.load / 2 ^ 32 % 2 ^ 16))
  (d.setB (rCoreCtl c) 1 false).setB (rCoreStat c) 0 true

/-- The sections of a slot are read in table order, and the register values applied in the order of R406. -/
def State.loadImage (s : State) (slot : Nat) : State :=
  let flash := s.mem.flash
  let l := sections flash slot
  let bytes (t : Nat) : List Byte := match l.find? fun x => x.type == t with
    | some x => sectionBytes flash slot x
    | none => []
  let s := l.foldl (fun (s : State) x => if x.type = 3 ∨ x.type = 4 ∨ x.type = 9 then s.loadBytes slot x else s) s
  s.onDev fun d =>
    let d := d.each l.zipIdx fun d (x : Section × Nat) =>
      if 0x0A ≤ x.1.type ∨ x.1.type = 0 then d.post 0x0162 0x13 x.2 x.1.type 0 0 else d
    let d := d.loadCue (bytes 2)
    let d := (((d.loadIdentity (bytes 1)).loadCurve (bytes 5)).loadMotion (bytes 6)).loadPolicy (bytes 7)
    let d := d.each (l.filter fun x => x.type == 3) Dev.startCore
    let d := match l.find? fun x => x.type == 4 with
      | some x => (d.wr rZoneBaseLo (BitVec.ofNat 32 (x.load % 2 ^ 32))).wr rZoneBaseHi (BitVec.ofNat 32 (x.load / 2 ^ 32 % 2 ^ 16))
      | none => d
    let d := d.loadRegs (regsEntries flash slot l)
    (d.setB rCfgStat 1 true).setF rCfgStat 8 8 (l.filter fun x => decide (1 ≤ x.type) && decide (x.type ≤ 9)).length

/-! ### Start-up (R388, R391, R392) -/

/-- Heads whose type matched a code other than 0 enter service; frames are sent on their lanes (R423). -/
def Dev.startHeads (d : Dev) (types : List TypeRead) : Dev :=
  d.each allHeads fun d h =>
    if typeCode (types.getD h.val .notAcked) = 0 then d
    else ((d.setB (rSrvStat h) 0 true).onHead h fun x => { x with lanes := true, lasers := true }).emit (.lanes h true)

/-- REHEARSAL begins with the first act; every engine samples its registers, and the full calibration starts (R245). -/
def State.startFabric (s : State) : State :=
  let s := s.onDev fun d => { d.setB rCueStatus 0 true with sampled := d.regs }
  s.calFull

/-- The blank stage (R392). -/
def Dev.blankStage (d : Dev) : Dev :=
  let d := { d.setB rPwrStat 8 true with pcie.ready := true }
  d.each allHeads fun d h => (d.setB (rHeadLines h) 0 true).emit (.headReset h true)

/-- A trip of the clock monitor is recorded after the next start (R363). -/
def Dev.showMonitor (d : Dev) : Dev :=
  match d.pwr.monitor with
  | some (c, n) =>
    if c = 0 then d
    else ((d.gcnt 0x1E).post 0x0152 0x14 c n (b2n (d.flag rPwrStat 10)) 0).onPwr fun p => { p with monitor := some (0, n) }
  | none => d

/-- The boot record, the slots' checks and what they show: the slot to load, if one is good (R391). -/
def Dev.chooseSlot (d : Dev) (m : List Host.Cell) (env : BootEnv) : Dev × Option Nat :=
  let rec? := if env.flashAnswers then bootRecord m else none
  let boot := match rec? with | some (r, _) => r.slot % 2 | none => 0
  let life := match rec? with | some (r, _) => r.life % 4 | none => 0
  let d := ((d.setF rLifecycle 0 2 life).setF rPwrBoot 1 1 boot).setB rPwrBoot 3 rec?.isNone
  match bootCheck m env boot with
  | none => (d, some boot)
  | some c =>
    let d := ((d.setB rPwrBoot 2 true).setF rPwrBoot 4 4 c).gcnt 0x1D
    match bootCheck m env (1 - boot) with
    | none => (d.post 0x0151 0x13 boot c (1 - boot) 0, some (1 - boot))
    | some _ => ((d.gcnt 0x1D).drawn.post 0x0151 0x13 boot c (d.fresh % 2 ^ 64) 0, none)

/-- DEVICE_RESET: everything but the house domain is reset and wiped, and start-up runs. -/
def State.deviceReset (s : State) (env : BootEnv) (cause : Nat) : State :=
  let flash := s.mem.flash
  let seen := if env.flashAnswers then flash else []
  let d := s.dev.outputsDrop
  let d := ((d.outlives (cause == 0) (cause == 8)).countReset cause).showDiscard seen
  let d := (d.clocks true).setB rClkStat 2 true
  let d := (d.bringMemory env.installed.val (retireNewest seen)).each allHeads fun d h =>
    ((d.setB (rHeadLines h) 0 false).emit (.headReset h false)).showType h (env.heads.getD h.val .notAcked)
  let (d, slot) := d.chooseSlot flash env
  let s := { s with dev := d, mem := { Mem.reset with flash } }
  match slot with
  | none => s.onDev fun d => d.blankStage.showMonitor
  | some k =>
    let s := (s.loadImage k).onDev fun d =>
      ((((d.setF rPwrBoot 0 1 k).setF rPwrBoot 8 16 (min env.loadMs 0xFFFF)).showMonitor).startHeads env.heads)
    s.startFabric

/-- The row: a device reset that is due takes place, once both supplies are good. -/
def execDeviceReset (env : BootEnv) (s : State) : Host.Outcome State Fault Refusal :=
  .next (match s.dev.pwr.resetDue with
    | none => s
    | some c => if s.dev.pwr.goodMain && s.dev.pwr.goodDdr then s.deviceReset env c else s)

end Sys2Proof.Machine
end

