-- ==== Sys2Proof/Machine/Cue.lean ====
section
/-! DEFINITION. The cue fabric: beat boundaries, contingency chains, the prompter, entry into GHOST_LIGHT, safe stop, run
modes, injection, cue-owned writes and the swap of cue-store banks (R24-R27, R31, R35, R42-R65). -/

namespace Sys2Proof.Machine

/-! ### Requests for a run mode (R25, R26) -/

/-- A request is accepted: it waits for its transition, and MODE_REQUEST is raised. -/
def Dev.acceptMode (d : Dev) (req : Nat) : Dev :=
  (({ d with cue.request := some req }).setB rTopMode 8 true).raise 35 0x0C rTopMode req 0 0

/-- TOP_MODE.REQ is written. In the blank stage every request is refused with reason 0x1 (R392); after a safe stop the sheet
is not switched again, and each is refused with reason 0x2 (R59). -/
def Dev.modeRequest (d : Dev) (req : Nat) : Dev :=
  if req = 0 then d
  else if d.flag rPwrStat 8 then d.refuseMode 1
  else if d.flag rTopMode 8 then d.refuseMode 4
  else if d.cue.fault.isSome || d.safeStopped then d.refuseMode 2
  else if req = 3 then d.requestGl
  else if req = 1 then
    if !d.rehearsal then d.refuseMode 2 else if !d.flag rCalCtl 3 then d.refuseMode 1 else d.acceptMode 1
  else if d.rehearsal then d.refuseMode 2
  else if d.ghostLight && !d.spindleStopped then d.refuseMode 3
  else d.acceptMode 2

def execReqPerformance (_m : Master) (s : State) : Host.Outcome State Fault Refusal :=
  .next (s.onDev fun d => d.modeRequest 1)
def execReqRehearsal (_m : Master) (s : State) : Host.Outcome State Fault Refusal :=
  .next (s.onDev fun d => d.modeRequest 2)
def execReqGhostLight (_m : Master) (s : State) : Host.Outcome State Fault Refusal :=
  .next (s.onDev fun d => d.modeRequest 3)

/-- The fabric is at cycle 0 of an act. -/
def Dev.atAct (d : Dev) : Bool := d.fabric && d.cue.beat == 0 && d.cue.slot == 0

/-- The run mode changes; the host is told (R255, EVENT 0x0003). -/
def Dev.enterMode (d : Dev) (mode : Nat) : Dev :=
  let d := ({ d with cue.request := none }).setB rTopMode 8 false
  (d.setF rTopMode 0 2 mode).hostEvent 3 mode 0

/-- The start-up policy's LOAD (R412), a command of the drive's own that posts no STATUS. -/
def Dev.autoLoad (d : Dev) : Dev :=
  if !d.pwr.auto.getLsbD 1 then d
  else
    let d := d.onPwr fun p => { p with auto := p.auto &&& 1 }
    if !d.hq.disc then d
    else
      let c := { Cmd.fetched (.peer (Fin.ofNat 1024 d.deviceId)) (slotOf (pad64 [1, 0x20])) d.hq.order with silent := true }
      { d with hq.order := d.hq.order + 1, hq.cmds := d.hq.cmds ++ [c] }

/-- GHOST_LIGHT ends: the fabric's entry sequence is over, and lasers and axes are free for REHEARSAL (R25). -/
def Dev.leaveGhost (d : Dev) : Dev :=
  let d := ({ d with cue.glBeat := 0 }).setF rCueStatus 4 2 0
  let d := d.each allHeads fun d h => d.onHead h fun s => { s with rampFrom := none, lasers := s.lanes && d.inService h }
  (d.each allAxes fun d x => d.onAx x fun a => { a with park := 0 }).enterMode 0

/-- An accepted request takes effect at its act boundary (R25). -/
def Dev.modeTransition (d : Dev) : Dev :=
  match d.cue.request with
  | none => d
  | some r =>
    if !d.atAct || d.cue.fault.isSome || d.safeStopped then d
    else if r = 1 then (d.enterMode 1).autoLoad
    else if d.ghostLight then d.leaveGhost
    else if d.hq.cmds.any (·.started) || d.uncommitted then d
    else (d.endPerformance false).enterMode 0

def execModeTransition (s : State) : Host.Outcome State Fault Refusal := .next (s.onDev Dev.modeTransition)

/-! ### What a chain does when it starts and when it ends -/

/-- The event-line entry of an event (R367). -/
def Dev.postEvent (d : Dev) (e : PendEvent) : Dev :=
  d.postAt e.line.val e.source e.act e.pos false d.ghostLight e.d0 e.d1 e.d2 e.d3

/-- The entry of a HEAD_FAULT; a trigger of R372 with both heads of the side out. -/
def Dev.postHeadFault (d : Dev) (e : PendEvent) (h : Head) : Dev :=
  if d.sideDown (sideOf h) then
    (d.postAt e.line.val e.source e.act e.pos true d.ghostLight e.d0 e.d1 e.d2 e.d3).copyBoard e.line.val
  else d.postEvent e

/-- The work of an event's chain from its start. Chains of lines that no chapter gives work only run. -/
def Dev.chainWork (d : Dev) (e : PendEvent) : Dev :=
  let l := e.line.val
  if 1 ≤ l ∧ l ≤ 4 then
    let h : Head := Fin.ofNat 4 (l - 1)
    (d.headFaultChain h).postHeadFault e h
  else if 5 ≤ l ∧ l ≤ 8 then (d.offTrackChain (Fin.ofNat 4 (l - 5))).postEvent e
  else if 9 ≤ l ∧ l ≤ 12 then d.syncLostChain (Fin.ofNat 4 (l - 9)) (Fin.ofNat 8 e.d1)
  else if l = 17 then d.observerChain.postEvent e
  else if l = 18 then d.postEvent e
  else if l = 19 then d.chopperChain.postEvent e
  else if 20 ≤ l ∧ l ≤ 27 then (d.axisStopChain (Fin.ofNat 8 (l - 20))).postEvent e
  else if l = 28 ∨ l = 29 then (d.pathLostChain (Fin.ofNat 2 (l - 28))).postEvent e
  else if l = 30 then d.mismatchChain
  else if l = 36 then (d.postEvent e).thermalChain
  else d

/-- The work at a chain's end. -/
def Dev.chainEndWork (d : Dev) (line : Fin 256) : Dev :=
  let l := line.val
  if 1 ≤ l ∧ l ≤ 4 then d.headFaultEnd (Fin.ofNat 4 (l - 1))
  else if 5 ≤ l ∧ l ≤ 8 then d.offTrackEnd (Fin.ofNat 4 (l - 5))
  else if l = 28 ∨ l = 29 then d.pathLostEnd
  else d

/-- Beats 1 and 9 of a HEAD_FAULT chain: the partner takes the work over; the sled begins its park move, and the side is
marked degraded (R179). -/
def Dev.chainBeat (d : Dev) (c : RunChain) : Dev :=
  let l := c.ev.line.val
  let h : Head := Fin.ofNat 4 (l - 1)
  if l < 1 ∨ 4 < l then d
  else if c.elapsed = 2 then d.moveWork h
  else if c.elapsed = 10 then d.markDegraded h
  else d

/-! ### Starting and ending chains (R43-R49) -/

/-- Two chains of a table are COMPAT only when each one's mask names the other (R43). -/
def compat (a b : ChainHdr) : Bool := a.compat.getLsbD b.event.val && b.compat.getLsbD a.event.val

/-- The chain may start beside every chain that runs. -/
def Dev.fitsBeside (d : Dev) (c : ChainHdr) : Bool :=
  d.cue.running.all fun r => match d.chainOf r.ev.line with
    | some o => compat c o
    | none => false

/-- An event is no longer pending. -/
def Dev.unpend (d : Dev) (line : Fin 256) : Dev :=
  { d with cue.pending := d.cue.pending.filter fun e => e.line != line }

/-- A chain starts at this beat's cycle 0. -/
def Dev.startChain (d : Dev) (e : PendEvent) (c : ChainHdr) : Dev :=
  let d := (d.unpend e.line).post 0x0102 0x0C e.line.val c.length (b2n d.ghostLight) e.waited
  let r : RunChain := { ev := e, gl := d.ghostLight, startAct := d.cue.act, startBeat := d.cue.beat.val,
                        length := c.length, elapsed := 1 }
  ({ d with cue.running := d.cue.running ++ [r] }).chainWork e

/-- The entry of a chain's end, made in the chain's last beat (R371). -/
def Dev.postChainEnd (d : Dev) (r : RunChain) (cut : Bool) : Dev :=
  d.postAt 0x0103 0x0C d.cue.act d.pos false (cut || d.ghostLight) r.ev.line.val r.startAct
    (r.elapsed % 2 ^ 16 + b2n cut * 2 ^ 16) r.startBeat

/-- A chain has run its LENGTH. An event whose line is still asserted is latched in the chain's last beat (R46). -/
def Dev.endChain (d : Dev) (r : RunChain) (asserted : Bool) : Dev :=
  let d := { d with cue.running := d.cue.running.filter fun c => c.ev.line != r.ev.line }
  let d := (d.postChainEnd r false).chainEndWork r.ev.line
  if asserted ∧ !(d.cue.pending.any fun e => e.line == r.ev.line) then
    { d with cue.pending := d.cue.pending ++ [{ r.ev with act := d.cue.act, pos := d.pos, waited := 0 }] }
  else d

/-- A chain's last beat ends. -/
def execChainEnd (line : Fin 256) (asserted : Bool) (s : State) : Host.Outcome State Fault Refusal :=
  .next (s.onDev fun d =>
    match d.cue.running.find? fun r => r.ev.line == line && decide (r.length ≤ r.elapsed) with
    | some r => d.endChain r asserted
    | none => d)

/-- A schedule fault under the ghost-light cue sheet: safe stop (R59). A second one is only recorded. -/
def Dev.safeStop (d : Dev) (engine cause chain : Nat) : Dev :=
  let d := (d.bump (rEvcnt 0) 0 16).recordFault engine cause chain true
  let d := if cause ≤ 2 then { d.gcnt cause with cue.halted := d.cue.halted ||| BitVec.ofNat 12 (2 ^ engine) } else d
  let d := d.dropGates
  if d.safeStopped then d
  else
    let d := d.each allHeads fun d h =>
      if d.heads[h].lanes then (d.onHead h fun s => { s with lanes := false }).emit (.lanes h false) else d
    let d := (((d.inverterOff 3).setSpn 3).setB rSpnStat 5 false).axesSafeStop
    (d.setB rCueStatus 3 true).postFatal 0 0x0C rCueFaultWhat (d.rd rCueFaultWhat).toNat 0 0

/-- A schedule fault of the sheet that runs. -/
def Dev.scheduleFault (d : Dev) (engine cause chain : Nat) : Dev :=
  if d.ghostLight then d.safeStop engine cause chain else d.faultMain engine cause chain

/-- Lines whose event has a record of its own, made when it is detected (R371). -/
def ownRecord (line : Fin 256) : Bool := (decide (13 ≤ line.val) && decide (line.val ≤ 16)) || line == 31

/-- An event without a chain is only counted by the main sheet; in GHOST_LIGHT it is recorded and answered by nothing
else (R47). -/
def Dev.unanswered (d : Dev) (e : PendEvent) : Dev :=
  let d := d.unpend e.line
  let ms := if e.line = 30 then d.flt.waiting else []
  let d := if e.line = 30 then { d with flt.waiting := [] } else d
  if !d.ghostLight || ownRecord e.line then d
  else if e.line = 30 then
    d.each ms fun d (m : Mismatch) => d.postAt 30 m.engine m.act m.pos false d.ghostLight m.off m.value m.kept m.writer
  else d.postEvent e

/-- A pending event at a boundary: its chain starts, or it waits; past MAXWAIT it is a schedule fault (R43, R45). -/
def Dev.selectEvent (d : Dev) (e : PendEvent) : Dev :=
  match d.chainOf e.line with
  | none => d.unanswered e
  | some c =>
    if d.fitsBeside c then d.startChain e c
    else
      let d := { d with cue.pending := d.cue.pending.map fun (x : PendEvent) =>
        if x.line = e.line then { x with waited := x.waited + 1 } else x }
      if e.waited = c.maxwait then d.scheduleFault 0 3 e.line.val else d

/-- Pending events in order of selection: highest PRIO first, then lowest line (R43). -/
def Dev.inOrder (d : Dev) (es : List PendEvent) : List PendEvent :=
  let prio (e : PendEvent) : Nat := match d.chainOf e.line with | some c => c.prio | none => 0
  let key (e : PendEvent) : Nat := (15 - prio e) * 256 + e.line.val
  (es.foldl (fun (m : List (Nat × PendEvent)) e => sput m (key e) e) []).map (·.2)

def Dev.selectChains (d : Dev) : Dev := d.each (d.inOrder d.cue.pending) Dev.selectEvent

/-! ### Entry into GHOST_LIGHT (R26, R43, R47, R57, R58) -/

/-- Running chains of the main sheet end in beat f, and their events wait for the ghost-light table. -/
def Dev.cutChains (d : Dev) : Dev :=
  let d := d.each d.cue.running fun d r => d.postChainEnd r true
  let old := d.cue.pending.filter fun e => !(d.cue.running.any fun r => r.ev.line == e.line)
  { d with cue.running := [],
           cue.pending := (d.cue.running.map (·.ev) ++ old).map fun (e : PendEvent) => { e with waited := 0 } }

/-- What a head does in beat f + 1: its read ends, its place is abandoned, its seek ends, and its lasers go to read
power. -/
def Dev.ghostHead (d : Dev) (h : Head) : Dev :=
  let d := (((d.dropGate h).dropReads h).dropJump h).onHead h fun s => { s with seek := none, search := none, resume := none }
  let d := (d.setF (rSeek h) 24 4 0).setB (rSrvStat h) 5 false
  if d.heads[h].lanes && d.heads[h].lasers then d.sendLevels h (d.fld (rBias h) 0 16) else d

/-- Cycle 0 of beat f + 1: the ghost-light cue sheet is in force. -/
def Dev.enterGhost (d : Dev) : Dev :=
  let d := d.onlyIf d.cue.request.isSome fun d => d.refuseMode 2
  let d := (d.enterMode 2).setB rTopMode 16 true |>.bump rTopMode 24 8
  let d := { d with cue.fault := none, cue.halted := 0, cue.glBeat := 1 }
  let d := d.onPwr fun p => { p with auto := 0 }
  let d := d.each allAxes fun d x => d.onAx x fun a => { a with park := 0 }
  let d := d.postFatal 0 0x0C rCueFaultWhat (d.rd rCueFaultWhat).toNat 0 0
  ((d.endPerformance true).each allHeads Dev.ghostHead).calGhost

/-- Beat f + 2: the target is 0, a start is abandoned, and the retract ramp begins (R57). -/
def Dev.ghostRamp (d : Dev) : Dev :=
  let d := d.setF rSpnSpeed 16 16 0
  let d := d.onlyIf (d.spnState == 1) Dev.startAbandoned
  d.each allHeads fun d h =>
    let from_ := (d.lastCode h 0, d.lastCode h 1)
    ((d.openTracking h).openFocus h).onHead h fun s => { s with rampFrom := some from_ }

/-- One more beat of GHOST_LIGHT; beats after that in which the lasers go off count alike. -/
def Dev.ghostBeat (d : Dev) : Dev :=
  let d := { d with cue.glBeat := min (d.cue.glBeat + 1) (d.image.glRamp + 3) }
  d.onlyIf (d.cue.glBeat == 2) Dev.ghostRamp

/-- GL_PHASE advances: lasers off in the beat after the ramp, f + 802 in the reference image; every sled parked; spindle
stopped (R57). -/
def Dev.glPhaseAdvance (d : Dev) : Dev :=
  let ph := d.fld rCueStatus 4 2
  if !d.ghostLight then d
  else if ph = 0 then
    if d.cue.glBeat < d.image.glRamp + 2 then d
    else
      let d := d.each allHeads fun d h =>
        (d.onlyIf d.heads[h].lanes fun d => d.sendLevels h 0).onHead h fun s => { s with lasers := false }
      d.setF rCueStatus 4 2 1
  else if ph = 1 then (if d.sledsParked then d.setF rCueStatus 4 2 2 else d)
  else if ph = 2 then
    (if d.spindleStopped then ((d.inverterOff 3).setB rSpnStat 5 false).setF rCueStatus 4 2 3 else d)
  else d

def execGlPhaseAdvance (s : State) : Host.Outcome State Fault Refusal := .next (s.onDev Dev.glPhaseAdvance)

/-! ### The beat boundary (R31, R43, R63) -/

/-- The cue clock stands: no fabric, a trip of the clock monitor, or a supply gone. -/
def Dev.clockStands (d : Dev) : Bool :=
  !d.fabric || d.pwr.resetDue == some 4 || !d.pwr.goodMain || !d.pwr.goodDdr

/-- The counts go on: beat and act, and the time of the part. -/
def Dev.nextBeat (d : Dev) : Dev :=
  let last := d.cue.beat.val == 1023
  let carry := decide (1000000000 ≤ d.ns + 1250)
  { d with
    ns := if carry then d.ns + 1250 - 1000000000 else d.ns + 1250,
    sec := if carry then d.sec + 1 else d.sec,
    cue.beat := Fin.ofNat 1024 (d.cue.beat.val + 1),
    cue.act := if last then (d.cue.act + 1) % 2 ^ 64 else d.cue.act,
    cue.slot := 0,
    cue.ownedEntry := d.cue.ownedEntry && !last,
    cue.actDone := d.cue.actDone && !last }

/-- Gates to be removed at this boundary go; engines sample their live registers; values written by hand to cue-owned
registers are gone (R12, R63). -/
def Dev.beatStart (d : Dev) : Dev :=
  let d := d.each allHeads fun d h => d.onlyIf d.heads[h].gateOff fun d => d.dropGate h
  { d with sampled := d.regs, cue.byHand := [] }

/-- The start-up policy's request, once start-up calibration is complete (R412). -/
def Dev.autoPerformance (d : Dev) : Dev :=
  if d.pwr.auto.getLsbD 0 && d.rehearsal && d.flag rCalCtl 3 && d.cue.request.isNone && d.cue.fault.isNone then
    (d.onPwr fun p => { p with auto := p.auto &&& 2 }).acceptMode 1
  else d

/-- The CLOCK block of a head: 56 times its wobble's frequency, in units of 2 GHz / 2^32, and the tick's phase, which the
analogue clock gives (R126). -/
def Dev.sendClock (d : Dev) (h : Head) : Dev :=
  if !d.heads[h].lanes then d
  else d.drawn.emit (.control h (clockBlock (quot (56 * d.heads[h].wobble.freq * 2 ^ 32) 2000000000).toNat d.fresh))

/-- What a beat boundary does for a head: its position is shown (R92), its clock sent, a search goes on, and a beat of
free head time is counted (R235). -/
def Dev.headBeat (d : Dev) (h : Head) : Dev :=
  let free := d.freeHead h
  (((d.showPosition h).sendClock h).searchBeat h).onHead h fun s =>
    { s with freeBeats := if free then s.freeBeats + 1 else s.freeBeats, grouped := false }

/-- BEAT_BOUNDARY. -/
def Dev.beatBoundary (d : Dev) : Dev :=
  if d.clockStands then d
  else
    let d := d.each (d.cue.running.filter fun r => decide (r.length ≤ r.elapsed)) fun d r => d.endChain r false
    let entry := d.cue.fault.isSome && !d.ghostLight
    let d := d.onlyIf entry Dev.cutChains
    let d := d.nextBeat.beatStart.axesBeat
    let d := if entry then d.enterGhost else if d.ghostLight then d.ghostBeat else d
    let d := { d with cue.running := d.cue.running.map fun (r : RunChain) => { r with elapsed := r.elapsed + 1 } }
    let d := (d.each d.cue.running Dev.chainBeat).selectChains
    -- a completion ring's CQ_HEAD is sampled now (R63): what it makes room for is posted
    (((d.each allHeads Dev.headBeat).each allRings Dev.drainHeld).settle).autoPerformance

def execBeatBoundary (s : State) : Host.Outcome State Fault Refusal :=
  .next (s.onDev Dev.beatBoundary).startFlash

/-! ### The prompter (R34, R35, R51, R54-R56) -/

/-- A finished claim's slack. -/
def Dev.noteSlack (d : Dev) (c : ClaimDone) : Dev :=
  d.setF (rSlack c.engine) 0 11 (min (d.fld (rSlack c.engine) 0 11) c.slack)

/-- A claim's done signal; a control core's is set by WFI (R35), and a core that is held signals it at once (R405). -/
def Dev.claimDone (d : Dev) (c : ClaimDone) : Bool :=
  let core : Core := Fin.ofNat 4 (c.engine.val - 8)
  if 8 ≤ c.engine.val then !d.flag (rCoreStat core) 0 || d.cue.coreDone[core] else c.done

/-- The beat a word read in a slot belongs to: words are read one slot ahead. A chain's words count from the chain's own
first beat. -/
def Dev.wordBeat (d : Dev) (slot : Fin 10) (chain : Option (Fin 256)) : Nat :=
  let next := b2n (slot.val == 9)
  match chain with
  | none => (d.cue.beat.val + next) % 1024
  | some l => match d.cue.running.find? fun r => r.ev.line == l with
    | some r => r.elapsed - 1 + next
    | none => 0

/-- CHECK and SEQ of a word are right (R34). -/
def Dev.wordOk (d : Dev) (slot : Fin 10) (r : CueRead) : Bool := cueSealed (d.wordBeat slot r.chain) r.word

/-- PROMPTER_CHECK: faults of a slot are taken lowest engine first (R55). A word's engine is that of its ENG field. -/
def Dev.prompterCheck (d : Dev) (slot : Fin 10) (claims : List ClaimDone) (words : List CueRead) : Dev :=
  if !d.fabric then d
  else
    let d := { d with cue.slot := slot }
    let chainNo (c : Option (Fin 256)) : Nat := match c with | some l => l.val | none => 0xFF
    let late := (claims.filter fun c => !d.claimDone c).map fun c => (c.engine.val, 1, chainNo c.chain)
    let bad := (words.filter fun w => !d.wordOk slot w).map fun w => (cueEngine w.word, 2, chainNo w.chain)
    let d1 := d.each (claims.filter d.claimDone) Dev.noteSlack
    let d1 := d1.each claims fun d c =>
      if 8 ≤ c.engine.val then { d with cue.coreDone := d.cue.coreDone.set ((c.engine.val - 8) % 4) false } else d
    let faults := (List.range 16).flatMap fun e => (late ++ bad).filter fun f => f.1 == e
    d1.each faults fun d f => d.scheduleFault f.1 f.2.1 f.2.2

def execPrompterCheck (slot : Fin 10) (claims : List ClaimDone) (words : List CueRead) (s : State) :
    Host.Outcome State Fault Refusal := .next (s.onDev fun d => d.prompterCheck slot claims words).startFlash

/-- A running core executes WFI: done for its window while YIELD is 1, else it waits for an interrupt (R35). -/
def execCoreWfi (c : Core) (s : State) : Host.Outcome State Fault Refusal :=
  .next (s.onDev fun d =>
    if !d.flag (rCoreStat c) 0 || d.engineHalted (Fin.ofNat 12 (8 + c.val)) then d
    else if d.flag (rCoreCtl c) 0 then { d with cue.coreDone := d.cue.coreDone.set c true }
    else d.setB (rCoreStat c) 2 true)

/-- CUE_En_SLACK.CLEAR. -/
def Dev.slackClear (d : Dev) (n : Fin 12) : Dev := d.setF (rSlack n) 0 11 0x7FF

def execSlackClear (_m : Master) (n : Fin 12) (s : State) : Host.Outcome State Fault Refusal :=
  .next (s.onDev fun d => d.slackClear n)

/-! ### Injection (R53) -/

/-- The block that raises a line, as an entry's SOURCE (R33, R367). -/
def lineSource (line : Nat) : Nat :=
  if line ≤ 8 then 0x00 else if line ≤ 12 then 0x03 else if line ≤ 16 then 0x02 else if line ≤ 27 then 0x01
  else if line ≤ 29 then 0x07 else if line = 31 then 0x10 else if 32 ≤ line ∧ line ≤ 34 then 0x06
  else if line = 36 then 0x15 else 0x0C

/-- What an event's source does when it raises it, where the event's chain does not do it: an injected event has its real
effect. A failed verification stops home places on the side; a queue reset names no ring, and takes one at will. A media
fault of the buffer, an activation and a mode request have nothing to act on without theirs
(notes/assumptions/30.md). -/
def Dev.injected (d : Dev) (ev : Nat) : Dev :=
  if 13 ≤ ev ∧ ev ≤ 16 then
    let x := sideOf (Fin.ofNat 4 (ev - 13))
    d.onSide x fun s => { s with stopHome := s.stopHome || d.verified x }
  else if ev = 32 then
    let r : RingId := Fin.ofNat 16 d.fresh
    (d.drawn.resetRing r d.hq.order).settle
  else d

/-- CUE_EVENT_INJECT.GO with an event: raised, or refused with WHY. -/
def Dev.inject (d : Dev) (ev : Nat) : Dev :=
  let refuse (why : Nat) : Dev := (d.setB rCueInject 9 true).setF rCueInject 12 4 why
  if !(decide (64 ≤ ev) || (decide (1 ≤ ev) && d.image.injectable.getLsbD ev)) then refuse 2
  else if d.performance && d.fld rLifecycle 0 2 == 1 then refuse 1
  else if ev = 34 ∧ d.hq.curtain.isNone then d.startCurtain none false
  else (d.raise (Fin.ofNat 256 ev) (lineSource ev) 0 0 0 0).injected ev

def execEventInject (_m : Master) (event : BitVec 8) (s : State) : Host.Outcome State Fault Refusal :=
  .next (s.onDev fun d => d.inject event.toNat)

/-! ### Cue-owned registers (R12, R65) -/

/-- A write to a cue-owned register: counted and recorded; the value is read back until the next beat boundary. -/
def Dev.ownedWrite (d : Dev) (m : Master) (off : Nat) (v : W32) : Dev :=
  let peer : Nat := match m with | .peer id => id.val * 2 ^ 16 | _ => 0
  let d := ((d.bump rOwnedHit 0 16).setF rOwnedHit 16 8 (writerCode m)).setF rOwnedAddr 0 26 off
  let d := { d with cue.byHand := sput d.cue.byHand off v }
  if d.cue.ownedEntry then d
  else ({ d with cue.ownedEntry := true }).post 0x0101 0x0C off v.toNat (d.rd off).toNat (writerCode m + peer)

def execCueOwnedWrite (m : Master) (off : Off) (v : W32) (s : State) : Host.Outcome State Fault Refusal :=
  .next (s.onDev fun d =>
    match regRow off.toNat with
    | some r => if r.cls = .cueOwned then d.ownedWrite m off.toNat v else d
    | none => d)

/-! ### The swap of banks (R62, R64) -/

/-- A staged value is not applied: the record of R64. -/
def Dev.paramReject (d : Dev) (off : Nat) (v kept : W32) : Dev :=
  ((d.setF 0x10_004C 0 26 off).setB 0x10_004C 31 true).post 0x0104 0x0C off v.toNat kept.toNat 0

/-- Staged values in force that lie outside a range of the new image are recorded; they stay as they are (R62, R64). -/
def Dev.recheckRanges (d : Dev) : Dev :=
  d.each d.image.ranges fun d r =>
    let v := (d.rd r.1).toNat
    if v < r.2.1 ∨ r.2.2 < v then d.paramReject r.1 (d.rd r.1) (d.rd r.1) else d

/-- BANK_SWAP, at an act boundary: the other bank is in force, and FW_ACTIVATE completes. With BOOT set, a boot record
naming its slot is to be written. -/
def Dev.bankSwap (d : Dev) : Dev :=
  match d.cue.swap with
  | none => d
  | some (img, slot) =>
    if !d.atAct then d
    else
      let d := { d with cue.banks := d.cue.banks.set d.otherBank img, cue.swap := none }
      let d := ((d.setB rCueStatus 1 (!d.flag rCueStatus 1)).setB rCueStatus 2 false).showImage.recheckRanges
      -- calibration windows restart (R244)
      let d := d.each allHeads fun d h => d.each allSpots fun d j => d.onSpot h j fun s => { s with win := .reset }
      match d.hq.cmds.find? fun c => d.hq.activate == some c.order with
      | none => ({ d with hq.activate := none }).setB rHqCtl 8 false
      | some c =>
        let d := { d with hq.activate := none }
        let d := d.onlyIf ((pCdw0 c.slot).testBit 1) fun d =>
          { d with cfg.waiting := d.cfg.waiting ++ [FlashOp.bootRecord (d.fld rLifecycle 0 2) slot] }
        ((d.setB rHqCtl 8 false).complete c 0).settle

def execBankSwap (s : State) : Host.Outcome State Fault Refusal := .next (s.onDev Dev.bankSwap).startFlash

end Sys2Proof.Machine
end

