-- ==== Sys2Proof/Machine/Regs.lean ====
section
/-! DEFINITION. Reading and writing the register range: what each register shows, what a write does by its class and its
own rule, RC fields, latched _HI partners, narrow writes, and the windows (R4, R7-R12, R41, R55, R143, R253, R308, R366,
R370, R415-R427). -/

namespace Sys2Proof.Machine

/-! ### What a read shows -/

/-- Bits of a number put into a register's value. -/
def showF (v : W32) (lo w x : Nat) : W32 := fset v lo w x

/-- Bytes in units of 64 KiB rounded up, with WITHHELD at or above a budget (R270, R347). -/
def useWord (bytes budget : Nat) : W32 :=
  let u := (bytes + 65535) / 65536
  BitVec.ofNat 32 (min u (2 ^ 21 - 1) + b2n (decide (budget ≤ u)) * 2 ^ 31)

/-- The pending events of register n of CUE_EVENT_PEND. -/
def Dev.pendWord (d : Dev) (n : Nat) : W32 :=
  d.cue.pending.foldl (fun v e => if e.line.val / 32 = n then v ||| BitVec.ofNat 32 (2 ^ (e.line.val % 32)) else v) 0

/-- Registers of TOP, CUE, FLT and CFG whose reads show more than the stored value. -/
def Dev.viewLow (d : Dev) (off : Nat) : Option W32 :=
  if off = 0x10_0000 then some (showF (d.rd off) 8 8 d.cue.running.length)
  else if off = 0x10_0004 then some (BitVec.ofNat 32 (d.cue.beat.val + d.cue.slot.val * 2 ^ 12))
  else if off = 0x10_0008 then some (BitVec.ofNat 32 d.cue.act)
  else if off = 0x10_000C then some (BitVec.ofNat 32 (d.cue.act / 2 ^ 32))
  else if 0x10_0020 ≤ off ∧ off < 0x10_0040 then some (d.pendWord ((off - 0x10_0020) / 4))
  else if off = 0xE0_0000 then some (BitVec.ofNat 32 d.flt.next)
  else if off = 0x100_001C then some (BitVec.ofNat 32 (d.cfg.rx.length + (256 - d.cfg.tx.length) * 2 ^ 16))
  else none

/-- DMA_IRQ: the OR of DONE and ERR of each channel whose IRQ_EN is set. -/
def Dev.dmaIrq (d : Dev) : W32 :=
  allChans.foldl (fun v ch => if d.flag (rDmaCtl ch) 23 && (d.flag (rDmaStat ch) 1 || d.flag (rDmaStat ch) 2) then
    v ||| BitVec.ofNat 32 (2 ^ ch.val) else v) 0

/-- A channel waits for its request line (R315). -/
def Dev.pacedWait (d : Dev) (ch : Chan) : Bool :=
  d.dmaBusy ch && d.dmaReq ch != 0 && d.dma[ch].burst == 0 && decide (0 < d.dma[ch].left)

/-- Registers of BUF, SC and DMA whose reads show more than the stored value. -/
def State.viewMem (s : State) (off : Nat) : Option W32 :=
  let d := s.dev
  if off = rBufStat then some (showF (d.rd off) 4 6 s.mem.merge.length)
  else if 0xA0_1000 ≤ off ∧ off < 0xA0_2000 then some (d.pageListView ((off - 0xA0_1000) / 4))
  else if off = rScStat then some (showF (d.rd off) 2 17 (s.mem.lines.filter fun l => l.2.dirty).length)
  else if off = 0xC0_1008 then some d.dmaIrq
  else if 0xC0_0000 ≤ off ∧ off < 0xC0_0800 ∧ off % 0x40 = 0x18 then
    some (showF (d.rd off) 9 1 (b2n (d.pacedWait (Fin.ofNat 32 ((off - 0xC0_0000) / 0x40)))))
  else none

/-- Registers of HQ, ENS and CAL whose reads show more than the stored value. -/
def Dev.viewHigh (d : Dev) (off : Nat) : Option W32 :=
  if 0x90_0000 ≤ off ∧ off < 0x90_0400 ∧ off % 0x40 = 0x18 then
    let r : RingId := Fin.ofNat 16 ((off - 0x90_0000) / 0x40)
    some (showF (showF (d.rd off) 12 14 (d.outstandingOf r)) 26 1 (b2n (d.cqFull r)))
  else if 0x92_0000 ≤ off ∧ off < 0x92_0200 ∧ off % 8 = 4 then
    let k := (off - 0x92_0000) / 8
    some (useWord (d.streamUse k) (d.fld (rStream k) 0 21))
  else if 0x93_0000 ≤ off ∧ off < 0x93_0400 ∧ (off % 0x20 = 0x10 ∨ off % 0x20 = 0x14) then
    let a := d.appendPoint ((off - 0x93_0000) / 0x20 + 1)
    some (BitVec.ofNat 32 (if off % 0x20 = 0x10 then a else a / 2 ^ 32))
  else if off = rHqStat then some (showF (d.rd off) 0 14 d.outstanding)
  else if off = 0xD0_001C then some (useWord d.fwdUse (d.fld rFwdBudget 0 21))
  else if off = 0xD0_0094 then some (BitVec.ofNat 32 d.ns)
  else if off = 0xD0_0098 then some (BitVec.ofNat 32 d.sec)
  else if off = 0xD0_009C then some (BitVec.ofNat 32 (d.sec / 2 ^ 32 % 2 ^ 16))
  else if 0x80_0000 ≤ off ∧ off < 0x84_0000 then
    if off % 16 = 8 then some (d.calCntView off) else d.calCurView off
  else none

/-- What a register of each class reads as: a staged one its shadow in its RW fields (R11), a cue-owned one the value
written by hand in this beat (R12), a live one the value held. -/
def Dev.held (d : Dev) (r : RegRow) (off : Nat) : W32 :=
  let rw := BitVec.ofNat 32 r.rw
  match r.cls with
  | .live => d.rd off
  | .staged => (d.shadow off &&& rw) ||| (d.rd off &&& ~~~ rw)
  | .cueOwned => (sfind d.cue.byHand off).getD (d.rd off)

/-- HQ_NSn_CFG shows in SIDE where the namespace lies. -/
def Dev.nsCfgView (d : Dev) (off : Nat) (v : W32) : W32 :=
  if 0x93_0000 ≤ off ∧ off < 0x93_0400 ∧ off % 0x20 = 0x0C then
    showF v 2 1 (d.nsSide ((off - 0x93_0000) / 0x20 + 1)).val
  else v

/-- What a read of a named register shows. -/
def State.view (s : State) (r : RegRow) (off : Nat) : W32 :=
  let d := s.dev
  (((d.viewLow off).or (s.viewMem off)).or (d.viewHigh off)).getD (d.nsCfgView off (d.held r off))

/-! ### Latches (R415) -/

/-- A master's number for its latches. -/
def masterNo : Master → Nat
  | .peer id => 0x1000 + id.val
  | m => writerCode m

def latchKey (m : Master) (off : Nat) : Nat := masterNo m * 2 ^ 26 + off

/-- The _HI registers that a read of a _LO register latches. -/
def latchPartners (off : Nat) : List Nat :=
  if off = 0x18 ∨ off = 0x10_0008 ∨ off = rBufLastLo then [off + 4]
  else if off = 0x20_0100 ∨ off = 0x20_0110 ∨ off = 0x20_0120 ∨ off = 0x20_0130 then [off + 4]
  else if 0xC0_0000 ≤ off ∧ off < 0xC0_0800 ∧ off % 0x40 = 0x28 then [off + 4]
  else if off = 0xD0_0094 then [0xD0_0098, 0xD0_009C]
  else []

/-- A read of a _LO register latches its partners for the master. -/
def State.latch (s : State) (m : Master) (off : Nat) : State :=
  (latchPartners off).foldl (fun s hi =>
    match regRow hi with
    | some r => s.onDev fun d => { d with top.latches := sput d.top.latches (latchKey m hi) (s.view r hi) }
    | none => s) s

/-! ### Reading one register -/

/-- Registers whose read takes something out of a FIFO. -/
def State.popPort (s : State) (off : Nat) : Option (State × W32) :=
  if off = rGpioCap then let (d, w) := s.dev.capPop; some ({ s with dev := d }, w)
  else if off = rFlashFifo then some s.flashPop
  else if 0x300 ≤ off ∧ off < 0x380 ∧ off % 0x20 = 0x08 then
    let (d, w) := s.dev.i2cPop (Fin.ofNat 4 ((off - 0x300) / 0x20)); some ({ s with dev := d }, w)
  else none

/-- TOP_Cn_STAT.IN_WINDOW while the fabric runs depends on the sheet's windows, which the cue body holds. -/
def State.coreStatRead (s : State) (off : Nat) (v : W32) : State × W32 :=
  if 0x10C ≤ off ∧ off < 0x14C ∧ off % 0x10 = 0x0C ∧ s.dev.fabric ∧ v.getLsbD 0 then
    (s.onDev Dev.drawn, showF v 1 1 (s.dev.fresh % 2))
  else (s, v)

/-- A read of a named register by a master: the latched value where one is held for it, else what the register shows;
then RC fields are cleared (R7) and partners latched. -/
def State.readNamed (s : State) (m : Master) (r : RegRow) (off : Nat) : State × W32 :=
  match s.popPort off with
  | some x => x
  | none =>
    match sfind s.dev.top.latches (latchKey m off) with
    | some v => (s.onDev fun d => { d with top.latches := sdel d.top.latches (latchKey m off) }, v)
    | none =>
      let s := s.latch m off
      let (s, v) := s.coreStatRead off (s.view r off)
      (s.onDev fun d => d.onlyIf (r.rc != 0) fun d => d.wr off (d.rd off &&& ~~~ BitVec.ofNat 32 r.rc), v)

/-! ### The windows (R366, R421, R422, R427) -/

/-- Word w of the header of a chain table's entry for an event (R422). -/
def hdrWord (t : List ChainHdr) (ev w : Nat) : W32 :=
  match t.find? fun c => c.event.val == ev with
  | none => 0
  | some c =>
    if w = 0 then BitVec.ofNat 32 (ev + c.prio % 16 * 2 ^ 8 + c.maxwait % 256 * 2 ^ 16 + 2 ^ 31)
    else if w = 1 then BitVec.ofNat 32 (c.length % 2 ^ 13)
    else if w = 2 then BitVec.ofNat 32 (c.engines % 2 ^ 12)
    else if 4 ≤ w ∧ w < 12 then (c.compat >>> (32 * (w - 4))).setWidth 32
    else 0

/-- Word at an offset of the call-board window. -/
def Dev.boardWord (d : Dev) (o : Nat) : W32 :=
  match d.flt.board.find? fun e => e.seq % 4096 == o / 64 with
  | some e => BitVec.ofNat 32 (leNat ((e.bytes.drop (o % 64)).take 4))
  | none => 0

/-- The windows other than the SRAM window: the word at an aligned offset, if it lies in one. -/
def State.windowRead (s : State) (off : Nat) : Option (State × W32) :=
  let d := s.dev
  if 0xE1_0000 ≤ off ∧ off < 0xE5_0000 then some (s, d.boardWord (off - 0xE1_0000))
  else if 0x100_1000 ≤ off ∧ off < 0x100_2000 then
    some (s, BitVec.ofNat 32 (leNat (d.cfgBuf (off - 0x100_1000) 4)))
  else if 0x100_2000 ≤ off ∧ off < 0x100_6000 then
    some (s, hdrWord d.image.main ((off - 0x100_2000) / 64) (off % 64 / 4))
  else if 0x100_6000 ≤ off ∧ off < 0x100_A000 then
    some (s, hdrWord d.image.gl ((off - 0x100_6000) / 64) (off % 64 / 4))
  else if 0x110_0000 ≤ off ∧ off < 0x120_0000 then
    let (d, v) := d.allocRead ((off - 0x110_0000) / 8) (off % 8 == 4)
    some ({ s with dev := d }, v)
  else none

/-- Offsets of the register range that are unmapped (R14). -/
def offUnmapped (off : Nat) : Bool :=
  (decide (0x120_0000 ≤ off) && decide (off < 0x200_0000)) || decide (0x280_0000 ≤ off)

/-- One aligned 4-byte read of the register range below the SRAM window (R415, R416). -/
def State.readWord (s : State) (m : Master) (off : Nat) : State × W32 :=
  match s.windowRead off with
  | some x => x
  | none =>
    match regRow off with
    | some r => s.readNamed m r off
    | none => (s, 0)

/-! ### Writing one register -/

/-- Registers whose whole write is a rule of their own: the write replaces the generic effect. Blocks TOP, CUE, FLT and
CFG. -/
def State.ownLow (s : State) (m : Master) (off : Nat) (v : W32) : Option State :=
  if off = rLifecycle then some (s.lifecycleWrite v)
  else if 0x300 ≤ off ∧ off < 0x380 then
    let h : Head := Fin.ofNat 4 ((off - 0x300) / 0x20)
    if off % 0x20 = 0 then some (s.onDev fun d => d.i2cCtlWrite h v)
    else if off % 0x20 = 0x08 then some (s.onDev fun d => d.i2cPush h v)
    else if off % 0x20 = 0x0C then some (s.onDev fun d => d.linesWrite h v)
    else none
  else if off = rCueFaultWhat then
    some (s.onDev fun d => d.onlyIf (v.getLsbD 16) fun d =>
      (d.wr rCueFaultWhat (regReset rCueFaultWhat)).wr rCueFaultPos (regReset rCueFaultPos))
  else if 0x10_0060 ≤ off ∧ off < 0x10_0090 then
    some (s.onDev fun d => d.onlyIf (v.getLsbD 31) fun d => d.slackClear (Fin.ofNat 12 ((off - 0x10_0060) / 4)))
  else if off = rFltPost then
    some (s.onDev fun d =>
      let d := d.onlyIf (v.getLsbD 16) fun d => d.setB rFltPost 16 false
      if v.getLsbD 16 ∧ fget v 0 16 = 0 then d else d.fltPost m (fget v 0 16))
  else if off = rFlashCmd then some (s.flashCmdWrite v)
  else if off = rFlashFifo then some (s.onDev fun d => d.flashPush v)
  else none

/-- The same for BUF, SC and DMA. -/
def State.ownMem (s : State) (off : Nat) (v : W32) : Option State :=
  if off = 0xA0_0020 then some (s.onDev fun d => d.retirePage (fget v 0 21))
  else if off = 0xA0_0024 then some (s.retireBank (Fin.ofNat 32 (fget v 0 5)))
  else if off = rScCtl then some (s.scCtlWrite v)
  else if off = rScMaint then some (s.maintWrite v)
  else if 0xC0_0000 ≤ off ∧ off < 0xC0_0800 then
    let ch : Chan := Fin.ofNat 32 ((off - 0xC0_0000) / 0x40)
    let o := off % 0x40
    let mask : W32 := if o = 0x04 ∨ o = 0x0C ∨ o = 0x20 then 0xFFFF else 0xFFFF_FFFF
    if o = 0x14 then some (s.onDev fun d => d.dmaCtlWrite ch v [])
    else if o ≤ 0x10 ∨ o = 0x1C ∨ o = 0x20 then some (s.onDev fun d => d.dmaRegWrite ch off (v &&& mask))
    else none
  else none

/-- A ring's base or size register while EN is 1: ignored, and DB_ERR is set (R253). -/
def Dev.ringBaseWrite (d : Dev) (r : RingId) (off mask : Nat) (v : W32) : Dev :=
  if d.ringOn r then d.setB (rRingStat r) 27 true else d.wr off (v &&& BitVec.ofNat 32 mask)

/-- An MSI-X vector's control word: a pending message goes out when its mask is cleared (R247, R252). -/
def Dev.msixMask (d : Dev) (k : Nat) (v : W32) : Dev :=
  let d := d.wr (rMsix k + 0x0C) (v &&& 1)
  if !v.getLsbD 0 ∧ d.flag (rMsixPend (k / 32)) (k % 32) then (d.setB (rMsixPend (k / 32)) (k % 32) false).msix k else d

/-- The same for HQ and ENS. -/
def State.ownLink (s : State) (off : Nat) (v : W32) : Option State :=
  if 0x90_0000 ≤ off ∧ off < 0x90_0400 then
    let r : RingId := Fin.ofNat 16 ((off - 0x90_0000) / 0x40)
    let o := off % 0x40
    if o = 0x10 then some (s.onDev fun d => d.ringCfgWrite r v)
    else if o = 0x00 ∨ o = 0x08 then some (s.onDev fun d => d.ringBaseWrite r off 0xFFFF_F000 v)
    else if o = 0x04 ∨ o = 0x0C then some (s.onDev fun d => d.ringBaseWrite r off 0xFFFF_FFFF v)
    else if o = 0x14 then some (s.onDev fun d => d.ringBaseWrite r off 0x1FFF_1FFF v)
    else none
  else if 0x91_0000 ≤ off ∧ off < 0x92_0000 ∧ off % 0x1000 < 8 then
    let r : RingId := Fin.ofNat 16 ((off - 0x91_0000) / 0x1000)
    some (s.onDev fun d => if off % 0x1000 = 0 then d.sqDoorbell r v else d.cqDoorbell r v)
  else if 0x9F_8000 ≤ off ∧ off < 0x9F_8400 ∧ off % 0x10 = 0x0C then
    some (s.onDev fun d => d.msixMask ((off - 0x9F_8000) / 0x10) v)
  else if off = rDirCtl then some (if v.getLsbD 0 then s.dirCommit else s)
  else if off = rMgrCtl then
    let s := s.onDev fun d => d.onlyIf (v.getLsbD 1) fun d => d.setB rMgrCtl 1 false
    some (if v.getLsbD 0 then s.take else s)
  else if off = rMdioCmd then some (s.onDev fun d => d.mdioCmd v)
  else if off = rPtpOfs then some (s.onDev fun d => (d.wr rPtpOfs v).ptpOfsWrite v)
  else none

/-- Draw n free numbers below 2^40. -/
def Dev.drawList : Nat → Dev → Dev × List Nat
  | 0, d => (d, [])
  | n + 1, d =>
    let (d, x) := d.draw (2 ^ 40)
    let (d, l) := Dev.drawList n d
    (d, x :: l)

/-- The sweeps of a calibration that a register write starts: free. -/
def Dev.drawSweeps : Nat → Dev → Dev × List (List Nat)
  | 0, d => (d, [])
  | n + 1, d =>
    let (d, x) := Dev.drawList 17 d
    let (d, l) := Dev.drawSweeps n d
    (d, x :: l)

/-- What a register write asks of the outside and does not carry is free: here a type read and a calibration's end (R181;
notes/assumptions/17.md). -/
def State.reinstateFree (s : State) (h : Head) : State :=
  let (d, t) := s.dev.draw 3
  let (d, a) := d.draw 256
  let (d, b) := d.draw 256
  let (d, ok) := d.draw 2
  let (d, step) := d.draw 4
  let (d, swept) := d.draw 2
  let (d, sweeps) := Dev.drawSweeps 5 d
  { s with dev := d }.reinstate h (if t = 0 then .notAcked else .value (BitVec.ofNat 8 a) (BitVec.ofNat 8 b))
    { ok := ok == 1, failStep := Fin.ofNat 4 step, sweeps := if swept = 1 then some sweeps else none }

/-- Strobes of AXS_Xn_CTL, in the order STOP, HALT, HOME, RELEASE, ENERGISE. -/
def Dev.axisCtl (d : Dev) (x : Axis) (v : W32) : Dev :=
  let d := d.onlyIf (v.getLsbD 0) fun d => d.hardStop x 1
  let d := d.onlyIf (v.getLsbD 1) fun d => d.axisHalt x
  let d := d.onlyIf (v.getLsbD 2) fun d => d.axisHome x
  let d := d.onlyIf (v.getLsbD 3) fun d => d.axisRelease x
  if v.getLsbD 4 then let (d, ok) := d.draw 2; d.axisEnergise x (ok == 1) else d

/-- The same for SRV, SPN, AXS, CAL and PWR. -/
def State.ownDrive (s : State) (m : Master) (off : Nat) (v : W32) : Option State :=
  if 0x50_0000 ≤ off ∧ off < 0x54_0000 ∧ off % 0x1_0000 = 0x824 then
    some (if v.getLsbD 0 then s.reinstateFree (Fin.ofNat 4 ((off - 0x50_0000) / 0x1_0000)) else s)
  else if off = rSpnCtl then
    some (s.onDev fun d => (d.setF rSpnCtl 1 1 (fget v 1 1)).onlyIf (v.getLsbD 0) Dev.clearLockout)
  else if off = rAuxCtl 0 then some (s.onDev fun d => d.auxCtlWrite 0 v)
  else if off = rAuxCtl 1 then some (s.onDev fun d => d.auxCtlWrite 1 v)
  else if off = rAuxTarget 0 then some (s.onDev fun d => d.auxTargetWrite v)
  else if 0x70_0000 ≤ off ∧ off < 0x70_0800 then
    let x : Axis := Fin.ofNat 8 ((off - 0x70_0000) / 0x100)
    let o := off % 0x100
    if o = 0 then some (s.onDev fun d => d.axisCtl x v)
    else if o = 0x10 then some (s.onDev fun d => d.absoluteMove m x v)
    else if o = 0x14 then some (s.onDev fun d => d.relativeMove m x v)
    else none
  else if off = rCalCtl then
    let s := s.onDev fun d => d.wr rCalCtl (fset (d.rd rCalCtl) 0 1 (fget v 0 1) &&& ~~~ (v &&& 0x10))
    some (if v.getLsbD 1 then s.calFull else s)
  else if off = rPwrCtl then
    some (s.onDev fun d => (d.setF rPwrCtl 1 1 (fget v 1 1)).onlyIf (v.getLsbD 0) Dev.warm)
  else none

/-- A write by the register's class (R10-R12): RW fields take the value, W1C fields clear; a staged register's RW fields
go to its shadow. -/
def Dev.writeByClass (d : Dev) (m : Master) (r : RegRow) (off : Nat) (v : W32) : Dev :=
  let rw := BitVec.ofNat 32 r.rw
  let d := d.onlyIf (r.w1c != 0) fun d => d.wr off (d.rd off &&& ~~~ (v &&& BitVec.ofNat 32 r.w1c))
  match r.cls with
  | .live => d.onlyIf (r.rw != 0) fun d => d.wr off ((d.rd off &&& ~~~ rw) ||| (v &&& rw))
  | .staged => d.onlyIf (r.rw != 0) fun d => d.stageBy (writerCode m) off (v &&& rw)
  | .cueOwned => d.ownedWrite m off v

/-- A write whose byte enables cover the register. TOP_MODE and CUE_EVENT_INJECT act after their W1C fields. -/
def State.writeNamed (s : State) (m : Master) (r : RegRow) (off : Nat) (v : W32) : State :=
  match (((s.ownLow m off v).or (s.ownMem off v)).or (s.ownLink off v)).or (s.ownDrive m off v) with
  | some s => s
  | none =>
    s.onDev fun d =>
      let d := d.writeByClass m r off v
      if off = rTopMode then d.modeRequest (fget v 4 2)
      else if off = rCueInject then d.onlyIf (v.getLsbD 8) fun d => d.inject (fget v 0 8)
      else d

/-- A narrow write of a register: discarded, with an entry (R415). -/
def Dev.narrowWrite (d : Dev) (m : Master) (off be : Nat) : Dev := d.post 0x0161 0x18 off be (writerCode m) 0

/-- One aligned 4-byte write of the register range below the SRAM window, with its byte enables. -/
def State.writeWord (s : State) (m : Master) (off : Nat) (be : BitVec 4) (v : W32) : State :=
  if 0x100_1000 ≤ off ∧ off < 0x100_2000 then
    s.onDev fun d => ((List.range 4).zip (leBytes 4 v.toNat)).foldl (fun (d : Dev) b =>
      if be.getLsbD b.1 then d.cfgBufPut (off - 0x100_1000 + b.1) [b.2] else d) d
  else if (0xE1_0000 ≤ off ∧ off < 0xE5_0000) ∨ (0x100_2000 ≤ off ∧ off < 0x100_A000) ∨ 0x110_0000 ≤ off then s
  else match regRow off with
    | none => s
    | some r => if be = 0xF then s.writeNamed m r off v else s.onDev fun d => d.narrowWrite m off be.toNat

end Sys2Proof.Machine
end

