-- ==== Sys2Proof/Machine/Bus.lean ====
section
/-! DEFINITION. The internal address map as a bus: where an address leads, and reads and writes made whole of registers,
windows, scratch SRAM and the DRAM aliases (R13-R20, R415). -/

namespace Sys2Proof.Machine

/-- Where an internal address leads (R13). -/
inductive Dest where
  | regs (off : Nat)
  /-- Scratch SRAM or a DRAM alias. -/
  | mem (addr : Nat)
  | remote (dev off : Nat)
  | host (addr : Nat)
  | unmapped
  deriving DecidableEq, Repr

/-- Where an address of this device leads. -/
def localDest (addr : Nat) : Dest :=
  if addr < 0x400_0000 then
    if 0x200_0000 ≤ addr ∧ addr < 0x280_0000 then .mem addr
    else if offUnmapped addr then .unmapped
    else .regs addr
  else if 0x800_0000 ≤ addr ∧ addr < 0x880_0000 then .mem addr
  else if 0x20_0000_0000 ≤ addr ∧ addr < 0x60_0000_0000 then .mem addr
  else .unmapped

/-- Where an address leads: the directory decides for remote devices (R16), Bus Master Enable for host memory (R17). -/
def State.route (s : State) (addr : Nat) : State × Dest :=
  if 2 ^ 48 ≤ addr then (s, .unmapped)
  else if inHost addr then (s, if s.dev.pcie.busMaster then .host (addr - 2 ^ 47) else .unmapped)
  else if inRemote addr then
    let (dev, off) := remoteOf addr
    if dev = s.dev.deviceId then
      (s, match windowAddr (s.dev.fld rRwin 0 2) off with
        | some a => localDest a
        | none => .unmapped)
    else
      let (s, ok) := s.reachable dev
      (s, if ok && (windowAddr 0 off).isSome then .remote dev off else .unmapped)
  else (s, localDest addr)

/-! ### The register range, word by word -/

/-- Read bytes of the register range from `off` on, one aligned word at a time in ascending order. -/
def State.regsRead (m : Master) : Nat → State → Nat → Nat → State × Except Nat (List Byte)
  | 0, s, _, _ => (s, .ok [])
  | fuel + 1, s, off, len =>
    if len = 0 then (s, .ok [])
    else
      let n := min len (4 - off % 4)
      let part : State × Except Nat (List Byte) :=
        match localDest off with
        | .regs o =>
          let (s, v) := s.readWord m (o / 4 * 4)
          (s, .ok (((leBytes 4 v.toNat).drop (o % 4)).take n))
        | .mem a => s.readInternal m a n
        | _ => (s, .error 3)
      match part with
      | (s, .ok bs) =>
        let (s, r) := State.regsRead m fuel s (off + n) (len - n)
        (s, r.map (bs ++ ·))
      | e => e

/-- Byte enables and word of a piece of a write. -/
def wordPiece (o : Nat) (bs : List Byte) : BitVec 4 × W32 :=
  (BitVec.ofNat 4 ((2 ^ bs.length - 1) * 2 ^ o), BitVec.ofNat 32 (leNat bs * 2 ^ (8 * o)))

/-- Write bytes to the register range. -/
def State.regsWrite (m : Master) : Nat → State → Nat → List Byte → State × Except Nat Unit
  | 0, s, _, _ => (s, .ok ())
  | fuel + 1, s, off, bs =>
    if bs.isEmpty then (s, .ok ())
    else
      let now := bs.take (4 - off % 4)
      let part : State × Except Nat Unit :=
        match localDest off with
        | .regs o =>
          let p := wordPiece (o % 4) now
          (s.writeWord m (o / 4 * 4) p.1 p.2, .ok ())
        | .mem a => s.writeInternal m a now
        | _ => (s, .error 3)
      match part with
      | (s, .ok ()) => State.regsWrite m fuel s (off + now.length) (bs.drop (4 - off % 4))
      | e => e

/-- Read bytes at a place of this device, whole; an error code otherwise: 3 unmapped, 4 uncorrectable. -/
def State.destRead (s : State) (m : Master) (t : Dest) (len : Nat) : State × Except Nat (List Byte) :=
  match t with
  | .regs off => State.regsRead m (len / 4 + 2) s off len
  | .mem a => s.readInternal m a len
  | _ => (s, .error 3)

/-- Write bytes at a place of this device. -/
def State.destWrite (s : State) (m : Master) (t : Dest) (bs : List Byte) : State × Except Nat Unit :=
  match t with
  | .regs off => State.regsWrite m (bs.length / 4 + 2) s off bs
  | .mem a => s.writeInternal m a bs
  | _ => (s, .error 3)

end Sys2Proof.Machine
end

