-- ==== Sys2Proof/Machine/DmaMove.lean ====
section
/-! DEFINITION. What the DMA engine moves: elements in ascending order, SWAP, budgets and their round robin, link images,
paced bursts and responses (R308-R319). -/

namespace Sys2Proof.Machine

/-- An element after SWAP (R310). -/
def swapElem (sw : Nat) (bs : List Byte) : List Byte :=
  if sw = 1 then bs.reverse
  else if sw = 2 then ((chunks 2 4 bs).reverse).flatten
  else bs

/-- An access of a channel meets an error: its answer under R20 or R289, and the stop (R314, R318). -/
def Dev.dmaFault (d : Dev) (ch : Chan) (code addr : Nat) (write : Bool) : Dev :=
  let d := d.onlyIf (code == 3) fun d => d.post 0x0100 0x17 addr (writerCode (.dma ch)) (b2n write) 0
  (d.emit (.dmaError ch code)).dmaStopAt ch code addr

/-- The budget a channel's bytes are charged to. -/
def Dev.chanBudget (d : Dev) (ch : Chan) : Fin 7 := dmaBudget d.dma[ch].src (some d.dma[ch].dst)

/-- The source of a channel lies outside this device. -/
def Dev.farSource (d : Dev) (ch : Chan) : Bool :=
  let a := d.dma[ch].src
  inHost a || (inRemote a && (remoteOf a).1 != d.deviceId)

/-- Elements of the next 64-byte unit (R311): at most what is left, and what is left of a paced burst. -/
def Dev.unitElems (d : Dev) (ch : Chan) : Nat :=
  let c := d.dma[ch]
  let n := min c.left (64 / d.esize ch)
  if d.dmaReq ch = 0 then n else min n c.burst

/-- The channel can go on now. -/
def Dev.dmaReady (d : Dev) (ch : Chan) : Bool :=
  let c := d.dma[ch]
  d.dmaBusy ch && !c.linking && c.failing.isNone && !d.flag (rDmaStat ch) 8 && decide (0 < d.unitElems ch) &&
    !(d.farSource ch && decide (0 < c.asked) && decide (c.far.length < d.esize ch))

/-- The next channel to serve: for each byte budget in turn, the first that can go on after the one served last. -/
def Dev.nextChan (d : Dev) : Option Chan :=
  ([2, 3, 4, 5] : List (Fin 7)).findSome? fun k =>
    ((List.range 32).map fun i => (Fin.ofNat 32 (d.dmaTurn[k].val + 1 + i) : Chan)).find? fun ch =>
      d.dmaReady ch && d.chanBudget ch == k

/-- An element has been written, or its write issued. -/
def Dev.elemIssued (d : Dev) (ch : Chan) : Dev :=
  let es := d.esize ch
  let d := d.onDma ch fun c =>
    { c with left := c.left - 1, burst := c.burst - 1, inFlight := c.inFlight + es,
             src := if d.flag (rDmaCtl ch) 6 then c.src + es else c.src,
             dst := if d.flag (rDmaCtl ch) 7 then c.dst + es else c.dst }
  d.onlyIf (d.dma[ch].left == 0) fun d => d.zeroRead ch

/-- Write one element to the channel's destination. -/
def State.elemWrite (s : State) (ch : Chan) (bs : List Byte) : State :=
  let addr := s.dev.dma[ch].dst
  let (s, t) := s.route addr
  match t with
  | .host a => s.onDev fun d => (d.emit (.hostWrite a bs)).elemIssued ch
  | .remote dev off => s.onDev fun d => (d.issueRemote (.dma ch) dev off bs.length (some bs)).elemIssued ch
  | .unmapped => s.onDev fun d => d.dmaFault ch 3 addr true
  | t =>
    match s.destWrite (.dma ch) t bs with
    | (s, .ok ()) => s.onDev fun d => d.elemIssued ch
    | (s, .error e) => s.onDev fun d => d.dmaFault ch e addr true

/-- One element of a source on this device: charged, read, rearranged and written. -/
def State.elemLocal (s : State) (ch : Chan) : State :=
  let es := s.dev.esize ch
  let addr := s.dev.dma[ch].src
  let (s, t) := s.route addr
  match s.destRead (.dma ch) t es with
  | (s, .ok bs) =>
    (s.onDev fun d => d.charge (d.chanBudget ch) es).elemWrite ch (swapElem (s.dev.fld (rDmaCtl ch) 4 2) bs)
  | (s, .error e) => s.onDev fun d => d.dmaFault ch e addr false

/-- One element of those that have arrived from outside. -/
def State.elemFar (s : State) (ch : Chan) : State :=
  let es := s.dev.esize ch
  let c := s.dev.dma[ch]
  if c.far.length < es then s
  else
    (s.onDev fun d => d.onDma ch fun c => { c with far := c.far.drop es, asked := c.asked - es }).elemWrite ch
      (swapElem (s.dev.fld (rDmaCtl ch) 4 2) (c.far.take es))

/-- Up to n elements, as long as nothing stops the channel. -/
def State.elems (ch : Chan) : Nat → State → State
  | 0, s => s
  | n + 1, s =>
    if !s.dev.dmaBusy ch || s.dev.dma[ch].failing.isSome then s
    else State.elems ch n (if s.dev.farSource ch then s.elemFar ch else s.elemLocal ch)

/-- Ask the host or a remote device for k elements; they are charged as they are asked for (R311). -/
def State.askFar (s : State) (ch : Chan) (k : Nat) : State :=
  let es := s.dev.esize ch
  let addr := s.dev.dma[ch].src
  let (s, t) := s.route addr
  let reqs : List (Nat × Nat) :=
    if s.dev.flag (rDmaCtl ch) 6 then [(addr, k * es)] else List.replicate k (addr, es)
  let asked (s : State) : State :=
    s.onDev fun d => (d.charge (d.chanBudget ch) (k * es)).onDma ch fun c => { c with asked := c.asked + k * es }
  match t with
  | .host _ => (asked s).onDev fun d => d.emits (reqs.map fun q => .hostRead (q.1 - 2 ^ 47) q.2)
  | .remote dev _ => (asked s).onDev fun d => d.each reqs fun d q => d.issueRemote (.dma ch) dev (q.1 % 2 ^ 36) q.2 none
  | _ => s.onDev fun d => d.dmaFault ch 3 addr false

/-- One 64-byte unit of a channel, or as much of it as its budget allows; a budget without room for an element makes the
channel wait (R311). -/
def State.dmaUnit (s : State) (ch : Chan) : State :=
  let d := s.dev
  let k := d.chanBudget ch
  let far := d.farSource ch
  let fits := min (d.unitElems ch) (d.budgetLeft k / d.esize ch)
  let s := s.onDev fun d => { d with dmaTurn := d.dmaTurn.set k ch }
  if far && decide (0 < d.dma[ch].asked) then s.elems ch (d.dma[ch].far.length / d.esize ch)
  else if fits = 0 then s.onDev fun d => (d.hitBudget k).setB (rDmaStat ch) 8 true
  else if far then (s.askFar ch fits).elems ch fits
  else s.elems ch fits

/-- Serve channels until none can go on. -/
def State.dmaLoop : Nat → State → State
  | 0, s => s
  | fuel + 1, s =>
    match s.dev.nextChan with
    | some ch => State.dmaLoop fuel (s.dmaUnit ch)
    | none => s

/-- Send the request of a link fetch that has not been sent: to host memory, to a remote device, or to this device, which
answers with LINK_FETCH_DONE alike; an unmapped link address stops the channel (R316, R317). -/
def State.sendLink (s : State) (ch : Chan) : State :=
  let c := s.dev.dma[ch]
  if !s.dev.dmaBusy ch || !c.linking || decide (0 < c.asked) then s
  else
    let addr := s.dev.dmaLink ch
    let (s, t) := s.route addr
    let s := s.onDev fun d => d.onDma ch fun c => { c with asked := 32, linkAt := d.beats }
    match t with
    | .host a => s.onDev fun d => d.emit (.hostRead a 32)
    | .remote dev off => s.onDev fun d => d.issueRemote (.dma ch) dev off 32 none
    | .unmapped => s.onDev fun d => d.dmaFault ch 3 addr false
    | _ => s

/-- The DMA engine runs: channels whose error has nothing left to wait for end, every channel that can go on moves its
data, and link fetches are sent. -/
def State.runDma (s : State) : State :=
  let s := s.onDev fun d => d.each allChans fun d ch =>
    match d.dma[ch].failing with
    | some e => if d.dmaBusy ch && d.dma[ch].inFlight == 0 then d.dmaEnd ch e else d
    | none => d
  let s := State.dmaLoop (2 ^ 30) s
  allChans.foldl State.sendLink s

/-- What every command that may have written registers ends with: the DMA engine and the flash controller go on. -/
def State.goOn (s : State) : State := s.runDma.startFlash

/-- DMA_CHn_CTL.START. -/
def execDmaStart (_m : Master) (ch : Chan) (v : W32) (far : List Byte) (s : State) : Host.Outcome State Fault Refusal :=
  .next (s.onDev fun d => d.dmaCtlWrite ch (v ||| 1) far).goOn

/-- Bytes that a far source has delivered reach the channel. -/
def Dev.farArrives (d : Dev) (ch : Chan) (bs : List Byte) : Dev :=
  d.onlyIf (d.dmaBusy ch && !d.dma[ch].linking) fun d => d.onDma ch fun c => { c with far := c.far ++ bs }

/-- DMA_RESPONSE: write responses for `bytes` bytes return, with data of a host read where the answer carries some; or an
error. -/
def Dev.dmaResponse (d : Dev) (ch : Chan) (bytes : Nat) (res : FarReply) : Dev :=
  if !d.dmaBusy ch then d
  else match res with
    | .data bs =>
      let d := d.farArrives ch bs
      if bytes = 0 then d else d.dmaAnswer ch bytes none
    | r =>
      let code := (farCode r).getD 3
      if 0 < bytes then d.dmaAnswer ch bytes (some code)
      else if 0 < d.dma[ch].asked ∧ !d.dma[ch].linking then d.dmaStopAt ch code d.dma[ch].src
      else d

def execDmaResponse (ch : Chan) (bytes : Nat) (res : FarReply) (s : State) : Host.Outcome State Fault Refusal :=
  .next (s.onDev fun d => d.dmaResponse ch bytes res).goOn

/-- A link image is applied to the channel's registers, and its segment starts under the checks of R308. -/
def Dev.applyLink (d : Dev) (ch : Chan) (img far : List Byte) : Dev :=
  let f (o n : Nat) : W32 := BitVec.ofNat 32 (leNat ((img.drop o).take n))
  let a := rDma ch
  let d := [(0x00, 0, 4), (0x04, 4, 2), (0x08, 8, 4), (0x0C, 12, 2), (0x10, 16, 4), (0x1C, 24, 4), (0x20, 28, 2)].foldl
    (fun (d : Dev) (e : Nat × Nat × Nat) => d.wr (a + e.1) (f e.2.1 e.2.2)) d
  let d := (d.wr (rDmaCtl ch) (f 20 4 &&& 0xFF_FFFC)).bump (rDmaHops ch) 16 16
  let far := if inHost (d.dmaSrc ch) then far else []
  ((d.onDma ch fun c => { c with linking := false, asked := 0, far }).setB (rDmaStat ch) 11 false).dmaSegment ch

/-- LINK_FETCH_DONE. -/
def State.linkDone (s : State) (ch : Chan) (image : FarReply) (far : List Byte) : State :=
  if !s.dev.dmaBusy ch || !s.dev.dma[ch].linking then s
  else
    let addr := s.dev.dmaLink ch
    let (s, t) := s.route addr
    let outside : Bool := match t with | .host _ | .remote _ _ => true | _ => false
    if outside then
      match image with
      | .data bs => s.onDev fun d => d.applyLink ch bs far
      | r => s.onDev fun d => d.dmaStopAt ch ((farCode r).getD 3) addr
    else match s.destRead (.dma ch) t 32 with
      | (s, .ok bs) => s.onDev fun d => d.applyLink ch bs far
      | (s, .error e) => s.onDev fun d => d.dmaFault ch e addr false

def execLinkFetchDone (ch : Chan) (image : FarReply) (far : List Byte) (s : State) : Host.Outcome State Fault Refusal :=
  .next (s.linkDone ch image far).goOn

/-! ### Paced transfers (R315) -/

/-- BURST; 0 means 256. -/
def Dev.burstOf (d : Dev) (ch : Chan) : Nat := if d.fld (rDmaCtl ch) 13 8 = 0 then 256 else d.fld (rDmaCtl ch) 13 8

/-- The request line of a paced channel is asserted. -/
def Dev.lineAsserted (d : Dev) (ch : Chan) : Bool :=
  let n := d.burstOf ch
  let q := d.dmaReq ch
  if q = 1 then decide (n ≤ d.cfg.rx.length)
  else if q = 2 then decide (d.cfg.tx.length + n ≤ 256)
  else if 3 ≤ q ∧ q ≤ 6 then
    let h : Head := Fin.ofNat 4 (q - 3)
    if d.flag (rI2cCtl h) 1 then decide (n ≤ d.top.i2c[h].rx.length) else decide (d.top.i2c[h].tx.length + n ≤ 256)
  else if q = 8 then decide (n ≤ d.top.cap.length)
  else q == 7 && d.spn.adcPass

/-- PACED_BURST: a waiting channel samples its line asserted and moves BURST elements. -/
def Dev.pacedBurst (d : Dev) (ch : Chan) (far : List Byte) : Dev :=
  if d.pacedWait ch && d.dma[ch].failing.isNone && d.lineAsserted ch then
    (d.onDma ch fun c => { c with burst := min (d.burstOf ch) c.left }).farArrives ch far
  else d

def execPacedBurst (ch : Chan) (far : List Byte) (s : State) : Host.Outcome State Fault Refusal :=
  .next (s.onDev fun d => d.pacedBurst ch far).goOn

/-! ### At the act boundary (R37, R311) -/

/-- Channels that wait for a budget go on. -/
def Dev.dmaRenew (d : Dev) : Dev :=
  d.each allChans fun d ch =>
    if !d.flag (rDmaStat ch) 8 then d
    else
      let d := d.setB (rDmaStat ch) 8 false
      d.onlyIf (d.dmaAtEnd ch && d.dma[ch].failing.isNone) fun d => d.linkFetch ch

end Sys2Proof.Machine
end

