-- ==== Sys2Proof/Machine/Access.lean ====
section
/-! DEFINITION. The accesses of masters: MASTER_ACCESS, the register rows, and remote accesses in both directions (R7, R10,
R13-R22, R325, R415). -/

namespace Sys2Proof.Machine

/-! ### Answers -/

/-- A read is answered with its bytes. -/
def State.answerRead (m : Master) (r : State × Except Nat (List Byte)) (addr : Nat) : State :=
  match r with
  | (s, .ok bs) => s.onDev fun d => d.emit (.data m bs)
  | (s, .error 4) => s.onDev fun d => d.uncorrectable m
  | (s, .error _) => s.onDev fun d => d.unmapped m addr false

/-- A write that met an unmapped address is answered under R20. -/
def State.answerWrite (m : Master) (r : State × Except Nat Unit) (addr : Nat) : State :=
  match r with
  | (s, .ok _) => s
  | (s, .error _) => s.onDev fun d => d.unmapped m addr true

/-- Host memory answers a read with bytes, or with an error, which counts as an access that failed (R17, R318). -/
def Dev.hostAnswer (d : Dev) (m : Master) (a len : Nat) (far : FarReply) : Dev :=
  let d := d.emit (.hostRead a len)
  match far with
  | .data bs => d.emit (.data m (bs.take len))
  | _ => d.remoteFailed { tag := 0, m, dev := 0, write := false, off := a, len } 3

/-- An access of a DRAM alias: carried line by line, waiting where its bank fills a line (R19, R300). -/
def State.aliasAccess (s : State) (m : Master) (a : Nat) (fetch : Bool) (len : Nat) (bs : List Byte) : State :=
  let cached := decide (a < 0x40_0000_0000)
  let w : WaitAcc := { m, cached, fetch, off := a - aliasBase cached, readLeft := len, toWrite := bs, got := [] }
  s.runAcc w.fuel w

/-- A read or an instruction fetch. -/
def State.masterRead (s : State) (m : Master) (addr len : Nat) (fetch : Bool) (far : FarReply) : State :=
  let (s, t) := s.route addr
  match t with
  | .unmapped => s.onDev fun d => d.unmapped m addr false
  | .host a => s.onDev fun d => d.hostAnswer m a len far
  | .remote dev off => s.onDev fun d => d.issueRemote m dev off len none
  | .mem a =>
    if 0x20_0000_0000 ≤ a then s.aliasAccess m a fetch len [] else State.answerRead m (s.readInternal m a len) addr
  | .regs off => State.answerRead m (s.destRead m (.regs off) len) addr

/-- A write. -/
def State.masterWrite (s : State) (m : Master) (addr : Nat) (bs : List Byte) : State :=
  let (s, t) := s.route addr
  match t with
  | .unmapped => s.onDev fun d => d.unmapped m addr true
  | .host a => s.onDev fun d => d.emit (.hostWrite a bs)
  | .remote dev off => s.onDev fun d => d.issueRemote m dev off bs.length (some bs)
  | .mem a =>
    if 0x20_0000_0000 ≤ a then s.aliasAccess m a false 0 bs else State.answerWrite m (s.writeInternal m a bs) addr
  | .regs off => State.answerWrite m (s.destWrite m (.regs off) bs) addr

/-- Internal addresses that the host's BARs map onto: base and size of BAR0, the register range, and of BAR2, the uncached
alias (R18). Offset n of a BAR reaches its base + n. -/
def bars : List (Nat × Nat) := [(0, 0x400_0000), (0x40_0000_0000, 0x20_0000_0000)]

/-- A master can put out an access of this internal address: the host only through a BAR, whole. -/
def presents (m : Master) (addr len : Nat) : Bool :=
  m != .host || bars.any fun b => decide (b.1 ≤ addr) && decide (addr + len ≤ b.1 + b.2)

/-- Bytes that an access covers. -/
def opLen : AccessOp → Nat
  | .read len | .fetch len => len
  | .write bs => bs.length

/-- MASTER_ACCESS. An address outside the BARs is none of the host's requests to this function. -/
def execMasterAccess (m : Master) (addr : Addr) (op : AccessOp) (env : AccessEnv) (s : State) :
    Host.Outcome State Fault Refusal :=
  if !presents m addr.toNat (opLen op) then .next s else
  let s := s.onMem fun mm => mm.upset env.upsets
  .next (match op with
    | .read len => s.masterRead m addr.toNat len false env.far
    | .fetch len => s.masterRead m addr.toNat len true env.far
    | .write bs => s.masterWrite m addr.toNat bs).goOn

/-! ### The register rows -/

/-- Bytes of a word whose enables are set, with the first one's place: what a window takes of a narrow write. -/
def enabled (be : BitVec 4) (v : W32) : List (Nat × Byte) :=
  ((List.range 4).zip (leBytes 4 v.toNat)).filter fun b => be.getLsbD b.1

/-- One aligned write of the register range with byte enables. -/
def State.regWrite (s : State) (m : Master) (off : Nat) (be : BitVec 4) (v : W32) : State :=
  match localDest off with
  | .regs o => s.writeWord m o be v
  | .mem a =>
    if be = 0xF then (s.writeInternal m a (leBytes 4 v.toNat)).1
    else (enabled be v).foldl (fun s b => (s.writeInternal m (a + b.1) [b.2]).1) s
  | _ => s.onDev fun d => d.unmapped m off true

/-- One aligned read of the register range, answered with the whole word. -/
def State.regRead (s : State) (m : Master) (off : Nat) : State :=
  State.answerRead m (match localDest off with
    | .regs o => s.destRead m (.regs o) 4
    | .mem a => s.readInternal m a 4
    | _ => (s, .error 3)) off

/-- The place of a master in the order in which writes of one cycle are applied: JTAG, host, C0 to C3, DMA channels, peers by
device ID (R21). The format engine and the admitter write no register through the fabric. -/
def fabricRank : Master → Nat
  | .jtag => 0
  | .host => 1
  | .core c => 2 + c.val
  | .dma ch => 6 + ch.val
  | .peer id => 38 + id.val
  | .admitter | .format => 2000

/-- Writes of one cycle in the order of R21; those of one master stay as they stand. -/
def inFabricOrder (ws : List RegWrite) : List RegWrite :=
  ws.foldl (fun l w => l.takeWhile (fun x => decide (fabricRank x.m ≤ fabricRank w.m)) ++
    w :: l.dropWhile (fun x => decide (fabricRank x.m ≤ fabricRank w.m))) []

/-- REGISTER_WRITE, with the writes that arrive in the same cycle. -/
def execRegisterWrite (m : Master) (off : Off) (be : BitVec 4) (v : W32) (beside : List RegWrite) (s : State) :
    Host.Outcome State Fault Refusal :=
  .next ((inFabricOrder (⟨m, off, be, v⟩ :: beside)).foldl
    (fun s w => s.regWrite w.m (w.off.toNat / 4 * 4) w.be w.v) s).goOn

/-- READ_CLEAR. -/
def execReadClear (m : Master) (off : Off) (s : State) : Host.Outcome State Fault Refusal :=
  .next (s.regRead m (off.toNat / 4 * 4)).startFlash

/-- HI_LATCH_READ. -/
def execHiLatchRead (m : Master) (off : Off) (s : State) : Host.Outcome State Fault Refusal :=
  .next (s.regRead m (off.toNat / 4 * 4)).startFlash

/-! ### Remote accesses (R15, R20, R325) -/

/-- A request's offset and length break R325: a multiple of 4, 4 to 8,224 bytes, and 4 bytes for a register. -/
def malformed (off len : Nat) : Bool :=
  off % 4 != 0 || len % 4 != 0 || len == 0 || decide (8224 < len) ||
    (len != 4 && (decide (off < 0x200_0000) || (decide (0x280_0000 ≤ off) && decide (off < 0x400_0000))))

/-- Where a peer's window offset leads on this device. -/
def windowDest (quarter off : Nat) : Dest :=
  match windowAddr quarter off with
  | some a => localDest a
  | none => .unmapped

/-- The answer to a request that was refused here: the entry of R20 for an unmapped address, and a NAK. -/
def Dev.nakPeer (d : Dev) (peer : DevId) (tag quarter off code : Nat) (write : Bool) : Dev :=
  let addr := (windowAddr quarter off).getD off
  let d := d.onlyIf (code == 3) fun d => d.unmapped (.peer peer) addr write
  d.sendFrame peer.val (.nak tag (if code = 3 then 1 else 2))

/-- A remote read is served. -/
def State.serveRead (s : State) (peer : DevId) (tag quarter off len : Nat) : State :=
  if malformed off len then s.onDev fun d => d.sendFrame peer.val (.nak tag 3)
  else
    match s.destRead (.peer peer) (windowDest quarter off) len with
    | (s, .ok bs) => s.onDev fun d => d.sendFrame peer.val (.readResp tag bs)
    | (s, .error e) => s.onDev fun d => d.nakPeer peer tag quarter off e false

/-- A remote write is applied. -/
def State.serveWrite (s : State) (peer : DevId) (tag quarter off : Nat) (bs : List Byte) : State :=
  if malformed off bs.length then s.onDev fun d => d.sendFrame peer.val (.nak tag 3)
  else
    match s.destWrite (.peer peer) (windowDest quarter off) bs with
    | (s, .ok ()) => s.onDev fun d => d.sendFrame peer.val (.writeResp tag)
    | (s, .error e) => s.onDev fun d => d.nakPeer peer tag quarter off e true

/-- A sequenced frame arrives: its payload is acted on only when it is the next one (R326). -/
def State.onFrame (s : State) (f : FrameHdr) (act : State → State) : State :=
  let (d, ok) := s.dev.frameIn f
  let s := { s with dev := d }
  (if ok then act s else s).dirSettle

/-- READ_REQ. -/
def execReadReq (f : FrameHdr) (tag : BitVec 16) (offset : BitVec 36) (len : Nat) (quarter : Fin 4)
    (upsets : List (Nat × Byte)) (s : State) : Host.Outcome State Fault Refusal :=
  .next ((s.onMem fun m => m.upset upsets).onFrame f fun s => s.serveRead f.src tag.toNat quarter.val offset.toNat len).goOn

/-- WRITE_REQ. -/
def execWriteReq (f : FrameHdr) (tag : BitVec 16) (offset : BitVec 36) (data : List Byte) (quarter : Fin 4) (s : State) :
    Host.Outcome State Fault Refusal :=
  .next (s.onFrame f fun s => s.serveWrite f.src tag.toNat quarter.val offset.toNat data).goOn

/-- A remote read's data reaches the master that asked. -/
def Dev.remoteData (d : Dev) (o : RemoteOp) (data : List Byte) : Dev :=
  let bs := (data.drop (o.off % 4)).take o.len
  match o.m with
  | .dma ch => d.farArrives ch bs
  | m => d.emit (.data m bs)

/-- READ_RESP. -/
def execReadResp (f : FrameHdr) (tag : BitVec 16) (data : List Byte) (s : State) : Host.Outcome State Fault Refusal :=
  .next (s.onFrame f fun s => s.onDev fun d =>
    match d.takeRemote f.src.val tag.toNat false with
    | some (d, o) => d.remoteData o data
    | none => d).goOn

/-- WRITE_RESP. -/
def execWriteResp (f : FrameHdr) (tag : BitVec 16) (s : State) : Host.Outcome State Fault Refusal :=
  .next (s.onFrame f fun s => s.onDev fun d =>
    match d.takeRemote f.src.val tag.toNat true with
    | some (d, o) => match o.m with
      | .dma ch => d.dmaAnswer ch o.len none
      | _ => d
    | none => d).goOn

end Sys2Proof.Machine
end

