-- ==== Sys2Proof/Machine/Act.lean ====
section
/-! DEFINITION. The act boundary: staged shadows are applied under their declared ranges and sets, budgets renew, and the
decisions made once per act run (R37, R41, R63, R64, R97, R127, R133, R160, R162, R163, R168, R181, R192-R196, R237,
R311, R356, R376, R377). -/

namespace Sys2Proof.Machine

/-! ### What may be applied (R64) -/

/-- A register's value lies in every range that the image declares for it. -/
def Dev.inRanges (d : Dev) (off : Nat) (v : W32) : Bool :=
  d.image.ranges.all fun r => r.1 != off || (decide (r.2.1 ≤ v.toNat) && decide (v.toNat ≤ r.2.2))

/-- Values that a chapter itself keeps from being applied: two logical lanes on one physical lane (R97), a loop opened
outside REHEARSAL (R182), a head half a turn from its partner at any other angle (R448), a sled's standstill mode other than HOLD (R228), a calibration mode outside the class's range
(R239), an owner or a role 3 (R321, R354), a WUNIT, ALIGN_MS, HANDOVER or START_ACCEL of 0 (R192, R193). -/
def Dev.hwAllows (d : Dev) (off : Nat) (v : W32) : Bool :=
  if 0x30_0000 ≤ off ∧ off < 0x38_0000 ∧ off % 0x2_0000 = 0x8000 then
    ((List.range 4).map fun k => fget v (2 * k) 2).dedup.length == 4
  else if 0x50_0000 ≤ off ∧ off < 0x54_0000 ∧ off % 0x1_0000 < 0x600 ∧ off % 0x100 = 0 then
    v.getLsbD 0 || d.rehearsal
  else if off = rAngle 1 ∨ off = rAngle 3 then fget v 0 16 == (d.fld (off - 0x1_0000) 0 16 + 0x8000) % 65536
  else if off = rDemandCfg then fget v 0 8 != 0
  else if off = rStartCfg then fget v 0 8 != 0 && fget v 8 12 != 0 && fget v 20 12 != 0
  else if 0x70_0000 ≤ off ∧ off < 0x70_0400 ∧ off % 0x100 = 0x4C then fget v 0 2 == 0
  else if 0x88_0014 ≤ off ∧ off ≤ 0x88_0038 then fget v 0 2 != 3
  else if off = 0xC0_1000 ∨ off = 0xC0_1004 then (List.range 16).all fun k => fget v (2 * k) 2 != 3
  else if off = rEnsCfg then fget v 0 2 != 3
  else true

/-- The value a shadow proposes: its RW fields, and the rest as it stands. -/
def Dev.proposed (d : Dev) (off : Nat) (v : W32) : W32 :=
  match regRow off with
  | some r => (d.rd off &&& ~~~ BitVec.ofNat 32 r.rw) ||| (v &&& BitVec.ofNat 32 r.rw)
  | none => v

/-- The value proposed for a register that may have no shadow. -/
def Dev.propose (d : Dev) (sh : List (Nat × W32)) (off : Nat) : W32 :=
  match sfind sh off with
  | some v => d.proposed off v
  | none => d.rd off

/-- Point k of the proposed speed curve keeps the order and the range of R194. -/
def Dev.pointOk (d : Dev) (sh : List (Nat × W32)) (k : Nat) : Bool :=
  let v := d.propose sh (rCurve k)
  let rpm := fget v 16 16
  decide (1200 ≤ rpm) && decide (rpm ≤ 10800) &&
    (k == 0 || decide (fget (d.propose sh (rCurve (k - 1))) 0 10 < fget v 0 10))

/-- The proposed namespace n keeps the rules of R261, beside the other namespaces as they stand. -/
def Dev.nsOk (d : Dev) (sh : List (Nat × W32)) (n : Nat) : Bool :=
  let a := rNs n
  let first := (d.propose sh a).toNat + (d.propose sh (a + 4)).toNat * 2 ^ 32
  let count := (d.propose sh (a + 8)).toNat
  let last := first + count - 1
  !(d.propose sh (a + 0x0C)).getLsbD 0 || count == 0 ||
    (decide (count ≤ 0xFFFF_FFF0) && decide (last < 2 * 166019072) && first / 166019072 == last / 166019072 &&
      (List.range 32).all fun i => i + 1 == n || !d.nsOn (i + 1) || d.nsCount (i + 1) == 0 ||
        decide (last < d.nsFirst (i + 1)) || decide (d.nsFirst (i + 1) + d.nsCount (i + 1) ≤ first))

/-- Registers applied together, by the offset that names their set: a servo loop's (R160), the speed curve's (R194), a
namespace's (R261); any other register is a set of its own. -/
def setOf (off : Nat) : Nat :=
  if 0x50_0000 ≤ off ∧ off < 0x54_0000 ∧ off % 0x1_0000 < 0x600 then off / 0x100 * 0x100
  else if 0x60_0100 ≤ off ∧ off < 0x60_0180 then 0x60_0100
  else if 0x93_0000 ≤ off ∧ off < 0x93_0400 then off / 0x20 * 0x20
  else off

/-- The first rejected offset of a set, with the value not applied. -/
def Dev.rejected (d : Dev) (sh : List (Nat × W32)) (set : Nat) (members : List (Nat × W32)) : Option (Nat × W32) :=
  if set = 0x60_0100 then
    ((List.range 32).find? fun k => !d.pointOk sh k || !d.inRanges (rCurve k) (d.propose sh (rCurve k))).map fun k =>
      (rCurve k, d.propose sh (rCurve k))
  else
    let bad := members.find? fun e => !d.inRanges e.1 (d.proposed e.1 e.2) || !d.hwAllows e.1 (d.proposed e.1 e.2)
    match bad with
    | some e => some (e.1, d.proposed e.1 e.2)
    | none =>
      if 0x93_0000 ≤ set ∧ set < 0x93_0400 ∧ !d.nsOk sh ((set - 0x93_0000) / 0x20 + 1) then
        members.head?.map fun e => (e.1, d.proposed e.1 e.2)
      else none

/-! ### Applying one register -/

/-- The engine that owns a staged register with a complement pair (R356), if it is one: SPN_QUIET, a BIAS, a SAB_BASE. -/
def pairOwner (off : Nat) : Option Nat :=
  if off = rSpnQuiet then some 1
  else if 0x40_0000 ≤ off ∧ off < 0x40_4000 ∧ off % 0x1000 = 0x0C then some 2
  else if 0x50_0000 ≤ off ∧ off < 0x54_0000 ∧ 0x840 ≤ off % 0x1_0000 ∧ off % 0x1_0000 < 0x880 then some 0
  else none

/-- The budget a register sets. -/
def budgetOf (off : Nat) : Option (Fin 7) :=
  if 0x10_00A0 ≤ off ∧ off < 0x10_00BC then some (Fin.ofNat 7 ((off - 0x10_00A0) / 4)) else none

/-- A shadow whose ranges allow it is copied. A broken pair keeps its previous value; a budget above the image's is
replaced by it (R41). -/
def Dev.applyOne (d : Dev) (writers : List (Nat × Nat)) (e : Nat × W32) : Dev :=
  let v := d.proposed e.1 e.2
  match pairOwner e.1, budgetOf e.1 with
  | some engine, _ =>
    if pairOk 16 (fget v 0 16) (fget v 16 16) then d.wr e.1 v
    else d.mismatch engine false e.1 e.1 v.toNat (d.rd e.1).toNat ((sfind writers e.1).getD 0)
  | none, some k =>
    let cap := d.image.budgets.getD k.val 0
    if cap < fget v 0 24 then (d.setF e.1 0 24 cap).setB e.1 31 true else d.wr e.1 v
  | none, none => d.wr e.1 v

/-- One set: applied whole, or rejected with its record. -/
def Dev.applySet (d : Dev) (sh : List (Nat × W32)) (writers : List (Nat × Nat)) (set : Nat) : Dev :=
  let members := sh.filter fun e => setOf e.1 == set
  match d.rejected sh set members with
  | some (off, v) => d.paramReject off v (d.rd off)
  | none => d.each members fun d e => d.applyOne writers e

/-- Every shadow is applied or discarded (R63, R64), in ascending order of offset. -/
def Dev.applyShadows (d : Dev) : Dev :=
  let sh := d.shadows
  let writers := d.stagers
  let d := { d with shadows := [], stagers := [] }
  d.each ((sh.map fun e => setOf e.1).dedup) fun d set => d.applySet sh writers set

/-! ### Budgets (R37, R41) -/

/-- Units of a budget register in what its use counts. -/
def budgetUnit (k : Fin 7) : Nat := if k = 0 then 1 else if k = 6 then 64 else 65536

/-- Use in the act just ended is shown, and the budgets renew. -/
def Dev.renewBudgets (d : Dev) : Dev :=
  let d := d.each (List.finRange 7) fun d k =>
    d.wr (rUsed k) (BitVec.ofNat 32 ((quot d.cue.used[k] (budgetUnit k)).toNat % 2 ^ 24 + b2n d.cue.hit[k] * 2 ^ 31))
  { d with cue.used := Vector.replicate 7 0, cue.hit := Vector.replicate 7 false }

/-! ### Power (R127, R133) -/

/-- The step of one spot of a writing head (R133): toward the ratio recorded at OPC, by at most 0.5 % of the OPC value and in
all by at most 10 %, and not in the act in which an OPC result is sent (R241). The measured ratio is the disc's, and how large the step is the spec does not say: both are free. A
correction of 8 % makes OPC due in the nearer zone (R131). -/
def Dev.rpcSpot (d : Dev) (h : Head) (j : Spot) : Dev :=
  match d.opcValue h j with
  | none => d
  | some base =>
    if d.heads[h].spots[j].peakAct = some d.cue.act then d
    else
    let (d, ratio) := d.draw 4096
    let (d, size) := d.draw (base / 200 + 1)
    let want := ((sfind (d.heads[h].spots[j]).opc (d.fld (rWaddrHi h) 16 4)).getD (0, 0, 0)).2.2
    let peak : Int := d.fld (rPeak h j) 0 16
    let move : Int := if ratio = want then 0 else if decide (ratio < want) == Config.ratioRises then size else -(size : Int)
    let lim : Int := base / 10
    let new := clampI (base - lim) (base + lim) (peak + move)
    let corr := quot ((new - base) * 1000) base
    let d := ((d.setPair (rPeak h j) new.toNat).setF (rRpc h j) 0 12 ratio).setF (rRpc h j) 16 8 (uns 8 corr)
    let d := d.onlyIf (decide (new ≠ peak)) fun d => d.bump (rCalCnt h j 42) 0 16
    d.onlyIf (decide (80 ≤ corr.natAbs)) fun d => d.onHead h fun s =>
      { s with opcDue := if s.opcDue = .none then .nearer else s.opcDue }

/-- Running power control of a head that writes; a calibration place is written at its own powers. -/
def Dev.rpcAct (d : Dev) (h : Head) : Dev :=
  match d.heads[h].writing with
  | some w => if w.type = 2 then d else d.each allSpots fun d j => d.rpcSpot h j
  | none => d

/-- The levels a head has now: 0 with its lasers off, the read power in GHOST_LIGHT, those of the step being written in a
calibration place. -/
def Dev.levelsNow (d : Dev) (h : Head) : Dev :=
  if !d.heads[h].lasers then d.sendLevels h 0
  else if d.ghostLight then d.sendLevels h (d.fld (rBias h) 0 16)
  else match d.heads[h].writing with
    | some w => if w.type = 2 then d.sendStep h (min 26 (d.bitsWritten h w.place / 2 * 54 / 513840))
      else d.each allSpots fun d j => d.sendPower h j
    | none => d.each allSpots fun d j => d.sendPower h j

/-- Once an act, to every head's AFE its SYSREF pulse (R32); on both lanes an ALIGN block (R126), and each POWER and EDGE
value again (R127). -/
def Dev.headAct (d : Dev) (h : Head) : Dev :=
  let d := (d.emit (.sysref h)).onHead h fun s => { s with freeBeats := 0, laneBlock := Vector.replicate 4 0 }
  if !d.heads[h].lanes then d
  else
    let d := (d.emits [.control h alignBlock, .control h alignBlock]).levelsNow h
    d.each allSpots fun d j => d.sendEdges h j

/-! ### Degraded service (R181) -/

/-- It ends on a side whose heads are both in service again; the host is told. -/
def Dev.degradedAct (d : Dev) (x : Side) : Dev :=
  let was := d.sides[x].takeover
  let d := d.takeoverAct x
  d.onlyIf (was && !d.sides[x].takeover) fun d => d.hostEvent 2 x.val 0

/-! ### ACT_BOUNDARY -/

/-- The work of an act boundary, at cycle 0 of beat 0. -/
def Dev.actBoundary (d : Dev) : Dev :=
  let d := { d with cue.actDone := true }
  let d := (d.applyShadows.renewBudgets).dmaRenew
  let d := d.each allSides Dev.degradedAct
  let d := d.each allHeads fun d h => ((d.sumRefAct h).sabAct h).rpcAct h
  let d := d.each allHeads Dev.headAct
  let d := d.each allHeads Dev.sledRequest
  let d := d.calAct
  let d := d.spindleAct (d.flag rCalCtl 2 && d.hq.disc)
  (d.settle.houseAct).dozeAct

def execActBoundary (s : State) : Host.Outcome State Fault Refusal :=
  .next (if !s.dev.atAct || s.dev.cue.actDone || s.dev.clockStands then s else (s.onDev Dev.actBoundary).goOn)

end Sys2Proof.Machine
end

