-- ==== Sys2Proof/Machine/Dispatch.lean ====
section
/-! DEFINITION. One arm per command: a direct call of its meaning. -/

namespace Sys2Proof.Machine

/-- The effect of a command on everything but the queue. -/
def exec (i : Instr) (s : State) : Host.Outcome State Fault Refusal :=
  match i with
  | .masterAccess m addr op env => Sys2Proof.Machine.execMasterAccess m addr op env s
  | .registerWrite m off be v beside => Sys2Proof.Machine.execRegisterWrite m off be v beside s
  | .readClear m off => Sys2Proof.Machine.execReadClear m off s
  | .hiLatchRead m off => Sys2Proof.Machine.execHiLatchRead m off s
  | .reqPerformance m => Sys2Proof.Machine.execReqPerformance m s
  | .reqRehearsal m => Sys2Proof.Machine.execReqRehearsal m s
  | .reqGhostLight m => Sys2Proof.Machine.execReqGhostLight m s
  | .modeTransition => Sys2Proof.Machine.execModeTransition s
  | .beatBoundary => Sys2Proof.Machine.execBeatBoundary s
  | .chainEnd line asserted => Sys2Proof.Machine.execChainEnd line asserted s
  | .glPhaseAdvance => Sys2Proof.Machine.execGlPhaseAdvance s
  | .actBoundary => Sys2Proof.Machine.execActBoundary s
  | .prompterCheck slot claims words => Sys2Proof.Machine.execPrompterCheck slot claims words s
  | .coreWfi c => Sys2Proof.Machine.execCoreWfi c s
  | .eventInject m event => Sys2Proof.Machine.execEventInject m event s
  | .slackClear m n => Sys2Proof.Machine.execSlackClear m n s
  | .cueOwnedWrite m off v => Sys2Proof.Machine.execCueOwnedWrite m off v s
  | .bankSwap => Sys2Proof.Machine.execBankSwap s
  | .addressWord h wobbles => Sys2Proof.Machine.execAddressWord h wobbles s
  | .wobbleLost h => Sys2Proof.Machine.execWobbleLost h s
  | .bandSlip h phases => Sys2Proof.Machine.execBandSlip h phases s
  | .multiblockReceived h lane blocks crc => Sys2Proof.Machine.execMultiblockReceived h lane blocks crc s
  | .laneLoss h cause lane => Sys2Proof.Machine.execLaneLoss h cause lane s
  | .servoGroup h g => Sys2Proof.Machine.execServoGroup h g s
  | .defectStart h j crit => Sys2Proof.Machine.execDefectStart h j crit s
  | .defectEnd h j => Sys2Proof.Machine.execDefectEnd h j s
  | .syncWindow h j => Sys2Proof.Machine.execSyncWindow h j s
  | .zoneLoad h j => Sys2Proof.Machine.execZoneLoad h j s
  | .loopDiverge h j c => Sys2Proof.Machine.execLoopDiverge h j c s
  | .placeReadStart h p why => Sys2Proof.Machine.execPlaceReadStart h p why s
  | .progressiveIteration h => Sys2Proof.Machine.execProgressiveIteration h s
  | .closingIteration h => Sys2Proof.Machine.execClosingIteration h s
  | .outerDecode h => Sys2Proof.Machine.execOuterDecode h s
  | .ladderStep h => Sys2Proof.Machine.execLadderStep h s
  | .writeGateOpen h p badRows faultRows => Sys2Proof.Machine.execWriteGateOpen h p badRows faultRows s
  | .writeGateClose h => Sys2Proof.Machine.execWriteGateClose h s
  | .clkLockSet h carriers => Sys2Proof.Machine.execClkLockSet h carriers s
  | .clkLockLost h carriers => Sys2Proof.Machine.execClkLockLost h carriers s
  | .opcRun h outer => Sys2Proof.Machine.execOpcRun h outer s
  | .opcResult h levels ratio => Sys2Proof.Machine.execOpcResult h levels ratio s
  | .laserFault h => Sys2Proof.Machine.execLaserFault h s
  | .verifyReadDone h => Sys2Proof.Machine.execVerifyReadDone h s
  | .idleVerify h => Sys2Proof.Machine.execIdleVerify h s
  | .spareWrite h badRows faultRows => Sys2Proof.Machine.execSpareWrite h badRows faultRows s
  | .allocEntryRead m idx hi => Sys2Proof.Machine.execAllocEntryRead m idx hi s
  | .commitRecord d => Sys2Proof.Machine.execCommitRecord d s
  | .commitPassed d => Sys2Proof.Machine.execCommitPassed d s
  | .snapshot d => Sys2Proof.Machine.execSnapshot d s
  | .holdStart h => Sys2Proof.Machine.execHoldStart h s
  | .holdEnd h => Sys2Proof.Machine.execHoldEnd h s
  | .offTrack h => Sys2Proof.Machine.execOffTrack h s
  | .writeHoldAbort h => Sys2Proof.Machine.execWriteHoldAbort h s
  | .lockSet h f => Sys2Proof.Machine.execLockSet h f s
  | .lockClear h f => Sys2Proof.Machine.execLockClear h f s
  | .fineJump h bands => Sys2Proof.Machine.execFineJump h bands s
  | .layerJump h target => Sys2Proof.Machine.execLayerJump h target s
  | .bandAcquire h phases => Sys2Proof.Machine.execBandAcquire h phases s
  | .seek h layer turn => Sys2Proof.Machine.execSeek h layer turn s
  | .seekTimeout h => Sys2Proof.Machine.execSeekTimeout h s
  | .headFaultLine h => Sys2Proof.Machine.execHeadFaultLine h s
  | .reinstate m h typ cal => Sys2Proof.Machine.execReinstate m h typ cal s
  | .pwmPeriod iu iv vbus ibrk => Sys2Proof.Machine.execPwmPeriod iu iv vbus ibrk s
  | .busSample vbus => Sys2Proof.Machine.execBusSample vbus s
  | .vbusRecover => Sys2Proof.Machine.execVbusRecover s
  | .alignEnd => Sys2Proof.Machine.execAlignEnd s
  | .handover => Sys2Proof.Machine.execHandover s
  | .startTimeout => Sys2Proof.Machine.execStartTimeout s
  | .stillTimeout => Sys2Proof.Machine.execStillTimeout s
  | .chopperFault c => Sys2Proof.Machine.execChopperFault c s
  | .rotorLost => Sys2Proof.Machine.execRotorLost s
  | .gateFault => Sys2Proof.Machine.execGateFault s
  | .recatchSample vtu vtv vtw => Sys2Proof.Machine.execRecatchSample vtu vtv vtw s
  | .recatchResult => Sys2Proof.Machine.execRecatchResult s
  | .failsReset => Sys2Proof.Machine.execFailsReset s
  | .clearLockout m => Sys2Proof.Machine.execClearLockout m s
  | .adcRoundRobin converter v => Sys2Proof.Machine.execAdcRoundRobin converter v s
  | .hallEdge a hall cycle => Sys2Proof.Machine.execHallEdge a hall cycle s
  | .auxPwmPeriod a first second => Sys2Proof.Machine.execAuxPwmPeriod a first second s
  | .auxStall a => Sys2Proof.Machine.execAuxStall a s
  | .auxEnable m a => Sys2Proof.Machine.execAuxEnable m a s
  | .auxTarget m v => Sys2Proof.Machine.execAuxTarget m v s
  | .auxHoldEnd => Sys2Proof.Machine.execAuxHoldEnd s
  | .profileTick => Sys2Proof.Machine.execProfileTick s
  | .comparatorTrip x w cycle => Sys2Proof.Machine.execComparatorTrip x w cycle s
  | .offTimeEnd x w cycle => Sys2Proof.Machine.execOffTimeEnd x w cycle s
  | .bridgeFault x w k => Sys2Proof.Machine.execBridgeFault x w k s
  | .absoluteMove m x targetN => Sys2Proof.Machine.execAbsoluteMove m x targetN s
  | .relativeMove m x v => Sys2Proof.Machine.execRelativeMove m x v s
  | .profileParamWrite m x p v => Sys2Proof.Machine.execProfileParamWrite m x p v s
  | .axisStop m x => Sys2Proof.Machine.execAxisStop m x s
  | .axisHalt m x => Sys2Proof.Machine.execAxisHalt m x s
  | .axisHome m x => Sys2Proof.Machine.execAxisHome m x s
  | .axisRelease m x => Sys2Proof.Machine.execAxisRelease m x s
  | .axisEnergise m x supply => Sys2Proof.Machine.execAxisEnergise m x supply s
  | .limitQualified x sw level cycle => Sys2Proof.Machine.execLimitQualified x sw level cycle s
  | .homeRangeExceeded x => Sys2Proof.Machine.execHomeRangeExceeded x s
  | .holdDelayEnd x => Sys2Proof.Machine.execHoldDelayEnd x s
  | .calWindow h j => Sys2Proof.Machine.execCalWindow h j s
  | .ditherAbandon h => Sys2Proof.Machine.execDitherAbandon h s
  | .calFull m => Sys2Proof.Machine.execCalFull m s
  | .calFullDone heads => Sys2Proof.Machine.execCalFullDone heads s
  | .hotReset => Sys2Proof.Machine.execHotReset s
  | .sqTailDoorbell m r v => Sys2Proof.Machine.execSqTailDoorbell m r v s
  | .cqHeadDoorbell m r v => Sys2Proof.Machine.execCqHeadDoorbell m r v s
  | .ringEnable m r v => Sys2Proof.Machine.execRingEnable m r v s
  | .ringDisable m r v => Sys2Proof.Machine.execRingDisable m r v s
  | .commandFetch res => Sys2Proof.Machine.execCommandFetch res s
  | .read src tag xfer => Sys2Proof.Machine.execRead src tag xfer s
  | .write src tag => Sys2Proof.Machine.execWrite src tag s
  | .verify src tag => Sys2Proof.Machine.execVerify src tag s
  | .flush src tag => Sys2Proof.Machine.execFlush src tag s
  | .load src tag cal => Sys2Proof.Machine.execLoad src tag cal s
  | .unload src tag => Sys2Proof.Machine.execUnload src tag s
  | .identifyDevice src tag => Sys2Proof.Machine.execIdentifyDevice src tag s
  | .identifyNamespace src tag => Sys2Proof.Machine.execIdentifyNamespace src tag s
  | .getLogDeferred src tag => Sys2Proof.Machine.execGetLogDeferred src tag s
  | .getLogCallBoard src tag => Sys2Proof.Machine.execGetLogCallBoard src tag s
  | .getLogDiscard src tag => Sys2Proof.Machine.execGetLogDiscard src tag s
  | .getLogSides src tag => Sys2Proof.Machine.execGetLogSides src tag s
  | .setQuietCeiling src tag => Sys2Proof.Machine.execSetQuietCeiling src tag s
  | .setNamespace src tag => Sys2Proof.Machine.execSetNamespace src tag s
  | .setSideVerify src tag => Sys2Proof.Machine.execSetSideVerify src tag s
  | .setEventRing src tag => Sys2Proof.Machine.execSetEventRing src tag s
  | .setXrdyTimeout src tag => Sys2Proof.Machine.execSetXrdyTimeout src tag s
  | .getQuietCeiling src tag => Sys2Proof.Machine.execGetQuietCeiling src tag s
  | .getNamespace src tag => Sys2Proof.Machine.execGetNamespace src tag s
  | .getSideVerify src tag => Sys2Proof.Machine.execGetSideVerify src tag s
  | .getEventRing src tag => Sys2Proof.Machine.execGetEventRing src tag s
  | .getXrdyTimeout src tag => Sys2Proof.Machine.execGetXrdyTimeout src tag s
  | .setBudget src tag => Sys2Proof.Machine.execSetBudget src tag s
  | .fwStage src tag => Sys2Proof.Machine.execFwStage src tag s
  | .fwActivate src tag => Sys2Proof.Machine.execFwActivate src tag s
  | .queueReset src tag => Sys2Proof.Machine.execQueueReset src tag s
  | .curtain src tag => Sys2Proof.Machine.execCurtain src tag s
  | .curtainCommitEnd => Sys2Proof.Machine.execCurtainCommitEnd s
  | .dataDescriptor src d data xfer => Sys2Proof.Machine.execDataDescriptor src d data xfer s
  | .abort src a lastTransfer => Sys2Proof.Machine.execAbort src a lastTransfer s
  | .offerPost src tag => Sys2Proof.Machine.execOfferPost src tag s
  | .offerTimeout src tag offer => Sys2Proof.Machine.execOfferTimeout src tag offer s
  | .writeAck src tag => Sys2Proof.Machine.execWriteAck src tag s
  | .interruptSignal r => Sys2Proof.Machine.execInterruptSignal r s
  | .mergeFlush upsets => Sys2Proof.Machine.execMergeFlush upsets s
  | .scrubLine upsets => Sys2Proof.Machine.execScrubLine upsets s
  | .retirePage m page => Sys2Proof.Machine.execRetirePage m page s
  | .pageRetired page => Sys2Proof.Machine.execPageRetired page s
  | .retireBank m bank => Sys2Proof.Machine.execRetireBank m bank s
  | .bankDone => Sys2Proof.Machine.execBankDone s
  | .wipeEnd => Sys2Proof.Machine.execWipeEnd s
  | .cacheFillDone bank upsets => Sys2Proof.Machine.execCacheFillDone bank upsets s
  | .maintNone m v => Sys2Proof.Machine.execMaintNone m v s
  | .maintClean m v => Sys2Proof.Machine.execMaintClean m v s
  | .maintInvalidate m v => Sys2Proof.Machine.execMaintInvalidate m v s
  | .maintCleanInvalidate m v => Sys2Proof.Machine.execMaintCleanInvalidate m v s
  | .maintZeroLine m v => Sys2Proof.Machine.execMaintZeroLine m v s
  | .maintDone => Sys2Proof.Machine.execMaintDone s
  | .scDisable m v => Sys2Proof.Machine.execScDisable m v s
  | .scEnable m v => Sys2Proof.Machine.execScEnable m v s
  | .drainEnd => Sys2Proof.Machine.execDrainEnd s
  | .dmaStart m ch v far => Sys2Proof.Machine.execDmaStart m ch v far s
  | .dmaStop m ch => Sys2Proof.Machine.execDmaStop m ch s
  | .dmaResponse ch bytes res => Sys2Proof.Machine.execDmaResponse ch bytes res s
  | .linkFetchDone ch image far => Sys2Proof.Machine.execLinkFetchDone ch image far s
  | .linkTimeout ch => Sys2Proof.Machine.execLinkTimeout ch s
  | .pacedBurst ch far => Sys2Proof.Machine.execPacedBurst ch far s
  | .packets f slots => Sys2Proof.Machine.execPackets f slots s
  | .readReq f tag offset len quarter upsets => Sys2Proof.Machine.execReadReq f tag offset len quarter upsets s
  | .readResp f tag data => Sys2Proof.Machine.execReadResp f tag data s
  | .writeReq f tag offset data quarter => Sys2Proof.Machine.execWriteReq f tag offset data quarter s
  | .writeResp f tag => Sys2Proof.Machine.execWriteResp f tag s
  | .nak f tag err => Sys2Proof.Machine.execNak f tag err s
  | .directory f d => Sys2Proof.Machine.execDirectory f d s
  | .heartbeat hb => Sys2Proof.Machine.execHeartbeat hb s
  | .ack port src gap repeated ackSeq expected epoch => Sys2Proof.Machine.execAck port src gap repeated ackSeq expected epoch s
  | .ackTimer peer => Sys2Proof.Machine.execAckTimer peer s
  | .rtoExpiry peer => Sys2Proof.Machine.execRtoExpiry peer s
  | .heartbeatSend => Sys2Proof.Machine.execHeartbeatSend s
  | .heartbeatMissed port sender => Sys2Proof.Machine.execHeartbeatMissed port sender s
  | .pcsLockLoss port => Sys2Proof.Machine.execPcsLockLoss port s
  | .linkReturn port => Sys2Proof.Machine.execLinkReturn port s
  | .understudyClean port => Sys2Proof.Machine.execUnderstudyClean port s
  | .dirCommit m => Sys2Proof.Machine.execDirCommit m s
  | .dirPullTimeout member => Sys2Proof.Machine.execDirPullTimeout member s
  | .take m => Sys2Proof.Machine.execTake m s
  | .ptpMessage port msg => Sys2Proof.Machine.execPtpMessage port msg s
  | .ptpSyncSend => Sys2Proof.Machine.execPtpSyncSend s
  | .ptpOfsWrite m v => Sys2Proof.Machine.execPtpOfsWrite m v s
  | .mdioAddress m v => Sys2Proof.Machine.execMdioAddress m v s
  | .mdioWrite m v => Sys2Proof.Machine.execMdioWrite m v s
  | .mdioRead m v => Sys2Proof.Machine.execMdioRead m v s
  | .mdioDone data => Sys2Proof.Machine.execMdioDone data s
  | .sramScrub upsets => Sys2Proof.Machine.execSramScrub upsets s
  | .clockMonitorTrip offFrequency => Sys2Proof.Machine.execClockMonitorTrip offFrequency s
  | .fltPost m code => Sys2Proof.Machine.execFltPost m code s
  | .callBoardCopy readBackOk => Sys2Proof.Machine.execCallBoardCopy readBackOk s
  | .wake w => Sys2Proof.Machine.execWake w s
  | .pmeTurnOff => Sys2Proof.Machine.execPmeTurnOff s
  | .powerOn => Sys2Proof.Machine.execPowerOn s
  | .perst => Sys2Proof.Machine.execPerst s
  | .pfail => Sys2Proof.Machine.execPfail s
  | .pfailRelease => Sys2Proof.Machine.execPfailRelease s
  | .warm m => Sys2Proof.Machine.execWarm m s
  | .deviceReset env => Sys2Proof.Machine.execDeviceReset env s
  | .pgoodLoss ddr => Sys2Proof.Machine.execPgoodLoss ddr s
  | .lifecycleRequest m v => Sys2Proof.Machine.execLifecycleRequest m v s
  | .thermalCheck tj temps => Sys2Proof.Machine.execThermalCheck tj temps s
  | .thermalClear => Sys2Proof.Machine.execThermalClear s
  | .alarmTick => Sys2Proof.Machine.execAlarmTick s
  | .i2cTransfer m h v => Sys2Proof.Machine.execI2cTransfer m h v s
  | .i2cDone h nacked rx => Sys2Proof.Machine.execI2cDone h nacked rx s
  | .i2cTimeout h => Sys2Proof.Machine.execI2cTimeout h s
  | .i2cDataPush m h v => Sys2Proof.Machine.execI2cDataPush m h v s
  | .i2cDataPop m h => Sys2Proof.Machine.execI2cDataPop m h s
  | .headTypePoll h t => Sys2Proof.Machine.execHeadTypePoll h t s
  | .headResetWrite m h v => Sys2Proof.Machine.execHeadResetWrite m h v s
  | .gpioEdge levels => Sys2Proof.Machine.execGpioEdge levels s
  | .gpioCapPop m => Sys2Proof.Machine.execGpioCapPop m s
  | .flashRead m => Sys2Proof.Machine.execFlashRead m s
  | .flashProgram m => Sys2Proof.Machine.execFlashProgram m s
  | .flashErase m => Sys2Proof.Machine.execFlashErase m s
  | .flashReadFifo m => Sys2Proof.Machine.execFlashReadFifo m s
  | .flashProgramFifo m => Sys2Proof.Machine.execFlashProgramFifo m s
  | .flashDone ok => Sys2Proof.Machine.execFlashDone ok s
  | .flashFifoPush m v => Sys2Proof.Machine.execFlashFifoPush m v s
  | .flashFifoPop m => Sys2Proof.Machine.execFlashFifoPop m s
  | .gateFaultClear => Sys2Proof.Machine.execGateFaultClear s
  | .startRetry vtu vtv vtw => Sys2Proof.Machine.execStartRetry vtu vtv vtw s
  | .perstRelease => Sys2Proof.Machine.execPerstRelease s
  | .pgoodReturn ddr => Sys2Proof.Machine.execPgoodReturn ddr s
  | .crystalStable => Sys2Proof.Machine.execCrystalStable s
  | .crystalFail => Sys2Proof.Machine.execCrystalFail s
  | .laneLock h locked => Sys2Proof.Machine.execLaneLock h locked s
  | .pcieConfigRequest q => Sys2Proof.Machine.execPcieConfigRequest q s
  | .tapReset => Sys2Proof.Machine.execTapReset s
  | .completionTimeout w => Sys2Proof.Machine.execCompletionTimeout w s
  | .discPresentChange level => Sys2Proof.Machine.execDiscPresentChange level s

end Sys2Proof.Machine
end

