-- ==== Sys2Proof/Safety.lean ====
section
/-! DEFINITION. The terms claims use: what counts as a safe run, the canonical form of the memories, the parts of the
machine, and what it means that a command leaves all but the parts and registers named as they were. -/

namespace Sys2Proof.Machine

/-- The next step of a state neither faults nor is refused. -/
def State.safe (s : State) : Prop := ∃ t, step s = .next t

/-- The memories are in canonical form: keys rise strictly, and no cell is listed that equals what an unlisted cell
reads as (an erased flash byte is 0xFF; a DRAM or SRAM symbol is 0). -/
def Mem.wf (m : Mem) : Bool :=
  rising 0 m.flash && listed (fun _ => (0xFF : Byte)) m.flash && rising 0 m.dram && listed (fun _ => (0 : Byte)) m.dram &&
    rising 0 m.sram && listed (fun _ => (0 : Byte)) m.sram

/-- The parts of the machine beside its registers: those of the device, what was sent, and the memories. -/
inductive Part where
  | cue | flt | cfg | top | clock | buf | dma | heads | sides | alloc | hq | ens | pcie | spn | aux | axes | cal | pwr
  | staged | sampled | sent | flash | dram | sram | cache
  deriving DecidableEq, Repr

/-- A part is the same in both states. -/
def Part.same (p : Part) (s t : State) : Prop :=
  match p with
  | .cue => t.dev.cue = s.dev.cue
  | .flt => t.dev.flt = s.dev.flt
  | .cfg => t.dev.cfg = s.dev.cfg
  | .top => t.dev.top = s.dev.top
  | .clock => t.dev.ns = s.dev.ns ∧ t.dev.sec = s.dev.sec
  | .buf => t.dev.buf = s.dev.buf
  | .dma => t.dev.dma = s.dev.dma ∧ t.dev.dmaTurn = s.dev.dmaTurn
  | .heads => t.dev.heads = s.dev.heads
  | .sides => t.dev.sides = s.dev.sides
  | .alloc => t.dev.alloc = s.dev.alloc
  | .hq => t.dev.hq = s.dev.hq
  | .ens => t.dev.ens = s.dev.ens
  | .pcie => t.dev.pcie = s.dev.pcie
  | .spn => t.dev.spn = s.dev.spn
  | .aux => t.dev.aux = s.dev.aux
  | .axes => t.dev.axes = s.dev.axes
  | .cal => t.dev.cal = s.dev.cal
  | .pwr => t.dev.pwr = s.dev.pwr
  | .staged => t.dev.shadows = s.dev.shadows ∧ t.dev.stagers = s.dev.stagers
  | .sampled => t.dev.sampled = s.dev.sampled
  | .sent => t.dev.sent = s.dev.sent
  | .flash => t.mem.flash = s.mem.flash
  | .dram => t.mem.dram = s.mem.dram
  | .sram => t.mem.sram = s.mem.sram
  | .cache => t.mem.merge = s.mem.merge ∧ t.mem.lines = s.mem.lines ∧ t.mem.plru = s.mem.plru ∧
      t.mem.fills = s.mem.fills ∧ t.mem.waits = s.mem.waits ∧ t.mem.trackers = s.mem.trackers ∧ t.mem.maint = s.mem.maint

/-- t is s but for the parts named and the registers whose offsets are in the set named. -/
def State.keeps (s t : State) (parts : List Part) (regs : Nat → Prop) : Prop :=
  t.pending = s.pending ∧ (∀ p, p ∉ parts → p.same s t) ∧ ∀ a, ¬ regs a → t.dev.rd a = s.dev.rd a

/-- A boundary between beats at which nothing happens but what happens at every one: the cue clock runs, no chain, fault, gate
removal, focus search, start-up policy, command, held post or axis movement is under way. -/
def State.quiet (s : State) : Prop :=
  s.dev.clockStands = false ∧ s.dev.ghostLight = false ∧ s.dev.cue.fault = none ∧ s.dev.cue.running = [] ∧
    s.dev.pwr.auto = 0 ∧ s.dev.hq.cmds = [] ∧ (∀ r : RingId, s.dev.hq.rings[r].held = []) ∧
    (∀ h : Head, s.dev.heads[h].gateOff = false ∧ s.dev.heads[h].search = none) ∧
    ∀ x : Axis, s.dev.axState x ≠ 4 ∧ s.dev.axes[x].fade = none ∧ s.dev.axes[x].plan = []

/-- Registers that every beat shows anew: a head's position (R92), and in RCH_Sj_STAT the zone (R122). -/
def positionReg (a : Nat) : Prop :=
  ∃ h : Head, a = rWaddrLo h ∨ a = rWaddrHi h ∨ ∃ j : Spot, a = rSpotStat h j

/-- The byte of the flash at an address; an erased byte is 0xFF. -/
def State.flashByte (s : State) (a : Nat) : Byte := sget s.mem.flash (0xFF : Byte) a

/-- c is the one command outstanding: of this source, tag and opcode, not started, and to be answered. -/
def State.alone (s : State) (c : Cmd) (src : CmdSrc) (tag : BitVec 16) (op : Nat) : Prop :=
  s.dev.hq.cmds = [c] ∧ c.src = src ∧ c.tag = tag ∧ c.op = op ∧ c.started = false ∧ c.silent = false

/-- The device once its one command has left and its STATUS is posted to where it came from. -/
def Dev.ended (d : Dev) (c : Cmd) (st : Nat) (res info done aux : Nat := 0) (dg un : Bool := false) : Dev :=
  ({ d with hq.cmds := [] }).srcPost c.src (.status c.tag st res info done c.nsid aux dg un false)

/-- A sequenced frame that is the next one of its sender and calls for no acknowledgement of its own, on a device with a
link whose directory is not being distributed. -/
def State.inOrder (s : State) (f : FrameHdr) : Prop :=
  s.dev.role ≠ 0 ∧ f.dst.toNat = s.dev.deviceId ∧ f.macOk = true ∧ f.version = 1 ∧ f.ackv = false ∧
    f.seq.toNat = (s.dev.peer f.src.val).rxNext ∧ (s.dev.peer f.src.val).since + 1 < s.dev.fld rLinkCfg 24 5 ∧
    s.dev.flag rDirCtl 1 = false

/-- e is the link's state with this peer's record replaced: the other peers' records and all else of the link's state are
as in d. -/
def Dev.peerBecomes (d e : Dev) (id : Nat) (p : Peer) : Prop :=
  e.peer id = p ∧ (∀ i, i ≠ id → e.peer i = d.peer i) ∧ { e.ens with peers := d.ens.peers } = d.ens

/-- The sender's record once its next frame is accepted, in beat `now`. -/
def Peer.took (p : Peer) (now : Nat) : Peer :=
  { p with rxNext := (p.rxNext + 1) % 2 ^ 32, since := p.since + 1, gapSent := none,
           firstIn := if p.since = 0 then now else p.firstIn }

end Sys2Proof.Machine
end

