-- ==== Sys2Proof/Certificates/Slice0/Obligations.lean ====
section
/-! DEFINITION. The statements for the provers, one definition each. Those about commands say that exec answers a next
state, what that state holds, and what it leaves as it was (State.keeps). -/

open Sys2Proof Sys2Proof.Machine

/-! ### The machine as a whole -/

/-- A step runs the command at the front of the queue with the queue's rest; with nothing waiting the state stays
(95_what_each_step_holds.md). -/
def Obligations.StepRunsFrontCommand : Prop :=
  (∀ (c : Instr) (rest : List Instr) (s : State),
    step { s with pending := c :: rest } = exec c { s with pending := rest }) ∧
  ∀ s : State, s.pending = [] → step s = .next s

/-- Every command answers a next state, and no command touches the queue of waiting commands
(95_what_each_step_holds.md). -/
def Obligations.CommandsLeaveQueue : Prop :=
  ∀ (c : Instr) (s : State), ∃ t, exec c s = .next t ∧ t.pending = s.pending

/-- Every step keeps the memories in canonical form (11_buffer_memory.md, 14_fault_handling.md,
16_config_and_registers.md). -/
def Obligations.MemoryFormHolds : Prop :=
  ∀ s t : State, s.mem.wf = true → step s = .next t → t.mem.wf = true

/-- The state right after reset: REHEARSAL, the fabric stopped, empty queues and board, memories in canonical form
(01_architecture.md, 02_cue_sheet.md, 10_host_queueing.md, 14_fault_handling.md). -/
def Obligations.ResetState : Prop :=
  State.reset.mem.wf = true ∧ State.reset.pending = [] ∧ State.reset.dev.mode = 0 ∧
    State.reset.dev.hq.cmds = [] ∧ State.reset.dev.hq.rows = [] ∧ State.reset.dev.flt.board = [] ∧
    State.reset.dev.cue.running = [] ∧ State.reset.dev.fabric = false ∧
    (∀ r : RingId, State.reset.dev.ringOn r = false) ∧ (∀ h : Head, State.reset.dev.flag (rWrpStat h) 0 = false) ∧
    ∀ ch : Chan, State.reset.dev.dmaBusy ch = false

/-- Eight data bytes encoded with their two check symbols have zero syndromes and decode to themselves
(11_buffer_memory.md). -/
def Obligations.StoredCodewordReadsBack : Prop :=
  ∀ d : List Nat, d.length = 8 → (∀ x ∈ d, x < 256) →
    (d ++ rsEncode8 d).length = 10 ∧ syndrome (d ++ rsEncode8 d) 0 = 0 ∧ syndrome (d ++ rsEncode8 d) 1 = 0 ∧
      rsDecode8 (d ++ rsEncode8 d) = .clean d

/-- Any change of one symbol of a stored codeword is found at its place and corrected (11_buffer_memory.md). -/
def Obligations.SingleSymbolErrorCorrected : Prop :=
  ∀ (d : List Nat) (i e : Nat), d.length = 8 → (∀ x ∈ d, x < 256) → i < 10 → 0 < e → e < 256 →
    let w := d ++ rsEncode8 d
    rsDecode8 (w.set i (w.getD i 0 ^^^ e)) = .corrected d i e (gmul e (galpha (9 - i)))

/-! ### Masters, registers and the address map (00_scope.md, 01_architecture.md, 16_config_and_registers.md) -/

/-- A whole write of a live or staged register without a rule of its own takes effect by its class (00_scope.md,
01_architecture.md). -/
def Obligations.RegisterWriteByClass : Prop :=
  ∀ (m : Master) (off : Off) (v : W32) (s : State) (r : RegRow), regRow off.toNat = some r → off.toNat % 4 = 0 →
    (((s.ownLow m off.toNat v).or (s.ownMem off.toNat v)).or (s.ownLink off.toNat v)).or (s.ownDrive m off.toNat v)
      = none →
    off.toNat ≠ rTopMode → off.toNat ≠ rCueInject → (∀ ch, s.dev.dmaBusy ch = false) →
    let rw := BitVec.ofNat 32 r.rw
    let w1c := BitVec.ofNat 32 r.w1c
    (r.cls = .live → ∃ t, exec (.registerWrite m off 0xF v []) s = .next t ∧
      t.dev.rd off.toNat = (((s.dev.rd off.toNat &&& ~~~ (v &&& w1c)) &&& ~~~ rw) ||| (v &&& rw)) ∧
      s.keeps t [.cfg] (· = off.toNat)) ∧
    (r.cls = .staged → ∃ t, exec (.registerWrite m off 0xF v []) s = .next t ∧
      t.dev.rd off.toNat = s.dev.rd off.toNat &&& ~~~ (v &&& w1c) ∧
      (r.rw ≠ 0 → sfind t.dev.shadows off.toNat = some (v &&& rw) ∧ t.dev.held r off.toNat &&& rw = v &&& rw) ∧
      s.keeps t [.cfg, .staged] (· = off.toNat)) ∧
    (r.cls = .live → r.w1c = 0 → ∀ (first : Master) (w : W32), fabricRank first < fabricRank m →
      (∀ (k : Master) (x : W32) (u : State), (((u.ownLow k off.toNat x).or (u.ownMem off.toNat x)).or
        (u.ownLink off.toNat x)).or (u.ownDrive k off.toNat x) = none) →
      ∃ t, exec (.registerWrite m off 0xF v [⟨first, off, 0xF, w⟩]) s = .next t ∧
        exec (.registerWrite first off 0xF w [⟨m, off, 0xF, v⟩]) s = .next t ∧
        t.dev.rd off.toNat = ((s.dev.rd off.toNat &&& ~~~ rw) ||| (v &&& rw)) ∧ s.keeps t [.cfg] (· = off.toNat)) ∧
    ∀ ws vs : List RegWrite, ws.Perm vs → (ws.map fun x => fabricRank x.m).Nodup → inFabricOrder ws = inFabricOrder vs

/-- A register write whose byte enables do not cover the register is discarded, with entry 0x0161
(16_config_and_registers.md). -/
def Obligations.NarrowWriteDiscarded : Prop :=
  ∀ (m : Master) (off : Off) (be : BitVec 4) (v : W32) (s : State) (r : RegRow), regRow off.toNat = some r →
    off.toNat % 4 = 0 → be ≠ 0xF → (∀ ch, s.dev.dmaBusy ch = false) → s.dev.boardTwin 0x0161 0x18 = none →
    ∃ t e, exec (.registerWrite m off be v []) s = .next t ∧ t.dev.flt.board = (e :: s.dev.flt.board).take 4096 ∧
      e.code = 0x0161 ∧ e.d0 = off.toNat ∧ e.d1 = be.toNat ∧ e.d2 = writerCode m ∧
      s.keeps t [.cfg, .flt] (fun _ => False)

/-- A register read answers the whole word; RC fields then clear, and a _LO read latches its _HI partner
(00_scope.md). -/
def Obligations.ReadsClearAndLatch : Prop :=
  (∀ (m : Master) (off : Off) (s : State) (r : RegRow), regRow off.toNat = some r → off.toNat % 4 = 0 →
    s.popPort off.toNat = none → sfind s.dev.top.latches (latchKey m off.toNat) = none →
    latchPartners off.toNat = [] → (s.coreStatRead off.toNat (s.view r off.toNat)).1 = s →
    ∃ t, exec (.readClear m off) s = .next t ∧
      t.dev.sent = .data m (leBytes 4 (s.view r off.toNat).toNat) :: s.dev.sent ∧
      t.dev.rd off.toNat = s.dev.rd off.toNat &&& ~~~ BitVec.ofNat 32 r.rc ∧
      s.keeps t [.cfg, .sent] (· = off.toNat)) ∧
  ∀ (m : Master) (s : State), sfind s.dev.top.latches (latchKey m 0x10_0008) = none → s.dev.cue.act < 2 ^ 64 →
    ∃ t, exec (.hiLatchRead m 0x10_0008) s = .next t ∧
      t.dev.sent = .data m (leBytes 4 (s.dev.cue.act % 2 ^ 32)) :: s.dev.sent ∧
      (s.keeps t [.cfg, .sent, .top] (fun _ => False)) ∧
      ∀ n : Nat, let t' := t.onDev fun d => { d with cue.act := n }
        ∃ u, exec (.hiLatchRead m 0x10_000C) t' = .next u ∧
          u.dev.sent = .data m (leBytes 4 (s.dev.cue.act / 2 ^ 32)) :: t'.dev.sent

/-- A master's aligned 8-byte write of scratch SRAM stores the codeword, and its read answers the bytes stored
(01_architecture.md, 14_fault_handling.md). -/
def Obligations.ScratchSramAccess : Prop :=
  ∀ (m : Master) (w : Nat) (a : Addr) (far : FarReply) (s : State), w < 2 ^ 20 → (∀ ch, s.dev.dmaBusy ch = false) →
    (a.toNat = 0x800_0000 + 8 * w ∧ m ≠ .host) ∨ a.toNat = 0x200_0000 + 8 * w →
    (∀ bs : List Byte, bs.length = 8 →
      ∃ t, exec (.masterAccess m a (.write bs) ⟨[], far⟩) s = .next t ∧
        symbolsAt t.mem.sram (10 * w) = bs.map BitVec.toNat ++ rsEncode8 (bs.map BitVec.toNat) ∧
        (∀ k, k < 10 * w ∨ 10 * w + 10 ≤ k → sget t.mem.sram (0 : Byte) k = sget s.mem.sram (0 : Byte) k) ∧
        s.keeps t [.cfg, .sram] (fun _ => False)) ∧
    (∀ b : List Nat, rsDecode8 (symbolsAt s.mem.sram (10 * w)) = .clean b → b.length = 8 →
      ∃ t, exec (.masterAccess m a (.read 8) ⟨[], far⟩) s = .next t ∧
        t.dev.sent = .data m (toBytes b) :: s.dev.sent ∧ s.keeps t [.cfg, .sent] (fun _ => False))

/-- An access to an unmapped address moves no data, makes an entry and is answered as R20 says (01_architecture.md).
-/
def Obligations.UnmappedAccessAnswered : Prop :=
  (∀ (a : Addr) (op : AccessOp) (env : AccessEnv) (s : State),
    ¬ (a.toNat + opLen op ≤ 0x400_0000) → ¬ (0x40_0000_0000 ≤ a.toNat ∧ a.toNat + opLen op ≤ 0x60_0000_0000) →
    exec (.masterAccess .host a op env) s = .next s) ∧
  ∀ (m : Master) (a : Addr) (write : Bool) (n : Nat) (bs : List Byte) (far : FarReply) (s : State),
    (m = .jtag ∨ m = .host ∨ ∃ c, m = .core c) →
    (m ≠ .host ∧ 0x900_0000 ≤ a.toNat ∧ a.toNat < 0x20_0000_0000) ∨
      (((0x120_0000 ≤ a.toNat ∧ a.toNat < 0x200_0000) ∨ 0x280_0000 ≤ a.toNat) ∧
        a.toNat + (if write then bs.length else n) ≤ 0x400_0000) →
    (∀ ch, s.dev.dmaBusy ch = false) → s.dev.boardTwin 0x0100 0x17 = none →
    ∃ t e, exec (.masterAccess m a (if write then .write bs else .read n) ⟨[], far⟩) s = .next t ∧
      t.dev.flt.board = (e :: s.dev.flt.board).take 4096 ∧ e.code = 0x0100 ∧ e.d0 = a.toNat ∧ e.d1 = writerCode m ∧
      (∀ c, m = .core c → t.dev.sent = .accessFault m write :: s.dev.sent) ∧
      (m = .host → t.dev.sent = (if write then Output.discarded .host else .completerAbort .host) :: s.dev.sent) ∧
      (m = .jtag → t.dev.top.jtagErr = true ∧
        t.dev.sent = (if write then Output.discarded .jtag else .data .jtag [0, 0, 0, 0]) :: s.dev.sent) ∧
      (m ≠ .jtag → t.dev.top = s.dev.top) ∧ s.keeps t [.cfg, .flt, .sent, .top] (fun _ => False)

/-- Applying the shadows: a value in its ranges is copied, a budget is capped by the image's, a value out of range
is not applied (02_cue_sheet.md). -/
def Obligations.StagedAppliedAtActBoundary : Prop :=
  ∀ (d : Dev) (off : Nat) (v : W32), d.shadows = [(off, v)] → setOf off = off → off ≠ 0x60_0100 →
    ¬ (0x93_0000 ≤ off ∧ off < 0x93_0400) →
    d.applyShadows.shadows = [] ∧
    (d.inRanges off (d.proposed off v) = true → d.hwAllows off (d.proposed off v) = true → pairOwner off = none →
      (budgetOf off = none → d.applyShadows.rd off = d.proposed off v) ∧
      (∀ k, budgetOf off = some k → d.image.budgets.getD k.val 0 < 2 ^ 24 →
        (d.image.budgets.getD k.val 0 < fget (d.proposed off v) 0 24 →
          d.applyShadows.fld off 0 24 = d.image.budgets.getD k.val 0 ∧ d.applyShadows.flag off 31 = true) ∧
        (fget (d.proposed off v) 0 24 ≤ d.image.budgets.getD k.val 0 → d.applyShadows.rd off = d.proposed off v)) ∧
      ∀ a, a ≠ off → d.applyShadows.rd a = d.rd a) ∧
    (d.inRanges off (d.proposed off v) = false → off ≠ rParamReject → off < 2 ^ 26 →
      d.applyShadows.rd off = d.rd off ∧ d.applyShadows.flag rParamReject 31 = true ∧
        d.applyShadows.fld rParamReject 0 26 = off)

/-- The act boundary's work is done once, at cycle 0 of beat 0, and then nothing is done until the next act
(02_cue_sheet.md). -/
def Obligations.ActBoundaryRuns : Prop :=
  (∀ s : State, s.dev.atAct = true → s.dev.cue.actDone = false → s.dev.clockStands = false →
    exec .actBoundary s = .next (s.onDev Dev.actBoundary).goOn) ∧
  (∀ s : State, s.dev.atAct = true → s.dev.cue.actDone = false → s.dev.clockStands = false →
    (∀ ch, s.dev.dmaBusy ch = false) →
    ∃ t, exec .actBoundary s = .next t ∧ t.dev.shadows = [] ∧ t.dev.cue.actDone = true ∧
      t.dev.cue.act = s.dev.cue.act ∧ t.dev.cue.beat = s.dev.cue.beat ∧ (∀ h : Head, Output.sysref h ∈ t.dev.sent) ∧
      exec .actBoundary t = .next t) ∧
  (∀ d : Dev, (∀ k : Fin 7, d.renewBudgets.cue.used[k] = 0 ∧ d.renewBudgets.cue.hit[k] = false) ∧
    d.renewBudgets.cue.act = d.cue.act) ∧
  ∀ s : State, (s.dev.atAct = false ∨ s.dev.cue.actDone = true ∨ s.dev.clockStands = true) →
    exec .actBoundary s = .next s

/-- An offset that names no register reads as 0 and ignores writes, without an entry; only two ranges are unmapped
(R416). -/
def Obligations.OffsetWithoutRegister : Prop :=
  (∀ (m : Master) (off : Off) (be : BitVec 4) (v : W32) (s : State), regRow off.toNat = none → off.toNat % 4 = 0 →
    off.toNat < 0x120_0000 → ¬ (0xE1_0000 ≤ off.toNat ∧ off.toNat < 0xE5_0000) →
    ¬ (0x100_1000 ≤ off.toNat ∧ off.toNat < 0x100_A000) → off.toNat < 0x110_0000 → (∀ ch, s.dev.dmaBusy ch = false) →
    (∃ t, exec (.readClear m off) s = .next t ∧ t.dev.sent = .data m [0, 0, 0, 0] :: s.dev.sent ∧
      s.keeps t [.cfg, .sent] (fun _ => False)) ∧
    (∃ t, exec (.registerWrite m off be v []) s = .next t ∧ s.keeps t [.cfg] (fun _ => False))) ∧
  ∀ off : Nat, off < 0x400_0000 →
    (localDest off = .unmapped ↔ (0x120_0000 ≤ off ∧ off < 0x200_0000) ∨ (0x280_0000 ≤ off ∧ off < 0x400_0000))

/-! ### The cue fabric and the run modes (01_architecture.md, 02_cue_sheet.md) -/

/-- A mode request whose condition holds is accepted: it waits for its act boundary, or makes a schedule fault
(01_architecture.md, 02_cue_sheet.md). -/
def Obligations.ModeRequestsAccepted : Prop :=
  ∀ (m : Master) (s : State), s.dev.flag rPwrStat 8 = false → s.dev.flag rTopMode 8 = false → s.dev.cue.fault = none →
    s.dev.safeStopped = false →
    (s.dev.rehearsal = true → s.dev.flag rCalCtl 3 = true →
      ∃ t, exec (.reqPerformance m) s = .next t ∧ t.dev.cue.request = some 1 ∧ t.dev.flag rTopMode 8 = true ∧
        t.dev.mode = s.dev.mode ∧ s.keeps t [.cue] (· ∈ [rTopMode, rEvcnt 35])) ∧
    ((s.dev.performance = true ∨ (s.dev.ghostLight = true ∧ s.dev.spindleStopped = true)) →
      ∃ t, exec (.reqRehearsal m) s = .next t ∧ t.dev.cue.request = some 2 ∧ t.dev.flag rTopMode 8 = true ∧
        t.dev.mode = s.dev.mode ∧ s.keeps t [.cue] (· ∈ [rTopMode, rEvcnt 35])) ∧
    (s.dev.ghostLight = false →
      ∃ t, exec (.reqGhostLight m) s = .next t ∧
        t.dev.cue.fault = some { engine := 0, cause := 4, chain := 0xFF, slot := s.dev.cue.slot.val } ∧
        t.dev.mode = s.dev.mode ∧ (∀ h : Head, t.dev.flag (rWrpStat h) 0 = false) ∧
        (s.dev.flag rCueFaultWhat 16 = false →
          t.dev.fld rCueFaultWhat 0 4 = 0 ∧ t.dev.fld rCueFaultWhat 4 4 = 4 ∧ t.dev.flag rCueFaultWhat 16 = true) ∧
        t.mem = s.mem)

/-- A mode request that the table of transitions does not allow is refused with its reason, and the mode stays
(01_architecture.md). -/
def Obligations.ModeRequestsRefused : Prop :=
  ∀ (m : Master) (s : State) (c : Instr) (why : Nat),
    (s.dev.flag rPwrStat 8 = true ∧ why = 1 ∧ c ∈ [Instr.reqPerformance m, .reqRehearsal m, .reqGhostLight m]) ∨
    (s.dev.flag rPwrStat 8 = false ∧ s.dev.flag rTopMode 8 = true ∧ why = 4 ∧
      c ∈ [Instr.reqPerformance m, .reqRehearsal m, .reqGhostLight m]) ∨
    (s.dev.flag rPwrStat 8 = false ∧ s.dev.flag rTopMode 8 = false ∧
      (s.dev.cue.fault.isSome = true ∨ s.dev.safeStopped = true) ∧ why = 2 ∧
      c ∈ [Instr.reqPerformance m, .reqRehearsal m, .reqGhostLight m]) ∨
    (s.dev.flag rPwrStat 8 = false ∧ s.dev.flag rTopMode 8 = false ∧ s.dev.cue.fault = none ∧ s.dev.safeStopped = false ∧
      ((c = .reqGhostLight m ∧ s.dev.ghostLight = true ∧ why = 2) ∨
       (c = .reqPerformance m ∧ s.dev.rehearsal = false ∧ why = 2) ∨
       (c = .reqPerformance m ∧ s.dev.rehearsal = true ∧ s.dev.flag rCalCtl 3 = false ∧ why = 1) ∨
       (c = .reqRehearsal m ∧ s.dev.rehearsal = true ∧ why = 2) ∨
       (c = .reqRehearsal m ∧ s.dev.ghostLight = true ∧ s.dev.spindleStopped = false ∧ why = 3))) →
    ∃ t, exec c s = .next t ∧ t.dev.flag rTopMode 9 = true ∧ t.dev.fld rTopMode 12 4 = why ∧
      t.dev.mode = s.dev.mode ∧ s.keeps t [] (· = rTopMode)

/-- At an act boundary an accepted request changes the mode; away from one, with a fault or after a safe stop, it
waits (01_architecture.md). -/
def Obligations.ModeChangesAtActBoundary : Prop :=
  (∀ s : State, s.dev.atAct = true → s.dev.cue.fault = none → s.dev.safeStopped = false → s.dev.cue.request = some 1 →
    ∃ t, exec .modeTransition s = .next t ∧ t.dev.mode = 1 ∧ t.dev.flag rTopMode 8 = false ∧
      t.dev.cue.request = none ∧ t.mem = s.mem) ∧
  (∀ s : State, s.dev.atAct = true → s.dev.cue.fault = none → s.dev.safeStopped = false → s.dev.cue.request = some 2 →
    (s.dev.ghostLight = true ∨
      (s.dev.ghostLight = false ∧ s.dev.uncommitted = false ∧ s.dev.hq.cmds.any (·.started) = false)) →
    ∃ t, exec .modeTransition s = .next t ∧ t.dev.mode = 0 ∧ t.dev.flag rTopMode 8 = false ∧
      t.dev.cue.request = none ∧ t.mem = s.mem) ∧
  ∀ s : State, (s.dev.cue.request = none ∨ s.dev.atAct = false ∨ s.dev.cue.fault.isSome = true ∨
    s.dev.safeStopped = true) →
    exec .modeTransition s = .next s

/-- A quiet beat boundary counts the beat, wraps into the next act, and has the engines sample their live registers
(02_cue_sheet.md, 03_zrf_medium.md). -/
def Obligations.QuietBeatAdvances : Prop :=
  (∀ s : State, s.quiet → s.dev.cue.pending = [] →
    ∃ t, exec .beatBoundary s = .next t ∧ t.dev.cue.beat.val = (s.dev.cue.beat.val + 1) % 1024 ∧
      t.dev.cue.act = (if s.dev.cue.beat.val = 1023 then (s.dev.cue.act + 1) % 2 ^ 64 else s.dev.cue.act) ∧
      t.dev.cue.slot = 0 ∧ t.dev.sampled = s.dev.regs ∧ t.dev.cue.byHand = [] ∧
      t.dev.ns + 1000000000 * t.dev.sec = s.dev.ns + 1250 + 1000000000 * s.dev.sec ∧
      (∀ h : Head, let w := s.dev.heads[h].wobble
        t.dev.fld (rWaddrLo h) 0 22 = w.next % 2 ^ 22 ∧ t.dev.fld (rWaddrLo h) 22 9 = w.count / 1350000000 % 512 ∧
        t.dev.flag (rWaddrLo h) 31 = (w.seen && !s.dev.flag (rWstat h) 9) ∧
        t.dev.fld (rWaddrHi h) 0 15 = turnOf (512 * w.next) % 2 ^ 15) ∧
      s.keeps t [.cue, .clock, .sampled, .cfg, .heads, .axes, .sent] positionReg) ∧
  ∀ s : State, s.dev.clockStands = true → ∃ t, exec .beatBoundary s = .next t ∧ s.keeps t [.cfg] (fun _ => False)

/-- A pending event's chain starts at the boundary, and at its last beat it ends or its event is latched again
(02_cue_sheet.md). -/
def Obligations.PendingEventStartsItsChain : Prop :=
  (∀ (s : State) (e : PendEvent) (c : ChainHdr), s.quiet → s.dev.cue.pending = [e] → 64 ≤ e.line.val →
    s.dev.chainOf e.line = some c →
    ∃ t r, exec .beatBoundary s = .next t ∧ t.dev.cue.running = [r] ∧ r.ev = e ∧ r.length = c.length ∧ r.elapsed = 1 ∧
      r.startBeat = (s.dev.cue.beat.val + 1) % 1024 ∧ t.dev.cue.pending = [] ∧
      (∃ x ∈ t.dev.flt.board, x.code = 0x0102 ∧ x.d0 = e.line.val) ∧
      s.keeps t [.cue, .clock, .sampled, .cfg, .flt, .heads, .axes, .sent] positionReg) ∧
  ∀ (s : State) (r : RunChain) (asserted : Bool), s.dev.cue.running = [r] → 64 ≤ r.ev.line.val →
    (r.elapsed < r.length → exec (.chainEnd r.ev.line asserted) s = .next s) ∧
    (r.length ≤ r.elapsed → s.dev.cue.pending = [] →
      ∃ t, exec (.chainEnd r.ev.line asserted) s = .next t ∧ t.dev.cue.running = [] ∧
        (let e : PendEvent := { r.ev with act := s.dev.cue.act, pos := s.dev.pos, waited := 0 };
          t.dev.cue.pending = if asserted then [e] else []) ∧
        (∃ x ∈ t.dev.flt.board, x.code = 0x0103 ∧ x.d0 = r.ev.line.val) ∧
        s.keeps t [.cue, .flt] (fun _ => False))

/-- The prompter: done claims and good words pass with their slack; a late claim faults, halts its engine and closes
the gates (02_cue_sheet.md). -/
def Obligations.PrompterChecksClaims : Prop :=
  (∀ (s : State) (slot : Fin 10) (cs : List ClaimDone) (ws : List CueRead), s.dev.fabric = true →
    (∀ c ∈ cs, s.dev.claimDone c = true) → (∀ w ∈ ws, s.dev.wordOk slot w = true) →
    ∃ t, exec (.prompterCheck slot cs ws) s = .next t ∧ t.dev.cue.fault = s.dev.cue.fault ∧
      t.dev.cue.slot = slot ∧ (∀ c ∈ cs, t.dev.fld (rSlack c.engine) 0 11 ≤ c.slack) ∧
      s.keeps t [.cue, .cfg] (fun a => ∃ n : Fin 12, a = rSlack n)) ∧
  (∀ (s : State) (slot : Fin 10) (c : ClaimDone), s.dev.fabric = true → s.dev.ghostLight = false →
    s.dev.cue.fault = none → s.dev.claimDone c = false →
    ∃ t, exec (.prompterCheck slot [c] []) s = .next t ∧
      (∃ f, t.dev.cue.fault = some f ∧ f.engine = c.engine.val ∧ f.cause = 1 ∧ f.slot = slot.val ∧
        (∀ l, c.chain = some l → f.chain = l.val) ∧ (c.chain = none → f.chain = 0xFF)) ∧
      t.dev.cue.halted.getLsbD c.engine.val = true ∧ (∀ h : Head, t.dev.flag (rWrpStat h) 0 = false) ∧
      (s.dev.flag rCueFaultWhat 16 = false → t.dev.fld rCueFaultWhat 0 4 = c.engine.val ∧
        t.dev.fld rCueFaultWhat 4 4 = 1 ∧ t.dev.flag rCueFaultWhat 16 = true) ∧ t.mem = s.mem) ∧
  (∀ (s : State) (slot : Fin 10) (w : CueRead), s.dev.fabric = true → s.dev.ghostLight = false →
    s.dev.cue.fault = none → s.dev.wordOk slot w = false →
    ∃ t, exec (.prompterCheck slot [] [w]) s = .next t ∧
      (∃ f, t.dev.cue.fault = some f ∧ f.engine = cueEngine w.word ∧ f.cause = 2 ∧ f.slot = slot.val) ∧
      (∀ n : Fin 12, n.val = cueEngine w.word → t.dev.engineHalted n = true) ∧
      (∀ h : Head, t.dev.flag (rWrpStat h) 0 = false) ∧ t.mem = s.mem) ∧
  (∀ (c : Core) (s : State), (s.dev.flag (rCoreStat c) 0 = false ∨ s.dev.engineHalted (Fin.ofNat 12 (8 + c.val)) = true) →
    exec (.coreWfi c) s = .next s) ∧
  (∀ (c : Core) (s : State), s.dev.flag (rCoreStat c) 0 = true → s.dev.engineHalted (Fin.ofNat 12 (8 + c.val)) = false →
    (s.dev.flag (rCoreCtl c) 0 = true → ∃ t, exec (.coreWfi c) s = .next t ∧ t.dev.cue.coreDone[c] = true ∧
      s.keeps t [.cue] (fun _ => False)) ∧
    (s.dev.flag (rCoreCtl c) 0 = false → ∃ t, exec (.coreWfi c) s = .next t ∧ t.dev.flag (rCoreStat c) 2 = true ∧
      s.keeps t [] (· = rCoreStat c))) ∧
  ∀ (m : Master) (n : Fin 12) (s : State), ∃ t, exec (.slackClear m n) s = .next t ∧
    t.dev.fld (rSlack n) 0 11 = 0x7FF ∧ s.keeps t [] (· = rSlack n)

/-- An accepted injection counts the event and latches it as its source would; a refused one sets REFUSED and WHY
(02_cue_sheet.md). -/
def Obligations.InjectedEventIsRaised : Prop :=
  ∀ (m : Master) (ev : BitVec 8) (s : State),
    let ok := 64 ≤ ev.toNat ∨ (1 ≤ ev.toNat ∧ s.dev.image.injectable.getLsbD ev.toNat = true)
    let line : Fin 256 := Fin.ofNat 256 ev.toNat
    (ok → ¬ (s.dev.performance = true ∧ s.dev.fld rLifecycle 0 2 = 1) →
      ∃ t, exec (.eventInject m ev) s = .next t ∧ t.mem = s.mem ∧
        t.dev.fld (rEvcnt line) 0 16 = min (s.dev.fld (rEvcnt line) 0 16 + 1) 0xFFFF ∧
        (ev = 32 → ∃ r : RingId, t.dev.hq.rings[r].defers = [] ∧ ∀ e ∈ t.dev.hq.entries, e.1 ≠ CmdSrc.ring r) ∧
        (ev = 34 → s.dev.hq.curtain = none → ∃ k, t.dev.hq.curtain = some k ∧ k.cmd = none ∧ k.start = s.dev.beats ∧
          k.final = false ∧ ∀ r : RingId, t.dev.hq.rings[r].defers = [])) ∧
    (ok → ¬ (s.dev.performance = true ∧ s.dev.fld rLifecycle 0 2 = 1) → 13 ≤ ev.toNat → ev.toNat ≤ 16 →
      ∃ t, exec (.eventInject m ev) s = .next t ∧
        (∀ x : Side, t.dev.sides[x].stopHome = (s.dev.sides[x].stopHome ||
          (decide (x = sideOf (Fin.ofNat 4 (ev.toNat - 13))) && s.dev.verified x))) ∧
        s.keeps t [.cue, .sides] (· = rEvcnt line)) ∧
    (ok → ¬ (s.dev.performance = true ∧ s.dev.fld rLifecycle 0 2 = 1) → ¬ (13 ≤ ev.toNat ∧ ev.toNat ≤ 16) → ev ≠ 32 →
      ¬ (ev = 34 ∧ s.dev.hq.curtain = none) →
      ∃ t, exec (.eventInject m ev) s = .next t ∧
        t.dev.fld (rEvcnt line) 0 16 = min (s.dev.fld (rEvcnt line) 0 16 + 1) 0xFFFF ∧
        (s.dev.fabric = true → s.dev.chainRuns line = false → (∀ e ∈ s.dev.cue.pending, e.line ≠ line) →
          ∃ e, t.dev.cue.pending = s.dev.cue.pending ++ [e] ∧ e.line = line ∧ e.waited = 0) ∧
        s.keeps t [.cue] (· = rEvcnt line)) ∧
    ((¬ ok ∨ (s.dev.performance = true ∧ s.dev.fld rLifecycle 0 2 = 1)) →
      ∃ t, exec (.eventInject m ev) s = .next t ∧ t.dev.flag rCueInject 9 = true ∧
        (t.dev.fld rCueInject 12 4 = 1 ∨ t.dev.fld rCueInject 12 4 = 2) ∧ s.keeps t [] (· = rCueInject))

/-- A write to a cue-owned register is counted and recorded, with at most one entry per act (R65). -/
def Obligations.CueOwnedWriteCounted : Prop :=
  ∀ (m : Master) (off : Off) (v : W32) (s : State) (r : RegRow), regRow off.toNat = some r → r.cls = .cueOwned →
    ∃ t, exec (.cueOwnedWrite m off v) s = .next t ∧
      t.dev.fld rOwnedHit 0 16 = min (s.dev.fld rOwnedHit 0 16 + 1) 0xFFFF ∧
      t.dev.fld rOwnedHit 16 8 = writerCode m ∧ t.dev.fld rOwnedAddr 0 26 = off.toNat ∧
      (∀ id, m = .peer id → writerCode m = 0x80) ∧
      (s.dev.cue.ownedEntry = true → t.dev.flt = s.dev.flt) ∧
      (s.dev.cue.ownedEntry = false → t.dev.cue.ownedEntry = true ∧
        (s.dev.boardTwin 0x0101 0x0C = none → ∃ e, t.dev.flt.board = (e :: s.dev.flt.board).take 4096 ∧
          e.code = 0x0101 ∧ e.d0 = off.toNat ∧ e.d1 = v.toNat ∧ e.d3 % 2 ^ 16 = writerCode m ∧
          ∀ id, m = .peer id → e.d3 / 2 ^ 16 = id.val)) ∧
      s.keeps t [.cue, .flt] (· ∈ [rOwnedHit, rOwnedAddr])

/-- At an act boundary the accepted image takes over in the other bank; the phases of ghost light go forward on
their conditions (02_cue_sheet.md, 09_live_calibration.md). -/
def Obligations.BankSwapAndGhostPhases : Prop :=
  (∀ (s : State) (img : CueImage) (slot : Nat), s.dev.cue.swap = some (img, slot) → s.dev.atAct = true →
    ∃ t, exec .bankSwap s = .next t ∧ t.dev.cue.banks = s.dev.cue.banks.set s.dev.otherBank img ∧
      (∀ h : Head, ∀ j : Spot, (t.dev.heads[h].spots[j]).win = .reset) ∧ t.dev.cue.swap = none ∧
      t.mem = s.mem ∧
      (img.ranges = [] → s.dev.hq.activate = none → t.dev.image = img ∧
        t.dev.flag rCueStatus 1 = !s.dev.flag rCueStatus 1 ∧ t.dev.rd rImageVer = BitVec.ofNat 32 img.version) ∧
      (∀ c, s.dev.hq.cmds = [c] → s.dev.hq.activate = some c.order → t.dev.hq.cmds = [] ∧ t.dev.hq.activate = none ∧
        t.dev.flag rHqCtl 8 = false)) ∧
  (∀ s : State, (s.dev.cue.swap = none ∨ s.dev.atAct = false) →
    ∃ t, exec .bankSwap s = .next t ∧ s.keeps t [.cfg] (fun _ => False)) ∧
  (∀ s : State, s.dev.ghostLight = true → s.dev.fld rCueStatus 4 2 = 0 →
    (s.dev.image.glRamp + 2 ≤ s.dev.cue.glBeat → ∃ t, exec .glPhaseAdvance s = .next t ∧ t.dev.fld rCueStatus 4 2 = 1 ∧
      (∀ h : Head, t.dev.heads[h].lasers = false) ∧
      (∀ (h : Head) (j : Spot) (l : Fin 4), s.dev.heads[h].lanes = true →
        Output.control h (powerBlock j.val l.val 0) ∈ t.dev.sent) ∧ s.keeps t [.heads, .sent] (· = rCueStatus)) ∧
    (s.dev.cue.glBeat < s.dev.image.glRamp + 2 → exec .glPhaseAdvance s = .next s)) ∧
  (∀ s : State, s.dev.ghostLight = true → s.dev.fld rCueStatus 4 2 = 1 →
    (s.dev.sledsParked = true → ∃ t, exec .glPhaseAdvance s = .next t ∧ t.dev.fld rCueStatus 4 2 = 2 ∧
      s.keeps t [] (· = rCueStatus)) ∧
    (s.dev.sledsParked = false → exec .glPhaseAdvance s = .next s)) ∧
  (∀ s : State, s.dev.ghostLight = true → s.dev.fld rCueStatus 4 2 = 2 →
    (s.dev.spindleStopped = true → ∃ t, exec .glPhaseAdvance s = .next t ∧ t.dev.fld rCueStatus 4 2 = 3 ∧
      t.dev.spn.driven = false ∧ s.keeps t [.spn, .sent] (· ∈ [rCueStatus, rSpnStat])) ∧
    (s.dev.spindleStopped = false → exec .glPhaseAdvance s = .next s)) ∧
  ∀ s : State, (s.dev.ghostLight = false ∨ s.dev.fld rCueStatus 4 2 = 3) → exec .glPhaseAdvance s = .next s

/-! ### Buffer memory, stage cache and DMA (11_buffer_memory.md, 12_stage_cache_dma.md, 14_fault_handling.md) -/

/-- Merge flush, patrol scrub and SRAM scrub: what they store and where they go on (11_buffer_memory.md,
14_fault_handling.md). -/
def Obligations.BufferUpkeep : Prop :=
  (∀ s : State, s.mem.merge = [] → exec (.mergeFlush []) s = .next s) ∧
  (∀ (s : State) (e : MergeEntry) (rest : List MergeEntry), s.mem.merge = e :: rest →
    ∃ t, exec (.mergeFlush []) s = .next t ∧ t.mem.merge = rest.filter (fun x => x.line != e.line) ∧
      t.mem.lines = s.mem.lines ∧ t.mem.sram = s.mem.sram ∧ t.mem.flash = s.mem.flash ∧
      ∀ w < 8, ∀ ds : List Byte, ds.length = 8 →
        (∀ i < 8, (e.bytes.find? fun n => n.1.val / 8 == w && n.1.val % 8 == i).map (·.2.1) = ds[i]?) →
        (e.bytes.filter fun n => n.1.val / 8 == w).length = 8 →
        symbolsAt t.mem.dram (s.dev.dramKey (e.line * 64 + 8 * w)) =
          ds.map BitVec.toNat ++ rsEncode8 (ds.map BitVec.toNat)) ∧
  (∀ s : State, s.dev.fld rScrubCfg 0 16 ≠ 0 → s.dev.flag rBufStat 2 = false → s.dev.flag rBufStat 3 = true →
    s.dev.fabric = true →
    let line := s.dev.fld rScrubPos 0 31
    s.dev.pageRetired (line * 64) = false → (∀ e ∈ s.mem.merge, e.line ≠ line) →
    (∀ w < 8, ∃ b, rsDecode8 (symbolsAt s.mem.dram (s.dev.dramKey (line * 64 + 8 * w))) = .clean b) →
    ∃ t, exec (.scrubLine []) s = .next t ∧
      t.dev.fld rScrubPos 0 31 = (if line + 1 < s.dev.mappedBytes / 64 then (line + 1) % 2 ^ 31 else 0) ∧
      s.keeps t [] (· = rScrubPos)) ∧
  (∀ (s : State) (b : List Nat), s.dev.buf.sramPos < 1048576 →
    rsDecode8 (symbolsAt s.mem.sram (s.dev.buf.sramPos * 10)) = .clean b →
    ∃ t, exec (.sramScrub []) s = .next t ∧ t.dev.buf.sramPos = (s.dev.buf.sramPos + 1) % 1048576 ∧
      s.keeps t [.buf] (fun _ => False)) ∧
  ∀ (s : State) (b : List Nat) (i s0 s1 : Nat), b.length = 8 → (∀ x ∈ b, x < 256) →
    rsDecode8 (symbolsAt s.mem.sram (s.dev.buf.sramPos * 10)) = .corrected b i s0 s1 →
    ∃ t, exec (.sramScrub []) s = .next t ∧ t.dev.buf.sramPos = (s.dev.buf.sramPos + 1) % 1048576 ∧
      symbolsAt t.mem.sram (s.dev.buf.sramPos * 10) = b ++ rsEncode8 b ∧
      t.dev.fld rSramStat 0 16 = min (s.dev.fld rSramStat 0 16 + 1) 0xFFFF ∧
      s.keeps t [.buf, .sram] (· ∈ [rSramStat, rGcnt 6])

/-- Retiring pages and banks, step by step, with the wipe and the return of the aliases (11_buffer_memory.md). -/
def Obligations.RetirementSteps : Prop :=
  (∀ (m : Master) (p : BitVec 21) (s : State), s.dev.flag rRetireStat 16 = false →
    (∀ e ∈ s.dev.buf.pages, e.1 ≠ p.toNat) → 65536 * p.toNat < s.dev.mappedBytes → s.dev.buf.pages.length < 1024 →
    s.dev.fwPage p.toNat = false →
    ∃ t, exec (.retirePage m p) s = .next t ∧ t.dev.buf.pages = s.dev.buf.pages ++ [(p.toNat, false)] ∧
      t.dev.fld rRetireStat 0 11 = s.dev.buf.pages.length + 1 ∧ (∃ x ∈ t.dev.flt.board, x.code = 0x0114 ∧ x.d0 = p.toNat) ∧
      s.keeps t [.buf, .flt] (· = rRetireStat)) ∧
  (∀ (p : BitVec 21) (s : State), (p.toNat, false) ∈ s.dev.buf.pages →
    ∃ t, exec (.pageRetired p) s = .next t ∧ (p.toNat, true) ∈ t.dev.buf.pages ∧
      (∀ o, o / 65536 = p.toNat → t.dev.dramMapped o = false) ∧
      t.dev.cfg.waiting = s.dev.cfg.waiting ++ [.retirement] ∧ s.keeps t [.buf, .flt, .cfg] (· = rRetireStat)) ∧
  (∀ (m : Master) (b : BitVec 5) (s : State), s.dev.flag rRetireStat 16 = false →
    (s.dev.rehearsal = false → ∃ t, exec (.retireBank m b) s = .next t ∧ t.dev.fld rRetireStat 12 4 = 3 ∧
      s.keeps t [] (· = rRetireStat)) ∧
    (s.dev.rehearsal = true → s.dev.bufferHeld = false → 28 < s.dev.nb → s.dev.buf.retired.getLsbD b.toNat = false →
      (∀ k : Fin 4, s.mem.waits[k] = []) →
      ∃ t, exec (.retireBank m b) s = .next t ∧ t.dev.buf.retired.getLsbD b.toNat = true ∧
        t.dev.flag rBufStat 3 = false ∧ t.dev.flag rBufStat 2 = true ∧ t.dev.flag rRetireStat 16 = true ∧
        t.mem.lines = [] ∧ s.keeps t [.buf, .cache] (· ∈ [rRetireStat, rBufStat]))) ∧
  (∀ s : State, s.dev.flag rBufStat 2 = true →
    ∃ t, exec .wipeEnd s = .next t ∧ t.mem.dram = [] ∧ t.mem.sram = [] ∧ t.mem.merge = [] ∧
      t.dev.flag rBufStat 2 = false ∧ (s.dev.buf.retiring = none → t.dev.flag rBufStat 3 = true) ∧
      (s.dev.buf.retiring ≠ none → t.dev.flag rBufStat 3 = s.dev.flag rBufStat 3) ∧
      s.keeps t [.dram, .sram, .cache] (· ∈ [rBufStat, rScrubPos])) ∧
  ∀ (b : Fin 32) (s : State), s.dev.buf.retiring = some b → s.dev.flag rBufStat 2 = false →
    ∃ t, exec .bankDone s = .next t ∧ t.dev.buf.retiring = none ∧ t.dev.flag rBufStat 3 = true ∧
      t.dev.flag rRetireStat 16 = false ∧ t.dev.flag rRetireStat 17 = true ∧
      t.dev.cfg.waiting = s.dev.cfg.waiting ++ [.retirement] ∧
      s.keeps t [.buf, .cfg, .flt] (· ∈ [rBufStat, rRetireStat])

/-- The stage cache: a fill places its line, maintenance runs once accepted, disabling drains
(12_stage_cache_dma.md). -/
def Obligations.StageCacheCommands : Prop :=
  (∀ (b : Fin 4) (f : Fill) (data : List Byte) (s : State), s.mem.fills[b] = some f → f.prefetch = true →
    s.mem.waits[b] = [] → s.mem.way (f.line * 64) = none → (s.bufRead (f.line * 64) 64 f.req).2 = some data →
    ∃ t w, exec (.cacheFillDone b []) s = .next t ∧ t.mem.fills[b] = none ∧ t.mem.way (f.line * 64) = some w ∧
      sfind t.mem.lines (scSet (f.line * 64) * 16 + w) =
        some { tag := scTag (f.line * 64), dirty := false, data, presence := 0 }) ∧
  (∀ (m : Master) (v : W32) (c : Instr) (op : Nat) (s : State),
    (op, c) ∈ [(1, Instr.maintClean m v), (2, .maintInvalidate m v), (3, .maintCleanInvalidate m v)] →
    s.dev.flag rScMaintStat 0 = false → (fget v 3 2 = 1 ∨ fget v 3 2 = 2) →
    (s.dev.performance = true → ∃ t, exec c s = .next t ∧ t.dev.flag rScMaintStat 2 = true ∧
      t.dev.fld rScMaintStat 4 4 = 1 ∧ s.keeps t [] (· = rScMaintStat)) ∧
    (s.dev.performance = false → s.dev.scState = 1 → ∃ t o, exec c s = .next t ∧
      t.dev.flag rScMaintStat 0 = true ∧ t.mem.maint = some o ∧ o.op = op ∧ o.how = fget v 3 2 ∧
      o.set = fget v 5 12 ∧ o.way = fget v 17 4 ∧ t.mem.lines = s.mem.lines ∧
      s.keeps t [.cache] (· ∈ [rScMaint, rScMaintStat]))) ∧
  (∀ (m : Master) (v : W32) (s : State), s.dev.flag rScMaintStat 0 = false →
    (∃ t, exec (.maintNone m v) s = .next t ∧ t.dev.flag rScMaintStat 1 = true ∧
      s.keeps t [] (· ∈ [rScMaint, rScMaintStat])) ∧
    ∀ off : Nat, fget v 3 2 = 0 → s.dev.scState = 1 → off % 64 = 0 → s.dev.flag rBufStat 3 = true →
      off < s.dev.mappedBytes → off < 2 ^ 37 →
      (s.dev.rd rScMaintLo).toNat + s.dev.fld rScMaintHi 0 16 * 2 ^ 32 = 0x20_0000_0000 + off →
      ∃ t o, exec (.maintZeroLine m v) s = .next t ∧ t.dev.flag rScMaintStat 0 = true ∧ t.mem.maint = some o ∧
        o.op = 4 ∧ o.off = off ∧ s.keeps t [.cache] (· ∈ [rScMaint, rScMaintStat])) ∧
  (∀ (o : Maint) (s : State), s.mem.maint = some o → o.op = 2 → o.how = 2 → (∀ b : Fin 4, s.mem.fills[b] = none) →
    ∃ t, exec .maintDone s = .next t ∧ t.mem.maint = none ∧ t.mem.lines = [] ∧ t.mem.dram = s.mem.dram ∧
      t.dev.flag rScMaintStat 0 = false ∧ t.dev.flag rScMaintStat 1 = true ∧
      s.keeps t [.cache] (· = rScMaintStat)) ∧
  (∀ (m : Master) (v : W32) (s : State), s.dev.scState = 1 →
    ∃ t, exec (.scDisable m v) s = .next t ∧ t.dev.scState = 2 ∧ s.keeps t [] (· ∈ [rScCtl, rScStat])) ∧
  (∀ s : State, s.dev.scState = 2 → s.mem.maint = none → (∀ b : Fin 4, s.mem.fills[b] = none) →
    (∀ l ∈ s.mem.lines, l.2.dirty = false) → rising 0 s.mem.lines = true →
    ∃ t, exec .drainEnd s = .next t ∧ t.dev.scState = 0 ∧ t.mem.lines = [] ∧ t.mem.dram = s.mem.dram ∧
      s.keeps t [.cache] (· = rScStat)) ∧
  ∀ (m : Master) (v : W32) (s : State),
    (s.dev.scState = 0 → ∃ t, exec (.scEnable m v) s = .next t ∧ t.dev.scState = 1 ∧ t.mem.lines = [] ∧
      s.keeps t [.cache] (· ∈ [rScCtl, rScStat])) ∧
    (s.dev.scState = 2 → ∃ t, exec (.scEnable m v) s = .next t ∧ t.dev.scState = 2 ∧
      t.dev.flag rScStat 19 = true ∧ s.keeps t [] (· = rScStat))

/-- A DMA channel: start, wait for its line, ask the host, complete on the last response, stop, and link
(12_stage_cache_dma.md). -/
def Obligations.DmaChannelRuns : Prop :=
  (∀ (m : Master) (ch : Chan) (v : W32) (far : List Byte) (s : State), (∀ k, s.dev.dmaBusy k = false) →
    let d : Dev := s.dev.wr (rDmaCtl ch) (v &&& 0xFF_FFFC)
    let n := (d.rd (rDma ch + 0x10)).toNat
    n ≠ 0 → d.dmaBadConfig ch = false → d.dmaSrc ch % d.esize ch = 0 → d.dmaDst ch % d.esize ch = 0 →
    n % d.esize ch = 0 → s.dev.flag (rDmaStat ch) 8 = false →
    (d.dmaReq ch ≠ 0 → ∃ t, exec (.dmaStart m ch v far) s = .next t ∧ t.dev.dmaBusy ch = true ∧
      t.dev.flag (rDmaStat ch) 9 = true ∧ t.dev.dma[ch].left = n / d.esize ch ∧ t.dev.moved ch = 0 ∧
      s.keeps t [.dma, .cfg] (fun a => rDma ch ≤ a ∧ a < rDma ch + 0x40)) ∧
    (d.dmaReq ch = 0 → inHost (d.dmaSrc ch) = true → d.flag (rDmaCtl ch) 6 = true → s.dev.pcie.busMaster = true →
      64 ≤ s.dev.budgetLeft 2 → ∃ t, exec (.dmaStart m ch v []) s = .next t ∧ t.dev.dmaBusy ch = true ∧
        t.dev.sent = .hostRead (d.dmaSrc ch - 2 ^ 47) (min n 64) :: s.dev.sent ∧ t.dev.dma[ch].asked = min n 64 ∧
        t.dev.cue.used[2] = s.dev.cue.used[2] + min n 64 ∧
        s.keeps t [.dma, .cfg, .sent, .cue] (fun a => rDma ch ≤ a ∧ a < rDma ch + 0x40))) ∧
  (∀ (ch : Chan) (far : List Byte) (s : State), s.dev.pacedWait ch = true → s.dev.dma[ch].failing = none →
    s.dev.lineAsserted ch = true →
    ∃ s1 : State, exec (.pacedBurst ch far) s = .next s1.goOn ∧
      s1.dev.dma[ch].burst = min (s.dev.burstOf ch) s.dev.dma[ch].left ∧ s.keeps s1 [.dma] (fun _ => False)) ∧
  (∀ (ch : Chan) (n : Nat) (s : State), s.dev.dmaBusy ch = true → (∀ k, k ≠ ch → s.dev.dmaBusy k = false) →
    s.dev.dma[ch].left = 0 → s.dev.dma[ch].inFlight = n → 0 < n → s.dev.dma[ch].failing = none →
    s.dev.dma[ch].linking = false → s.dev.dmaLinks ch = false → s.dev.moved ch + n < 2 ^ 64 →
    ∃ t, exec (.dmaResponse ch n (.data [])) s = .next t ∧ t.dev.dmaBusy ch = false ∧
      t.dev.flag (rDmaStat ch) 1 = true ∧ t.dev.fld (rDmaStat ch) 3 4 = 0 ∧ t.dev.moved ch = s.dev.moved ch + n ∧
      t.mem = s.mem ∧ t.dev.hq = s.dev.hq ∧ t.dev.heads = s.dev.heads) ∧
  (∀ (ch : Chan) (m : Master) (s : State), s.dev.dmaBusy ch = true → s.dev.dma[ch].inFlight = 0 →
    s.dev.dma[ch].failing = none →
    (∃ t, exec (.dmaStop m ch) s = .next t ∧ t.dev.dmaBusy ch = false ∧ t.dev.flag (rDmaStat ch) 2 = true ∧
      t.dev.fld (rDmaStat ch) 3 4 = 7 ∧ t.mem = s.mem ∧ t.dev.flt = s.dev.flt) ∧
    (s.dev.linkLate ch = false → exec (.linkTimeout ch) s = .next s) ∧
    (s.dev.linkLate ch = true →
      ∃ t, exec (.linkTimeout ch) s = .next t ∧ t.dev.dmaBusy ch = false ∧ t.dev.flag (rDmaStat ch) 2 = true ∧
        t.dev.fld (rDmaStat ch) 3 4 = 6 ∧ t.mem = s.mem)) ∧
  ∀ (ch : Chan) (img : List Byte) (s : State), s.dev.dmaBusy ch = true → s.dev.dma[ch].linking = true →
    inHost (s.dev.dmaLink ch) = true → s.dev.pcie.busMaster = true →
    ∃ s1 : State, exec (.linkFetchDone ch (.data img) []) s = .next s1.goOn ∧ s1.dev.dma[ch].linking = false ∧
      s1.dev.rd (rDma ch) = BitVec.ofNat 32 (leNat (img.take 4)) ∧
      s1.dev.rd (rDma ch + 0x08) = BitVec.ofNat 32 (leNat ((img.drop 8).take 4)) ∧
      s1.dev.rd (rDma ch + 0x10) = BitVec.ofNat 32 (leNat ((img.drop 16).take 4)) ∧ s1.mem = s.mem

/-! ### The medium and the read channels (03_zrf_medium.md, 04_read_channel.md) -/

/-- A valid address word that agrees re-bases the position; a bad one is counted; four bad ones and a band slip take
the gate (03_zrf_medium.md). -/
def Obligations.WobbleAddressFollowed : Prop :=
  ∀ (h : Head) (s : State),
    (∀ w : BitVec 512, s.dev.decodesWobble h = false →
      ∃ t, exec (.addressWord h w) s = .next t ∧ t.dev.heads[h].wobble = s.dev.heads[h].wobble.carry ∧
        s.keeps t [.heads] (fun _ => False)) ∧
    (∀ w : BitVec 512, let bits := addressBits w s.dev.fresh
      let n := bits.toNat / 2 ^ 21 % 2 ^ 22
      s.dev.decodesWobble h = true →
      (symbolAt w 0 = syncSymbol → addressValid bits = true → s.dev.heads[h].wobble.seen = true →
        s.dev.heads[h].wobble.next = n →
        ∃ t, exec (.addressWord h w) s = .next t ∧ t.dev.heads[h].wobble.next = n + 1 ∧
          t.dev.heads[h].wobble.layer = Fin.ofNat 16 (bits.toNat / 2 ^ 58) ∧
          t.dev.heads[h].wobble.side = Fin.ofNat 2 (bits.toNat / 2 ^ 62) ∧ t.dev.heads[h].wobble.discards = 0 ∧
          t.dev.flag (rWstat h) 9 = false ∧ s.keeps t [.heads] (· = rWstat h)) ∧
      (symbolAt w 0 = syncSymbol → addressValid bits = true → s.dev.heads[h].wobble.seen = true →
        s.dev.heads[h].wobble.next ≠ n → s.dev.heads[h].wobble.odd = some n → s.dev.boardTwin 0x0123 0x02 = none →
        ∃ t e, exec (.addressWord h w) s = .next t ∧ t.dev.heads[h].wobble.next = n + 1 ∧
          t.dev.flag (rWstat h) 8 = true ∧ t.dev.flag (rWstat h) 9 = false ∧
          t.dev.flt.board = (e :: s.dev.flt.board).take 4096 ∧ e.code = 0x0123 ∧ e.d0 = h.val ∧
          e.d1 = s.dev.heads[h].wobble.next ∧ e.d2 = n ∧ s.keeps t [.heads, .flt] (· = rWstat h)) ∧
      (symbolAt w 0 ≠ syncSymbol ∨ addressValid bits = false →
        ∃ t, exec (.addressWord h w) s = .next t ∧ t.dev.heads[h].wobble.next = s.dev.heads[h].wobble.next + 1 ∧
          t.dev.heads[h].wobble.discards = s.dev.heads[h].wobble.discards + 1 ∧
          t.dev.fld (rWstat h) 0 8 = min (s.dev.fld (rWstat h) 0 8 + 1) 255 ∧ s.keeps t [.heads] (· = rWstat h))) ∧
    (4 ≤ s.dev.heads[h].wobble.discards → s.dev.flag (rWstat h) 9 = false →
      ∃ t, exec (.wobbleLost h) s = .next t ∧ t.dev.flag (rWstat h) 9 = true ∧ t.dev.flag (rWaddrLo h) 31 = false ∧
        t.dev.heads[h].gateOff = true ∧ s.keeps t [.heads] (· ∈ [rWstat h, rWaddrLo h, rGcnt 0x0F])) ∧
    (s.dev.heads[h].wobble.discards < 4 ∨ s.dev.flag (rWstat h) 9 = true → exec (.wobbleLost h) s = .next s) ∧
    (∀ ps : List (List (Fin 8)), slipOver ps = none ∨ s.dev.flag (rSrvStat h) 2 = false → exec (.bandSlip h ps) s = .next s) ∧
    ∀ p : Fin 8, p ≠ 0 → s.dev.flag (rSrvStat h) 2 = true →
      ∃ t, exec (.bandSlip h (List.replicate 8 (List.replicate 8 p))) s = .next t ∧ t.dev.flag (rWstat h) 10 = true ∧
        t.dev.fld (rWstat h) 11 3 = p.val ∧ t.dev.flag (rSrvStat h) 2 = false ∧ t.dev.flag (rSrvStat h) 3 = false ∧
        t.dev.flag (rWstat h) 9 = true ∧ t.dev.heads[h].gateOff = true ∧
        s.keeps t [.heads] (· ∈ [rWstat h, rSrvStat h, rWaddrLo h, rGcnt 0x0E])

/-- Multiblocks, lane loss, defect spans, zone loads and divergence on a head's read channels (04_read_channel.md).
-/
def Obligations.LanesAndDefects : Prop :=
  (∀ (h : Head) (lane : Fin 4) (blocks : List (List Byte)) (crc : BitVec 12) (s : State),
    ∃ t, exec (.multiblockReceived h lane blocks crc) s = .next t ∧
      t.dev.heads[h].laneBlock[lane] = (s.dev.heads[h].laneBlock[lane] + blocks.length) % 480000 ∧
      (Config.laneCrc blocks.flatten = crc → t.dev.heads[h].crcRun[lane] = 0) ∧
      (Config.laneCrc blocks.flatten ≠ crc → t.dev.heads[h].crcRun[lane] = s.dev.heads[h].crcRun[lane] + 1 ∧
        t.dev.flag (rJesd h) (4 + lane.val) = true ∧
        t.dev.fld (rJesd h) 16 16 = min (s.dev.fld (rJesd h) 16 16 + 1) 0xFFFF) ∧
      s.keeps t [.heads] (fun a => 0x30_0000 + 0x2_0000 * h.val ≤ a ∧ a < 0x32_0000 + 0x2_0000 * h.val)) ∧
  (∀ (h : Head) (c : LaneCause) (lane : Fin 4) (s : State),
    (c = .crc → s.dev.heads[h].crcRun[lane] < 8 → exec (.laneLoss h c lane) s = .next s) ∧
    ((c = .crc → 8 ≤ s.dev.heads[h].crcRun[lane]) →
      ∃ t, exec (.laneLoss h c lane) s = .next t ∧ t.dev.heads[h].job = none ∧ t.dev.heads[h].recover = [] ∧
        t.dev.flag (rJesd h) 8 = true ∧ (∀ j : Spot, t.dev.fld (rSpotStat h j) 0 3 = 0) ∧
        t.dev.fld (rSrvStat h) 8 4 = 2 ∧ t.dev.heads[h].gateOff = true ∧
        t.dev.fld (rEvcnt (headLine 1 h)) 0 16 = min (s.dev.fld (rEvcnt (headLine 1 h)) 0 16 + 1) 0xFFFF ∧
        s.keeps t [.heads, .cue] (fun a => a ∈ [rJesd h, rLadder h, rSrvStat h, rGcnt 0x0C, rEvcnt (headLine 1 h)] ∨
          ∃ j : Spot, a = rSpotStat h j))) ∧
  (∀ (h : Head) (j : Spot) (crit : DefectCriterion) (i : Fin 5) (s : State),
    (crit, i) ∈ [(DefectCriterion.dropout, (0 : Fin 5)), (.bright, 1), (.baseline, 2), (.metric, 3), (.laneCrc, 4)] →
    let c := s.dev.chan h j
    (s.dev.flag (rSpotStat h j) 3 = true ∨ c.runs[i] < 32 → exec (.defectStart h j crit) s = .next s) ∧
    (s.dev.flag (rSpotStat h j) 3 = false → 32 ≤ c.runs[i] →
      ∃ t, exec (.defectStart h j crit) s = .next t ∧ t.dev.flag (rSpotStat h j) 3 = true ∧
        t.dev.flag (rSpotStat h j) 4 = true ∧
        t.dev.heads[h].spots[j].span = some ((c.pos : Int) - c.runs[i] - s.dev.fld (rDefCfg h) 16 8, crit == .dropout) ∧
        t.dev.fld (rSpotDefects h j) 0 16 = min (s.dev.fld (rSpotDefects h j) 0 16 + 1) 0xFFFF ∧
        s.keeps t [.heads] (· ∈ [rSpotStat h j, rSpotDefects h j]))) ∧
  (∀ (h : Head) (j : Spot) (first : Int) (drop : Bool) (s : State),
    s.dev.heads[h].spots[j].span = some (first, drop) →
    let c := s.dev.chan h j
    let last : Int := (c.pos : Int) - c.clear - 1 + s.dev.fld (rDefCfg h) 16 8
    let len := (last - first + 1).toNat
    (c.clear < 64 → exec (.defectEnd h j) s = .next s) ∧
    (64 ≤ c.clear →
      ∃ t, exec (.defectEnd h j) s = .next t ∧ t.dev.heads[h].spots[j].span = none ∧
        t.dev.heads[h].spots[j].spans = s.dev.heads[h].spots[j].spans ++ [(first, last)] ∧
        t.dev.flag (rSpotStat h j) 3 = false ∧ t.dev.flag (rSpotStat h j) 4 = false ∧
        (s.dev.fld (rDefCfg h) 24 8 * 256 < len → t.dev.heads[h].spots[j].load = some .longDefect ∧
          t.dev.fld (rSpotDefects h j) 16 8 = min (s.dev.fld (rSpotDefects h j) 16 8 + 1) 255 ∧
          s.keeps t [.heads] (· ∈ [rSpotStat h j, rSpotDefects h j])) ∧
        (len ≤ s.dev.fld (rDefCfg h) 24 8 * 256 → s.keeps t [.heads] (· = rSpotStat h j)))) ∧
  (∀ (h : Head) (j : Spot) (tr : ZoneTrigger) (bs : List Byte) (s : State),
    s.dev.heads[h].spots[j].load = some tr →
    ((s.dev.chan h j).atSync = false → exec (.zoneLoad h j) s = .next s) ∧
    ((s.dev.chan h j).atSync = true →
      let s1 := s.onDev fun d => d.onSpot h j fun p => { p with load := none }
      let base := (s.dev.rd rZoneBaseLo).toNat + s.dev.fld rZoneBaseHi 0 16 * 2 ^ 32
      let index := (((sideOf h).val * 16 + s.dev.fld (rSrvStat h) 12 4) * 32 + zoneOf (s.dev.fld (rWaddrHi h) 0 15) % 32) * 8
        + j.val
      s1.readInternal .format (base + 64 * index) 64 = (s1, .ok bs) →
      ∃ t, exec (.zoneLoad h j) s = .next t ∧ t.dev.heads[h].spots[j].load = none ∧ t.mem = s.mem ∧
        t.dev.sides = s.dev.sides ∧ t.dev.hq = s.dev.hq ∧
        (zoneEntryOk bs = true → t.dev.flag (rSpotStat h j) 6 = true ∧
          t.dev.fld (rSpotGain h j) 0 16 = leNat (bs.take 2) ∧
          (tr = .acquisition → t.dev.heads[h].spots[j].noise = (bs.getD 48 0).toNat)) ∧
        (zoneEntryOk bs = false → t.dev.flag (rSpotStat h j) 7 = true ∧ s.keeps t [.heads] (· = rSpotStat h j)))) ∧
  ∀ (h : Head) (j : Spot) (c : DivergeCause) (s : State),
    (s.dev.diverges h j c = false → exec (.loopDiverge h j c) s = .next s) ∧
    (s.dev.diverges h j c = true → ∃ t, exec (.loopDiverge h j c) s = .next t ∧ t.dev.flag (rSpotStat h j) 5 = true ∧
      t.dev.fld (rSpotDefects h j) 24 8 = min (s.dev.fld (rSpotDefects h j) 24 8 + 1) 255 ∧
      t.dev.heads[h].spots[j].load = some .divergence ∧ s.keeps t [.heads] (· ∈ [rSpotStat h j, rSpotDefects h j]))

/-- A spot's sync: accepted at the prediction, slipped by its header, flywheel when missed in lock, lost when missed
in flywheel (04_read_channel.md). -/
def Obligations.SyncStateMachine : Prop :=
  (∀ (d : Dev) (h : Head) (j : Spot) (q : Int) (win : Nat), ∀ c ∈ d.candidates h j q win,
    c.1.natAbs ≤ win ∧ c.2 ≤ d.fld (rSyncCfg h) 12 3 ∧ c.2 = syncDistance (d.windowAt h j (q + c.1)) ∧
      d.marked h j (q + c.1) 48 = false) ∧
  (∀ (h : Head) (j : Spot) (s : State), (s.dev.heads[h].job = none ∨ s.dev.fld (rSpotStat h j) 0 3 = 0 ∨
    54 ≤ s.dev.heads[h].spots[j].frame) → exec (.syncWindow h j) s = .next s) ∧
  ∀ (h : Head) (j : Spot) (job : ReadJob) (s : State), s.dev.heads[h].job = some job →
    let st := s.dev.fld (rSpotStat h j) 0 3
    let p := s.dev.heads[h].spots[j]
    let near := s.dev.fld (rSyncCfg h) 0 4
    let far := s.dev.fld (rSyncCfg h) 4 8
    p.frame < 54 →
    (st = 2 ∨ st = 3 → p.predicted + near + 198 ≤ p.chan.soft.length →
      let cs := s.dev.candidates h j p.predicted near
      let ok (o : Int) : Bool := (s.dev.goodHeader h j job.place p.frame (p.predicted + o + 48)).isSome
      ((∃ c ∈ cs, c.1 = 0) →
        ∃ t, exec (.syncWindow h j) s = .next t ∧ t.dev.fld (rSpotStat h j) 0 3 = 2 ∧
          t.dev.heads[h].spots[j].frame = p.frame + 1 ∧ t.dev.heads[h].spots[j].predicted = p.predicted + 9480 ∧
          s.keeps t [.heads, .cal] (· = rSpotStat h j)) ∧
      (∀ c, (∀ x ∈ cs, x.1 ≠ 0) → bestCand cs = some c → ok c.1 = true → ok 0 = false →
        ∃ t, exec (.syncWindow h j) s = .next t ∧ t.dev.fld (rSpotStat h j) 0 3 = 2 ∧
          t.dev.fld (rSpotCounts h j) 16 8 = min (s.dev.fld (rSpotCounts h j) 16 8 + 1) 255 ∧
          t.dev.heads[h].spots[j].predicted = p.predicted + c.1 + 9480 ∧
          s.keeps t [.heads, .cal] (· ∈ [rSpotStat h j, rSpotCounts h j])) ∧
      (st = 2 → cs = [] →
        ∃ t, exec (.syncWindow h j) s = .next t ∧ t.dev.fld (rSpotStat h j) 0 3 = 3 ∧
          t.dev.heads[h].spots[j].flywheels = p.flywheels + 1 ∧ t.dev.heads[h].spots[j].predicted = p.predicted + 9480 ∧
          t.dev.fld (rSpotCounts h j) 0 8 = min (s.dev.fld (rSpotCounts h j) 0 8 + 1) 255 ∧
          s.keeps t [.heads] (· ∈ [rSpotStat h j, rSpotCounts h j])) ∧
      (st = 3 → cs = [] →
        ∃ t, exec (.syncWindow h j) s = .next t ∧ t.dev.fld (rSpotStat h j) 0 3 = 4 ∧
          t.dev.fld (rSpotCounts h j) 24 8 = min (s.dev.fld (rSpotCounts h j) 24 8 + 1) 255 ∧
          t.dev.fld (rEvcnt (headLine 9 h)) 0 16 = min (s.dev.fld (rEvcnt (headLine 9 h)) 0 16 + 1) 0xFFFF ∧
          s.keeps t [.heads, .cue] (· ∈ [rSpotStat h j, rSpotCounts h j, rEvcnt (headLine 9 h)]))) ∧
    (st = 1 ∨ st = 4 → p.predicted + far + 198 ≤ p.chan.soft.length →
      let cs := (s.dev.candidates h j p.predicted far).filter fun c =>
        (s.dev.goodHeader h j job.place p.frame (p.predicted + c.1 + 48)).isSome
      ∀ c, bestCand cs = some c →
        ∃ t, exec (.syncWindow h j) s = .next t ∧ t.dev.fld (rSpotStat h j) 0 3 = 2 ∧
          t.dev.heads[h].spots[j].frame = p.frame + 1 ∧ t.dev.heads[h].spots[j].predicted = p.predicted + c.1 + 9480 ∧
          s.keeps t [.heads, .cal] (· = rSpotStat h j))

/-- Reading a place: start, progressive iterations, the closing one, and the ladder's first steps
(04_read_channel.md). -/
def Obligations.PlaceReadProceeds : Prop :=
  (∀ (h : Head) (p : Place) (why : ReadPurpose) (s : State), (∀ k : Fin 8, s.dev.contexts k + 9 ≤ 36) →
    s.dev.engineHalted 3 = false → s.dev.inService h = true → s.dev.heads[h].job = none → s.dev.heads[h].resume = none →
    s.dev.atStart h p = true → s.dev.flag (rSrvStat h) 2 = true → s.dev.rereadFor h p = none →
    s.dev.ladderHolds h = false → s.dev.mayRead h p why = true →
    ∃ t, exec (.placeReadStart h p why) s = .next t ∧ t.dev.heads[h].job = some (.new p why h) ∧
      (∀ j : Spot, t.dev.fld (rSpotStat h j) 0 3 = 1 ∧ t.dev.heads[h].spots[j].frame = 0) ∧
      s.keeps t [.heads] (fun a => a = rWrpStat h ∨ ∃ j : Spot, a = rSpotStat h j)) ∧
  (∀ (h : Head) (job : ReadJob) (s : State), s.dev.heads[h].job = some job → s.dev.engineHalted 4 = false →
    job.closed = false → job.step = 0 → job.why ≠ .idleVerify →
    (job.progressive < 8 → s.dev.frameRead h (progressiveFrame job.progressive) = true →
      ∃ t j', exec (.progressiveIteration h) s = .next t ∧ t.dev.heads[h].job = some j' ∧
        j'.progressive = job.progressive + 1 ∧ j'.place = job.place ∧ j'.accepted = job.accepted ∧
        s.keeps t [.heads] (fun _ => False)) ∧
    (s.dev.frameRead h 53 = true →
      let j' := job.close (s.dev.placeLlrs h)
      (job.why = .command → j'.failed = 0#72 →
        ∃ t, exec (.closingIteration h) s = .next t ∧ t.dev.heads[h].job = none ∧
          t.dev.heads[h].lastRead = some (job.place, .passed 0) ∧
          (∃ f ∈ t.dev.sides[job.place.side].found, f.place = job.place ∧ f.how = .passed 0 ∧ f.rows = j'.rows) ∧
          t.mem = s.mem ∧ t.dev.hq = s.dev.hq) ∧
      (job.why = .command → j'.failed ≠ 0#72 → s.dev.heads[job.owner].recover = [] →
        ∃ t x, exec (.closingIteration h) s = .next t ∧ t.dev.heads[h].job = none ∧
          t.dev.heads[job.owner].recover = [x] ∧ x.place = job.place ∧ x.step = 1 ∧ x.closed = true ∧
          x.accepted = j'.accepted ∧ t.dev.fld (rLadder job.owner) 0 3 = 1 ∧ t.mem = s.mem ∧ t.dev.sides = s.dev.sides) ∧
      (job.why = .verify →
        ∃ t, exec (.closingIteration h) s = .next t ∧ t.dev.heads[h].job = some j' ∧ j'.closed = true ∧
          s.keeps t [.heads] (· ∈ [rGcnt 0x09, rGcnt 0x0A])))) ∧
  (∀ (h : Head) (job new : ReadJob) (d : Dev) (s : State), s.dev.extending h = some job → s.dev.engineHalted 4 = false →
    s.dev.extendRows job = (d, new, false) → new.failed = 0#72 → new.step = job.step → new.owner = job.owner →
    new.place = job.place → job.step ≤ 2 →
    ∃ t, exec (.ladderStep h) s = .next t ∧ t.dev.heads[job.owner].lastRead = some (job.place, .passed job.step) ∧
      (∀ x ∈ t.dev.heads[job.owner].recover, x.place ≠ job.place) ∧ t.dev.cue.used = d.cue.used ∧ t.mem = s.mem) ∧
  (∀ (h : Head) (s t : State), s.dev.cue.used[6] ≤ s.dev.fld (rBudget 6) 0 24 * 64 → exec (.ladderStep h) s = .next t →
    t.dev.cue.used[6] ≤ t.dev.fld (rBudget 6) 0 24 * 64) ∧
  (∀ (h : Head) (job : ReadJob) (s : State), (s.dev.heads[h].recover.find? fun x => x.outer) = some job →
    s.dev.engineHalted 4 = false → job.step = 2 → job.restore.failed = 0#72 →
    ∃ t, exec (.outerDecode h) s = .next t ∧ t.dev.heads[job.owner].lastRead = some (job.place, .passed 2) ∧
      (∀ x ∈ t.dev.heads[job.owner].recover, x.place ≠ job.place) ∧
      t.dev.fld rLdpcStat 16 8 = min (s.dev.fld rLdpcStat 16 8 + 1) 255 ∧ t.mem = s.mem ∧ t.dev.hq = s.dev.hq) ∧
  ∀ (c : Nat) (bits : List Bool), rowAccepted c bits = true →
    syndromeZero bits = true ∧ (c < 64 → rowTagOk (payloadOf bits) = true)

/-! ### The write path (05_write_path.md) -/

/-- The gate opens only under its conditions and marks the place consumed; it closes after the place; clock and
laser faults take it (05_write_path.md). -/
def Obligations.WriteGateAndClock : Prop :=
  (∀ (h : Head) (p : Place) (bad faults : BitVec 64) (s : State), s.dev.gateReady h = true → s.dev.atPlace h p = true →
    s.dev.homeWritable h p = true → (s.dev.checkPeaks h).2 = true →
    ∃ t w, exec (.writeGateOpen h p bad faults) s = .next t ∧ t.dev.flag (rWrpStat h) 0 = true ∧
      t.dev.heads[h].writing = some w ∧ w.place = p ∧ w.home = some p ∧ w.type = 0 ∧
      w.rows = (List.finRange 64).map (rowOf (s.dev.dirtyRows p) [] (bad ||| faults)) ∧
      t.dev.placeState p = 2 ∧ t.mem = s.mem) ∧
  (∀ (h : Head) (p : Place) (bad faults : BitVec 64) (s : State),
    (s.dev.gateReady h = false ∨ s.dev.atPlace h p = false ∨ s.dev.homeWritable h p = false) →
    exec (.writeGateOpen h p bad faults) s = .next s) ∧
  (∀ (h : Head) (s : State), s.dev.heads[h].writing = none → exec (.writeGateClose h) s = .next s) ∧
  (∀ (h : Head) (w : WriteJob) (s : State), s.dev.heads[h].writing = some w →
    ∃ t blocks, exec (.writeGateClose h) s = .next t ∧ t.dev.flag (rWrpStat h) 0 = false ∧ t.dev.heads[h].writing = none ∧
      t.mem = s.mem ∧
      Output.written h w.place ((placeTracks w.place w.type w.rpl w.rows).map fun k => k.take 513840) blocks ∈ t.dev.sent ∧
      (∀ home, w.home = some home → s.dev.verified w.place.side = true →
        t.dev.sides[w.place.side].verifyQ = s.dev.sides[w.place.side].verifyQ ++
          [{ place := w.place, home, writer := h, attempts := w.attempts, kind := w.kind, early := false }] ∧
        s.keeps t [.heads, .sides, .sent] (· = rWrpStat h)) ∧
      (w.home = some w.place → s.dev.verified w.place.side = false →
        t.dev.sides[w.place.side].toCommit = s.dev.sides[w.place.side].toCommit ++ [placeKey w.place]) ∧
      (∀ r, w.home = none → w.type = 1 → s.dev.sides[w.place.side].recFlight = some r →
        t.dev.sides[w.place.side].recFlight = some { r with sent := true, failed := false } ∧
        s.keeps t [.heads, .sides, .sent] (· = rWrpStat h))) ∧
  (∀ (h : Head) (cs : List (List Int)) (s : State),
    ∃ t, exec (.clkLockSet h cs) s = .next t ∧
      t.dev.fld (rWrpClk h) 16 16 = (quot (56 * s.dev.heads[h].wobble.freq) 100000).toNat % 2 ^ 16 ∧
      (256 ≤ cs.length → (∀ c ∈ cs, (clkError c).natAbs ≤ 16) → t.dev.flag (rWrpStat h) 1 = true) ∧
      (cs.length < 256 ∨ (∃ c ∈ cs, 16 < (clkError c).natAbs) → t.dev.rd (rWrpStat h) = s.dev.rd (rWrpStat h)) ∧
      s.keeps t [] (· ∈ [rWrpClk h, rWrpStat h])) ∧
  (∀ (h : Head) (cs : List (List Int)) (s : State),
    (8 ≤ cs.length → (∀ c ∈ cs, 32 < (clkError c).natAbs) →
      ∃ t, exec (.clkLockLost h cs) s = .next t ∧ t.dev.flag (rWrpStat h) 1 = false ∧
        t.dev.heads[h].gateOff = true ∧ s.keeps t [.heads] (· ∈ [rWrpClk h, rWrpStat h, rGcnt 0x10])) ∧
    (cs.length < 8 ∨ (∃ c ∈ cs, (clkError c).natAbs ≤ 32) →
      ∃ t, exec (.clkLockLost h cs) s = .next t ∧ s.keeps t [] (· = rWrpClk h))) ∧
  ∀ (h : Head) (s : State),
    (s.dev.heads[h].laserBad < 8 → exec (.laserFault h) s = .next s) ∧
    (8 ≤ s.dev.heads[h].laserBad →
      ∃ t, exec (.laserFault h) s = .next t ∧ t.dev.flag (rWrpStat h) 5 = true ∧ t.dev.heads[h].gateOff = true ∧
        t.dev.heads[h].laserBad = 0 ∧
        (2 ≤ (s.dev.heads[h].laserActs.filter fun a => decide (s.dev.cue.act < a + 64)).length →
          t.dev.flag (rWrpStat h) 4 = true) ∧ s.keeps t [.heads] (· ∈ [rWrpStat h, rGcnt 0x11]))

/-- OPC runs and results, verification passed and failed, spare places, and reads of the reallocation table
(05_write_path.md). -/
def Obligations.PowerCalibrationAndVerify : Prop :=
  (∀ (h : Head) (outer : Bool) (s : State),
    let x := sideOf h
    let l := s.dev.headLayer h
    (s.dev.opcWanted h l = .none → exec (.opcRun h outer) s = .next s) ∧
    (s.dev.gateReady h = true → s.dev.sides[x].mounted = true → s.dev.opcWanted h l ≠ .none →
      (s.dev.opcExhausted x l = true → ∃ t, exec (.opcRun h outer) s = .next t ∧ t.dev.flag (rWrpStat h) 7 = true ∧
        s.keeps t [.heads] (· = rWrpStat h)) ∧
      ∀ p : Place, s.dev.opcExhausted x l = false → s.dev.zoneServes x l (s.dev.opcWanted h l) outer = true →
        s.dev.opcPlace x l outer = some p → s.dev.atPlace h p = true → s.dev.partnerBusy h p = false →
        s.dev.placeState p = 0 → (s.dev.checkPeaks h).2 = true →
        ∃ t w, exec (.opcRun h outer) s = .next t ∧ t.dev.heads[h].opcRun = some (p, outer) ∧
          t.dev.flag (rWrpStat h) 3 = true ∧ t.dev.flag (rWrpStat h) 0 = true ∧ t.dev.heads[h].writing = some w ∧
          w.place = p ∧ w.type = 2 ∧ t.dev.placeState p = 2 ∧
          (∀ (j : Spot) (i : Nat), i < 27 → Output.control h (powerBlock j.val 0 (t.dev.stepPeak h j i)) ∈ t.dev.sent) ∧
          sfind t.dev.sides[x].opcUsed (2 * l.val + b2n outer) =
            some ((sfind s.dev.sides[x].opcUsed (2 * l.val + b2n outer)).getD 0 + 1) ∧ t.mem = s.mem)) ∧
  (∀ (h : Head) (levels : List (List (Int × Int))) (ratio : List (BitVec 12)) (p : Place) (outer : Bool) (s : State),
    s.dev.heads[h].opcRun = some (p, outer) → s.dev.heads[h].writing = none →
    let power := fun j : Spot => opcPower (s.dev.fld (rPeak h j) 0 16) (s.dev.fld rOpcCfg 0 8)
      (2 * s.dev.sfld rOpcCfg 8 10) (stepBetas (levels.getD j.val []))
    ∃ t, exec (.opcResult h levels ratio) s = .next t ∧ t.dev.heads[h].opcRun = none ∧
      t.dev.flag (rWrpStat h) 3 = false ∧ t.mem = s.mem ∧ t.dev.sides = s.dev.sides ∧ t.dev.hq = s.dev.hq ∧
      (∀ j : Spot, (power j).isSome = true → t.dev.heads[h].spots[j].peakNew = power j) ∧
      ((∀ j : Spot, (power j).isSome = true) → t.dev.heads[h].opcFails = 0) ∧
      ((∃ j : Spot, power j = none) → t.dev.flag (rWrpStat h) 6 = true ∧
        t.dev.heads[h].opcFails = s.dev.heads[h].opcFails + 1 ∧
        (1 ≤ s.dev.heads[h].opcFails → t.dev.flag (rWrpStat h) 4 = true))) ∧
  (∀ (h : Head) (s : State), s.dev.verifyJob h = none → exec (.verifyReadDone h) s = .next s) ∧
  (∀ (h : Head) (j : ReadJob) (v : VerifyItem) (s : State), s.dev.verifyJob h = some j →
    (s.dev.sides[sideOf h].verifyQ.find? fun v => v.place == j.place) = some v → s.dev.verified (sideOf h) = true →
    v.early = false → v.place.side = sideOf h →
    ∃ t, exec (.verifyReadDone h) s = .next t ∧ t.dev.sides[sideOf h].verifyQ = s.dev.sides[sideOf h].verifyQ.erase v ∧
      t.dev.heads[h].job = none ∧ t.mem = s.mem ∧
      (s.dev.verifyFails h j = none → v.home = v.place → placeKey v.place ∈ t.dev.sides[sideOf h].toCommit) ∧
      (s.dev.verifyFails h j ≠ none →
        t.dev.fld (rEvcnt (headLine 13 v.writer)) 0 16 =
          min (s.dev.fld (rEvcnt (headLine 13 v.writer)) 0 16 + 1) 0xFFFF)) ∧
  (∀ (h : Head) (v : VerifyItem) (s : State),
    s.dev.sides[sideOf h].verifyQ.head? = some v → s.dev.verified (sideOf h) = false → s.dev.workClaimed h = false →
    s.dev.fld 0x88_0048 0 11 ≤ s.dev.heads[h].freeBeats → (∀ k : Fin 8, s.dev.contexts k + 9 ≤ 36) →
    s.dev.engineHalted 3 = false → s.dev.inService h = true → s.dev.atStart h v.place = true →
    s.dev.flag (rSrvStat h) 2 = true → s.dev.rereadFor h v.place = none → s.dev.ladderHolds h = false →
    s.dev.heads[h].resume = none →
    ∃ t, exec (.idleVerify h) s = .next t ∧ t.dev.heads[h].job = some (.new v.place .idleVerify h) ∧
      t.dev.flag (rWrpStat h) 2 = true ∧ t.mem = s.mem) ∧
  (∀ (h : Head) (bad faults : BitVec 64) (q : ReplItem) (s : State),
    s.dev.nextRepl (sideOf h) = some q → q.home.side = sideOf h →
    (s.dev.canReplace (sideOf h) = false → ∃ t, exec (.spareWrite h bad faults) s = .next t ∧
      t.dev.sides[sideOf h].replQ = s.dev.sides[sideOf h].replQ.erase q ∧ t.mem = s.mem) ∧
    ∀ (sp : Place) (carried : List (Fin 64 × MediaLba)), s.dev.canReplace (sideOf h) = true →
      s.dev.sides[sideOf h].spareFor q.home = some sp → s.dev.carried q.home = some carried → s.dev.gateReady h = true →
      s.dev.atPlace h sp = true → s.dev.sides[sideOf h].mounted = true →
      s.dev.sides[sideOf h].horizon.contains (placeKey sp) = true → s.dev.curtainOpen = true →
      s.dev.opcDone h sp.layer = true → s.dev.partnerBusy h sp = false → (s.dev.checkPeaks h).2 = true →
      ∃ t w, exec (.spareWrite h bad faults) s = .next t ∧ t.dev.heads[h].writing = some w ∧ w.place = sp ∧
        w.home = some q.home ∧ w.rpl = true ∧ w.kind = q.kind ∧ w.attempts = q.attempts + 1 ∧
        t.dev.flag (rWrpStat h) 0 = true ∧ t.dev.placeState sp = 2 ∧ t.mem = s.mem) ∧
  ∀ (m : Master) (i : Fin 131072) (hi : Bool) (s : State), (s.dev.allocEntry i.val).2 = ~~~ (s.dev.allocEntry i.val).1 →
    let v := (s.dev.allocEntry i.val).1.toNat
    ∃ t, exec (.allocEntryRead m i hi) s = .next t ∧
      t.dev.sent = .data m (leBytes 4 ((if hi then v / 2 ^ 32 else v) % 2 ^ 32)) :: s.dev.sent ∧
      s.keeps t [.sent, .flt] (fun _ => False)

/-- The disc-information log: a due COMMIT record is written, passed or written again, and snapshots are taken
(05_write_path.md). -/
def Obligations.DiscInformationLog : Prop :=
  (∀ (x : Side) (s : State), s.dev.sides[x].mounted = false ∨ s.dev.recordNext x = none →
    exec (.commitRecord x) s = .next s) ∧
  (∀ (x : Side) (r : LogRec) (h : Head) (s : State), let next := s.dev.fld (rSideLog x) 0 12
    s.dev.sides[x].mounted = true → s.dev.recordNext x = some r → next ≤ 3056 →
    s.dev.logHead x (logPlace x next) = some h → (s.dev.checkPeaks h).2 = true →
    ∃ t w, exec (.commitRecord x) s = .next t ∧
      t.dev.sides[x].recFlight = some { r with index := next, failed := false, sent := false, writer := h } ∧
      t.dev.heads[h].writing = some w ∧ w.place = logPlace x next ∧ w.type = 1 ∧ w.home = none ∧
      t.dev.flag (rWrpStat h) 0 = true ∧ t.dev.fld (rSideLog x) 0 12 = next + 1 ∧
      t.dev.placeState (logPlace x next) = 2 ∧ (∀ k ∈ t.dev.sides[x].toCommit, k ∉ r.committed) ∧ t.mem = s.mem) ∧
  (∀ (x : Side) (s : State), s.dev.sides[x].recFlight = none → exec (.commitPassed x) s = .next s) ∧
  (∀ (x : Side) (r : LogRec) (h : Head) (j : ReadJob) (s : State), s.dev.sides[x].recFlight = some r →
    s.dev.recordJob x r = some (h, j) →
    (s.dev.verifyFails h j = none → r.type ≠ 3 → r.clean = false →
      ∃ t, exec (.commitPassed x) s = .next t ∧ t.dev.sides[x].recFlight = none ∧
        t.dev.sides[x].sequence = s.dev.sides[x].sequence + 1 ∧ t.dev.sides[x].horizon = r.horizon ∧
        (∀ p : Place, p.side = x → placeKey p ∈ r.committed → t.dev.placeState p = 1) ∧ t.mem = s.mem) ∧
    (s.dev.verifyFails h j = none → r.type = 3 → r.part < 6 →
      ∃ t, exec (.commitPassed x) s = .next t ∧
        t.dev.sides[x].recFlight = some { r with part := r.part + 1, failed := true, sent := false } ∧
        t.dev.sides[x].sequence = s.dev.sides[x].sequence + 1 ∧ t.mem = s.mem) ∧
    (s.dev.verifyFails h j = none → r.type = 3 → r.part = 6 →
      ∃ t, exec (.commitPassed x) s = .next t ∧ t.dev.sides[x].recFlight = none ∧
        t.dev.sides[x].snapSeq = some (s.dev.sides[x].sequence - 6) ∧ t.dev.sides[x].recsSinceSnap = 0 ∧
        t.dev.sides[x].entriesSinceSnap = 0 ∧ t.mem = s.mem) ∧
    (s.dev.verifyFails h j ≠ none →
      ∃ t, exec (.commitPassed x) s = .next t ∧
        t.dev.sides[x].recFlight = some { r with failed := true, sent := false } ∧
        t.dev.sides[x].sequence = s.dev.sides[x].sequence ∧ t.mem = s.mem ∧ t.dev.hq = s.dev.hq)) ∧
  ∀ (x : Side) (h : Head) (s : State), let next := s.dev.fld (rSideLog x) 0 12
    s.dev.sides[x].mounted = true → s.dev.snapshotDue x = true →
    s.dev.logHead x (logPlace x next) = some h → (s.dev.checkPeaks h).2 = true →
    ∃ t r w, exec (.snapshot x) s = .next t ∧ t.dev.sides[x].recFlight = some r ∧ r.type = 3 ∧ r.part = 0 ∧
      r.index = next ∧ r.sent = false ∧ r.writer = h ∧ t.dev.heads[h].writing = some w ∧ w.place = logPlace x next ∧
      t.dev.fld (rSideLog x) 0 12 = next + 1 ∧ t.mem = s.mem

/-! ### Configuration flash, head side-band, GPIO, call board (16_config_and_registers.md) -/

/-- A flash command with good length starts, or waits for the controller, with BUSY set
(16_config_and_registers.md). -/
def Obligations.FlashCommandStarts : Prop :=
  ∀ (m : Master) (s : State) (op : Fin 6) (c : Instr),
    (op, c) ∈ ([(1, .flashRead m), (2, .flashProgram m), (3, .flashErase m), (4, .flashReadFifo m),
      (5, .flashProgramFifo m)] : List (Fin 6 × Instr)) →
    s.dev.flag rFlashStat 0 = false → s.dev.flashBadLen op = false →
    ∃ t, exec c s = .next t ∧ t.dev.flag rFlashStat 0 = true ∧ t.dev.fld rFlashCmd 0 8 = op.val ∧
      (let n := if op = 4 then s.dev.fld rFlashSlen 0 27 else s.dev.fld rFlashLen 0 13;
      let o := FlashOp.cfg op (s.dev.fld rFlashAddr 0 26) n;
      (s.dev.cfg.busy.isSome = true → t.dev.cfg.busy = s.dev.cfg.busy ∧ t.dev.cfg.waiting = s.dev.cfg.waiting ++ [o]) ∧
      (s.dev.cfg.busy = none → s.dev.cfg.waiting = [] → t.dev.cfg.busy = some o ∧ t.dev.cfg.waiting = [])) ∧
      s.keeps t [.cfg] (· ∈ [rFlashCmd, rFlashStat])

/-- A GO while BUSY is refused with WHY 1, a bad length or page with WHY 2, and nothing starts
(16_config_and_registers.md). -/
def Obligations.FlashCommandRefused : Prop :=
  ∀ (m : Master) (s : State) (op : Fin 6) (c : Instr),
    (op, c) ∈ ([(1, .flashRead m), (2, .flashProgram m), (3, .flashErase m), (4, .flashReadFifo m),
      (5, .flashProgramFifo m)] : List (Fin 6 × Instr)) →
    ((s.dev.flag rFlashStat 0 = true ∨ s.dev.flashBadLen op = true) →
      ∃ t, exec c s = .next t ∧ t.dev.flag rFlashStat 2 = true ∧ t.dev.flag rFlashStat 0 = s.dev.flag rFlashStat 0 ∧
        t.dev.fld rFlashStat 4 4 = (if s.dev.flag rFlashStat 0 then 1 else 2) ∧
        s.keeps t [] (· ∈ [rFlashCmd, rFlashStat])) ∧
    (let n := s.dev.fld rFlashLen 0 13;
      op.val ≤ 3 → (s.dev.flashBadLen op = true ↔
        n = 0 ∨ 4096 < n ∨ (op = 2 ∧ 256 < s.dev.fld rFlashAddr 0 26 % 256 + n)))

/-- FLASH_DONE ends the command in progress: erased, programmed or read, with DONE, or ERR with WHY 3
(16_config_and_registers.md). -/
def Obligations.FlashOperationEnds : Prop :=
  ∀ (s : State) (op : Fin 6) (a n : Nat) (ok : Bool), op = 1 ∨ op = 2 ∨ op = 3 →
    s.dev.cfg.busy = some (.cfg op a n) →
    ∃ t, exec (.flashDone ok) s = .next t ∧ t.dev.flag rFlashStat 0 = false ∧
      (op ≠ 2 → (t.dev.flag rFlashStat 1 = (ok || s.dev.flag rFlashStat 1)) ∧
        (ok = false → t.dev.flag rFlashStat 2 = true ∧ t.dev.fld rFlashStat 4 4 = 3 ∧ t.mem.flash = s.mem.flash)) ∧
      (ok = true → op = 1 → t.mem.flash = s.mem.flash ∧
        ∀ k < n, sget t.dev.cfg.buf (0 : Byte) k = s.flashByte (a + k)) ∧
      (op = 2 → ∀ b, t.flashByte b =
        if a ≤ b ∧ b < a + n then s.flashByte b &&& sget s.dev.cfg.buf (0 : Byte) (b - a) else s.flashByte b) ∧
      (ok = true → op = 3 → ∀ b, t.flashByte b = if b / 65536 = a / 65536 then 0xFF else s.flashByte b) ∧
      s.keeps t [.cfg, .flash] (· = rFlashStat)

/-- The flash FIFO ports: a push appends a word while there is room, a pop takes the oldest word
(16_config_and_registers.md). -/
def Obligations.FlashFifoPorts : Prop :=
  (∀ (m : Master) (v : W32) (s : State), s.dev.cfg.tx.length < 256 →
    ∃ t, exec (.flashFifoPush m v) s = .next t ∧ t.dev.cfg = { s.dev.cfg with tx := s.dev.cfg.tx ++ [v] } ∧
      s.keeps t [.cfg] (fun _ => False)) ∧
  (∀ (m : Master) (w : W32) (r : List W32) (s : State), s.dev.cfg.rx = w :: r →
    ∃ t, exec (.flashFifoPop m) s = .next t ∧ t.dev.sent = .data m (leBytes 4 w.toNat) :: s.dev.sent ∧
      (s.dev.cfg.rxLeft = 0 → t.dev.cfg.rx = r) ∧ s.keeps t [.cfg, .sent] (fun _ => False))

/-- An I²C transfer starts on a free port and ends with its bytes moved; a NACK, a timeout and a bad length set
their bits (16_config_and_registers.md). -/
def Obligations.I2cTransferRuns : Prop :=
  ∀ (h : Head) (s : State),
    (∀ (m : Master) (v : W32), s.dev.flag (rI2cStat h) 0 = false → 1 ≤ fget v 9 9 → fget v 9 9 ≤ 256 →
      ∃ t, exec (.i2cTransfer m h v) s = .next t ∧ t.dev.flag (rI2cStat h) 0 = true ∧
        t.dev.rd (rI2cCtl h) = v &&& 0xF_FFFE ∧ s.keeps t [] (· ∈ [rI2cCtl h, rI2cStat h])) ∧
    (∀ (m : Master) (v : W32), (s.dev.flag (rI2cStat h) 0 = true ∨ fget v 9 9 = 0 ∨ 256 < fget v 9 9) →
      ∃ t, exec (.i2cTransfer m h v) s = .next t ∧ t.dev.flag (rI2cStat h) 4 = true ∧
        t.dev.flag (rI2cStat h) 0 = s.dev.flag (rI2cStat h) 0 ∧ s.keeps t [] (· ∈ [rI2cCtl h, rI2cStat h])) ∧
    (∀ rx : List Byte, s.dev.flag (rI2cStat h) 0 = true → s.dev.flag (rI2cCtl h) 1 = false →
      s.dev.fld (rI2cCtl h) 9 9 ≤ s.dev.top.i2c[h].tx.length →
      ∃ t, exec (.i2cDone h false rx) s = .next t ∧ t.dev.flag (rI2cStat h) 0 = false ∧
        t.dev.flag (rI2cStat h) 1 = true ∧
        t.dev.top.i2c[h].tx = s.dev.top.i2c[h].tx.drop (s.dev.fld (rI2cCtl h) 9 9) ∧
        t.dev.top.i2c[h].rx = s.dev.top.i2c[h].rx ∧ s.keeps t [.top, .sent] (· = rI2cStat h)) ∧
    (∀ rx : List Byte, s.dev.flag (rI2cStat h) 0 = true → s.dev.flag (rI2cCtl h) 1 = true →
      rx.length = s.dev.fld (rI2cCtl h) 9 9 → s.dev.top.i2c[h].rx.length + rx.length ≤ 256 →
      ∃ t, exec (.i2cDone h false rx) s = .next t ∧ t.dev.flag (rI2cStat h) 0 = false ∧
        t.dev.flag (rI2cStat h) 1 = true ∧ t.dev.top.i2c[h].rx = s.dev.top.i2c[h].rx ++ rx ∧
        t.dev.top.i2c[h].tx = s.dev.top.i2c[h].tx ∧ s.keeps t [.top, .sent] (· = rI2cStat h)) ∧
    (∀ rx : List Byte, s.dev.flag (rI2cStat h) 0 = true →
      ∃ t, exec (.i2cDone h true rx) s = .next t ∧ t.dev.flag (rI2cStat h) 0 = false ∧
        t.dev.flag (rI2cStat h) 2 = true ∧ t.dev.top.i2c[h].tx = s.dev.top.i2c[h].tx ∧
        t.dev.top.i2c[h].rx = s.dev.top.i2c[h].rx ∧ s.keeps t [.top] (· = rI2cStat h)) ∧
    (s.dev.flag (rI2cStat h) 0 = true →
      ∃ t, exec (.i2cTimeout h) s = .next t ∧ t.dev.flag (rI2cStat h) 0 = false ∧
        t.dev.flag (rI2cStat h) 3 = true ∧ s.keeps t [.top] (· = rI2cStat h))

/-- The I²C data port, a head's reset line, a good type read, GPIO edges and the capture FIFO
(16_config_and_registers.md). -/
def Obligations.SideBandAndGpioPorts : Prop :=
  (∀ (m : Master) (h : Head) (v : W32) (s : State), s.dev.top.i2c[h].tx.length < 256 →
    ∃ t, exec (.i2cDataPush m h v) s = .next t ∧
      t.dev.top.i2c[h].tx = s.dev.top.i2c[h].tx ++ [BitVec.ofNat 8 v.toNat] ∧ s.keeps t [.top] (· = rI2cStat h)) ∧
  (∀ (m : Master) (h : Head) (b : Byte) (r : List Byte) (s : State), s.dev.top.i2c[h].rx = b :: r →
    ∃ t, exec (.i2cDataPop m h) s = .next t ∧ t.dev.top.i2c[h].rx = r ∧
      t.dev.sent = .data m [b, 0, 0, 0] :: s.dev.sent ∧ s.keeps t [.top, .sent] (· = rI2cStat h)) ∧
  (∀ (m : Master) (h : Head) (v : W32) (s : State), s.dev.rehearsal = true →
    ∃ t, exec (.headResetWrite m h v) s = .next t ∧ t.dev.flag (rHeadLines h) 0 = v.getLsbD 0 ∧
      t.dev.sent = .headReset h (v.getLsbD 0) :: s.dev.sent ∧ s.keeps t [.sent] (· = rHeadLines h)) ∧
  (∀ (m : Master) (h : Head) (v : W32) (s : State), s.dev.rehearsal = false →
    exec (.headResetWrite m h v) s = .next s) ∧
  (∀ (h : Head) (b : Byte) (s : State), s.dev.inService h = true → s.dev.flag (rI2cStat h) 0 = false →
    b.toNat = s.dev.headTypeOf h →
    ∃ t, exec (.headTypePoll h (.value b (~~~ b))) s = .next t ∧ t.dev.top.i2c[h].missed = 0 ∧ t.mem = s.mem ∧
      t.dev.heads = s.dev.heads ∧ t.dev.sides = s.dev.sides) ∧
  (∀ (l : BitVec 16) (s : State),
    let old : BitVec 16 := BitVec.ofNat 16 (s.dev.fld rGpioIn 0 16)
    let rise : BitVec 16 := BitVec.ofNat 16 (s.dev.fld rGpioCapCfg 0 16)
    let fall : BitVec 16 := BitVec.ofNat 16 (s.dev.fld rGpioCapCfg 16 16)
    let edge := ∃ i, i < 16 ∧ ((old.getLsbD i = false ∧ l.getLsbD i = true ∧ rise.getLsbD i = true) ∨
      (old.getLsbD i = true ∧ l.getLsbD i = false ∧ fall.getLsbD i = true))
    ∃ t, exec (.gpioEdge l) s = .next t ∧ t.dev.fld rGpioIn 0 16 = l.toNat ∧
      (edge → s.dev.top.cap.length < 64 → t.dev.top.cap = s.dev.top.cap ++ [(l, s.dev.cue.beat)]) ∧
      (¬ edge ∨ 64 ≤ s.dev.top.cap.length → t.dev.top.cap = s.dev.top.cap) ∧ s.keeps t [.top] (· = rGpioIn)) ∧
  (∀ (m : Master) (l : BitVec 16) (b : Fin 1024) (r : List (BitVec 16 × Fin 1024)) (s : State),
    s.dev.top.cap = (l, b) :: r →
    ∃ t, exec (.gpioCapPop m) s = .next t ∧ t.dev.top.cap = r ∧
      t.dev.sent = .data m (leBytes 4 (l.toNat + b.val * 2 ^ 16 + 2 ^ 31)) :: s.dev.sent ∧
      s.keeps t [.top, .sent] (fun _ => False))

/-- A post of a firmware code makes or raises one call-board entry; a code below 0x8000 is refused (R370). -/
def Obligations.FltPostMakesEntry : Prop :=
  ∀ (m : Master) (code : BitVec 16) (s : State),
    let src : Nat := match m with | .core c => 0x20 + c.val | _ => 0x1F
    (0x8000 ≤ code.toNat → s.dev.boardTwin code.toNat src = none →
      ∃ t e, exec (.fltPost m code) s = .next t ∧ t.dev.flt.board = (e :: s.dev.flt.board).take 4096 ∧
        e.code = code.toNat ∧ e.source = src ∧ e.act = s.dev.cue.act ∧ e.pos = s.dev.pos ∧ e.count = 1 ∧
        e.seq = s.dev.flt.next ∧ e.timeNs = s.dev.ns ∧ e.timeSec = s.dev.sec ∧
        e.d0 = s.dev.rd64 (rPostData 0) ∧ e.d1 = s.dev.rd64 (rPostData 1) ∧ e.d2 = s.dev.rd64 (rPostData 2) ∧
        e.d3 = s.dev.rd64 (rPostData 3) ∧ t.dev.flt.next = (s.dev.flt.next + 1) % 2 ^ 32 ∧
        s.keeps t [.flt] (fun _ => False)) ∧
    (0x8000 ≤ code.toNat → ∀ e, s.dev.boardTwin code.toNat src = some e → e.d0 = s.dev.rd64 (rPostData 0) →
      ∃ t, exec (.fltPost m code) s = .next t ∧ t.dev.flt.board.length = s.dev.flt.board.length ∧
        t.dev.flt.next = s.dev.flt.next ∧ s.keeps t [.flt] (fun _ => False)) ∧
    (code.toNat < 0x8000 →
      ∃ t, exec (.fltPost m code) s = .next t ∧ t.dev.flag rFltPost 16 = true ∧ s.keeps t [] (· = rFltPost))

/-! ### The optical servo (06_optical_servo.md) -/

/-- A beat's servo group, holds, OFF_TRACK, the write abort in a hold, and the lock flags (06_optical_servo.md). -/
def Obligations.ServoBeatAndHolds : Prop :=
  (∀ (h : Head) (g : ServoGroup) (s : State), (s.dev.engineHalted 0 = true ∨ s.dev.heads[h].grouped = true) →
    exec (.servoGroup h g) s = .next s) ∧
  (∀ (h : Head) (g : ServoGroup) (s : State), s.dev.engineHalted 0 = false → s.dev.heads[h].grouped = false →
    let q := s.dev.signals h g
    let now := (s.dev.holdTest h q g.bad).heads[h]
    (g.bad = true → now.frozen = true) ∧
    (s.dev.cue.glBeat < 2 → s.dev.chainElapsed (headLine 5 h) < 2 → now.frozen = true →
      s.dev.heads[h].jump = none → s.dev.heads[h].seek = none → s.dev.heads[h].search = none →
      (∀ l : Fin 5, s.dev.heads[h].loops[l].again = false) →
      ∃ t, exec (.servoGroup h g) s = .next t ∧ t.dev.heads[h].loops = s.dev.heads[h].loops ∧
        t.dev.heads[h].trim = s.dev.heads[h].trim ∧ t.dev.heads[h].sabCode = s.dev.heads[h].sabCode ∧
        t.dev.fld (rSrvSum h) 16 16 = q.mean % 2 ^ 16 ∧
        t.dev.sent = (if s.dev.heads[h].lanes then .codes h (s.dev.cue.beat.val % 256) (s.dev.codeBlocks h) :: s.dev.sent
          else s.dev.sent) ∧
        s.keeps t [.heads, .sent] (· = rSrvSum h)) ∧
    (s.dev.cue.glBeat < 2 → s.dev.chainElapsed (headLine 5 h) < 2 → now.frozen = false →
      s.dev.heads[h].focusClosed = true → s.dev.flag (rLoopCtl h 0) 0 = true →
      let lo := s.dev.sfld (rLoopLimit h 0) 16 16
      let hi := s.dev.sfld (rLoopLimit h 0) 0 16
      lo ≤ s.dev.lastCode h 0 → s.dev.lastCode h 0 ≤ hi →
      ∃ t, exec (.servoGroup h g) s = .next t ∧ lo ≤ t.dev.lastCode h 0 ∧ t.dev.lastCode h 0 ≤ hi ∧
        (t.dev.lastCode h 0 - s.dev.lastCode h 0).natAbs ≤ s.dev.fld (rLoopSlew h 0) 0 16 ∧
        t.dev.fld (rSrvSum h) 16 16 = q.mean % 2 ^ 16 ∧ t.mem = s.mem ∧ t.pending = s.pending) ∧
    (∀ f0 t0 : Int, 2 ≤ s.dev.cue.glBeat → s.dev.heads[h].rampFrom = some (f0, t0) → 0 < s.dev.image.glRamp →
      s.dev.image.glRamp < s.dev.cue.glBeat →
      ∃ t, exec (.servoGroup h g) s = .next t ∧ t.dev.lastCode h 0 = s.dev.sfld (rLoopSlew h 0) 16 16 ∧
        t.dev.lastCode h 1 = s.dev.sfld (rLoopSlew h 1) 16 16 ∧
        t.dev.fld (rSrvSum h) 16 16 = q.mean % 2 ^ 16 ∧ t.mem = s.mem)) ∧
  (∀ (h : Head) (s : State),
    (s.dev.heads[h].hold = none → 2 ≤ s.dev.heads[h].quals.2 →
      ∃ t, exec (.holdStart h) s = .next t ∧
        t.dev.heads[h].hold = some { beats := 0, raised := false, first := s.dev.heads[h].quals.1,
                                     ended := decide (8 ≤ s.dev.heads[h].ends) } ∧
        t.dev.flag (rSrvStat h) 4 = true ∧ t.dev.fld (rHolds h) 0 16 = min (s.dev.fld (rHolds h) 0 16 + 1) 0xFFFF ∧
        s.keeps t [.heads] (· ∈ [rSrvStat h, rHolds h])) ∧
    ((s.dev.heads[h].hold ≠ none ∨ s.dev.heads[h].quals.2 < 2) → exec (.holdStart h) s = .next s)) ∧
  (∀ (h : Head) (x : Hold) (s : State), s.dev.heads[h].hold = some x →
    (x.ended = true → ∃ t, exec (.holdEnd h) s = .next t ∧ t.dev.heads[h].hold = none ∧ t.dev.flag (rSrvStat h) 4 = false ∧
      t.dev.fld (rHolds h) 24 8 = max (min (x.beats / 8) 255) (s.dev.fld (rHolds h) 24 8) ∧
      s.keeps t [.heads] (· ∈ [rSrvStat h, rHolds h, rSeek h])) ∧
    (x.ended = false → exec (.holdEnd h) s = .next s) ∧
    (s.dev.holdLong h = true → ∃ t, exec (.offTrack h) s = .next t ∧ t.dev.flag (rSrvStat h) 7 = true ∧
      t.dev.heads[h].hold = some { x with raised := true } ∧
      t.dev.fld (rHolds h) 16 8 = min (s.dev.fld (rHolds h) 16 8 + 1) 255 ∧
      t.dev.fld (rEvcnt (headLine 5 h)) 0 16 = min (s.dev.fld (rEvcnt (headLine 5 h)) 0 16 + 1) 0xFFFF ∧
      s.keeps t [.heads, .cue] (· ∈ [rSrvStat h, rHolds h, rEvcnt (headLine 5 h)])) ∧
    (x.raised = true → s.dev.heads[h].limitBeats = 0 → exec (.offTrack h) s = .next s) ∧
    (s.dev.flag (rWrpStat h) 0 = true → x.ended = false → s.dev.fld (rHoldCfg h) 8 8 ≤ x.beats →
      ∃ t, exec (.writeHoldAbort h) s = .next t ∧ t.dev.heads[h].gateOff = true ∧
        s.keeps t [.heads] (· = rGcnt 0x0D)) ∧
    (x.beats < s.dev.fld (rHoldCfg h) 8 8 → exec (.writeHoldAbort h) s = .next s)) ∧
  (∀ (h : Head) (s : State), s.dev.heads[h].frozen = false →
    (64 ≤ s.dev.heads[h].good[0] → s.dev.heads[h].focusClosed = true → s.dev.flag (rLoopCtl h 0) 0 = true →
      ∃ t, exec (.lockSet h .focus) s = .next t ∧ t.dev.flag (rSrvStat h) 1 = true ∧
        t.dev.heads[h].search = none ∧ (s.dev.heads[h].search ≠ none → t.dev.heads[h].trackClosed = true) ∧
        s.keeps t [.heads] (· = rSrvStat h)) ∧
    ((s.dev.heads[h].good[0] < 64 ∨ s.dev.heads[h].focusClosed = false) → exec (.lockSet h .focus) s = .next s) ∧
    (256 ≤ s.dev.heads[h].good[2] → s.dev.flag (rSrvStat h) 2 = true →
      ∃ t, exec (.lockSet h .skew) s = .next t ∧ t.dev.flag (rSrvStat h) 3 = true ∧
        s.keeps t [] (· = rSrvStat h)) ∧
    (64 ≤ s.dev.heads[h].good[1] → s.dev.heads[h].bandOk = true → s.dev.heads[h].trackClosed = true →
      s.dev.flag (rSrvStat h) 1 = true → ∃ t, exec (.lockSet h .tracking) s = .next t ∧
      t.dev.flag (rSrvStat h) 2 = true ∧ t.dev.heads[h].seek = none ∧
      (s.dev.heads[h].seek ≠ none → t.dev.fld (rSeek h) 24 4 = 0 ∧ t.dev.flag (rSrvStat h) 5 = false) ∧
      t.dev.axUncertain (sledOf h) = false) ∧
    (8 ≤ s.dev.heads[h].bad[1] → ∃ t, exec (.lockClear h .tracking) s = .next t ∧
      t.dev.flag (rSrvStat h) 2 = false ∧ t.dev.flag (rSrvStat h) 3 = false ∧
      t.dev.flag (rSrvStat h) 1 = s.dev.flag (rSrvStat h) 1 ∧
      s.keeps t [.heads] (· ∈ [rSrvStat h, rWaddrLo h, rWstat h]))) ∧
  ∀ (h : Head) (f : LockFlag) (s : State), s.dev.heads[h].frozen = true →
    exec (.lockSet h f) s = .next s ∧ exec (.lockClear h f) s = .next s

/-- Seeks, their attempts, fine and layer jumps, and the band acquisition (06_optical_servo.md). -/
def Obligations.SeeksAndJumps : Prop :=
  (∀ (h : Head) (layer : Layer) (turn : BitVec 15) (s : State), s.dev.inService h = true → s.dev.ghostLight = false →
    s.dev.ladderAllows h layer turn.toNat = true →
    let diff : Int := (turn.toNat : Int) - s.dev.turnNow h
    let near := layer.val = s.dev.layerOf h ∧ diff.natAbs ≤ s.dev.fld (rJumpCfg h) 0 8
    let k : SeekState := { layer, turn := turn.toNat, attempt := 1, start := s.dev.beats, stage := 3, timer := 0,
                           code := s.dev.lastCode h 1 }
    ∃ t, exec (.seek h layer turn) s = .next t ∧
      t.dev.fld (rSeek h) 0 15 = turn.toNat ∧ t.dev.fld (rSeek h) 16 4 = layer.val ∧ t.dev.fld (rSeek h) 20 4 = 1 ∧
      (near → diff ≠ 0 → t.dev.heads[h].seek = some k ∧ t.dev.flag (rSrvStat h) 5 = true ∧
        t.dev.fld (rSeek h) 24 4 = 4 ∧ t.dev.flag (rSrvStat h) 6 = true ∧ t.dev.heads[h].trackClosed = false ∧
        t.dev.heads[h].jump = some (.begin_ false (8 * diff) 0) ∧ t.dev.fld (rXing h) 0 24 = 0) ∧
      (near → diff = 0 → s.dev.flag (rSrvStat h) 2 = true → t.dev.heads[h].seek = none ∧
        t.dev.fld (rSeek h) 24 4 = 0 ∧ t.dev.flag (rSrvStat h) 5 = false) ∧
      (near → diff = 0 → s.dev.flag (rSrvStat h) 2 = false → t.dev.heads[h].seek = some k ∧
        t.dev.fld (rSeek h) 24 4 = 3 ∧ t.dev.flag (rSrvStat h) 5 = true) ∧
      (¬ near → t.dev.heads[h].seek = some { k with stage := 0 } ∧ t.dev.fld (rSeek h) 24 4 = 1 ∧
        t.dev.flag (rSrvStat h) 5 = true ∧ t.dev.heads[h].trackClosed = false) ∧
      s.keeps t [.heads] (· ∈ [rSeek h, rSrvStat h, rWaddrLo h, rWstat h, rXing h])) ∧
  (∀ (h : Head) (layer : Layer) (turn : BitVec 15) (s : State),
    (s.dev.inService h = false ∨ s.dev.ghostLight = true ∨ s.dev.ladderAllows h layer turn.toNat = false) →
    exec (.seek h layer turn) s = .next s) ∧
  (∀ (h : Head) (k : SeekState) (s : State), s.dev.heads[h].seek = some k →
    (s.dev.beats < k.start + 64000 → exec (.seekTimeout h) s = .next s) ∧
    (k.start + 64000 ≤ s.dev.beats →
      (k.attempt ≤ s.dev.fld (rJumpCfg h) 24 4 → ∃ t, exec (.seekTimeout h) s = .next t ∧
        t.dev.fld (rSeek h) 20 4 = (k.attempt + 1) % 16 ∧
        (∀ k', t.dev.heads[h].seek = some k' →
          k'.attempt = k.attempt + 1 ∧ k'.start = s.dev.beats ∧ k'.layer = k.layer ∧ k'.turn = k.turn) ∧
        s.keeps t [.heads] (· ∈ [rSeek h, rSrvStat h, rWaddrLo h, rWstat h, rXing h])) ∧
      (s.dev.fld (rJumpCfg h) 24 4 < k.attempt → ∃ t, exec (.seekTimeout h) s = .next t ∧
        t.dev.heads[h].seek = none ∧ t.dev.fld (rSrvStat h) 8 4 = 4 ∧ t.dev.flag (rSrvStat h) 5 = false ∧
        t.dev.heads[h].gateOff = true ∧
        t.dev.fld (rEvcnt (headLine 1 h)) 0 16 = min (s.dev.fld (rEvcnt (headLine 1 h)) 0 16 + 1) 0xFFFF ∧
        s.keeps t [.heads, .cue] (· ∈ [rSeek h, rSrvStat h, rGcnt 0x0C, rEvcnt (headLine 1 h)])))) ∧
  (∀ (h : Head) (n : Int) (s : State), s.dev.mayJump h = true → n ≠ 0 → n.natAbs ≤ s.dev.fld (rJumpCfg h) 0 8 →
    ∃ t, exec (.fineJump h n) s = .next t ∧ t.dev.heads[h].trackClosed = false ∧ t.dev.flag (rSrvStat h) 6 = true ∧
      t.dev.flag (rSrvStat h) 2 = false ∧ t.dev.fld (rXing h) 0 24 = 0 ∧
      t.dev.heads[h].jump = some (.begin_ false (8 * n) 0) ∧
      (s.dev.heads[h].seek ≠ none → t.dev.fld (rSeek h) 24 4 = 4) ∧
      s.keeps t [.heads] (· ∈ [rSrvStat h, rWaddrLo h, rWstat h, rXing h, rSeek h])) ∧
  (∀ (h : Head) (target : Layer) (s : State), s.dev.mayJump h = true → target.val ≠ s.dev.layerOf h →
    ∃ t, exec (.layerJump h target) s = .next t ∧ t.dev.heads[h].focusClosed = false ∧
      t.dev.heads[h].trackClosed = false ∧ t.dev.heads[h].tiltHeld = true ∧
      t.dev.heads[h].jump = some (.begin_ true ((target.val : Int) - s.dev.layerOf h) (s.dev.layerOf h)) ∧
      (∀ i ∈ [1, 2, 3], t.dev.flag (rSrvStat h) i = false) ∧ t.dev.flag (rSrvStat h) 6 = true ∧
      (s.dev.heads[h].seek ≠ none → t.dev.fld (rSeek h) 24 4 = 2) ∧
      s.keeps t [.heads] (· ∈ [rSrvStat h, rWaddrLo h, rWstat h, rSeek h])) ∧
  (∀ (h : Head) (n : Int) (target : Layer) (s : State), s.dev.mayJump h = false →
    exec (.fineJump h n) s = .next s ∧ exec (.layerJump h target) s = .next s) ∧
  ∀ (h : Head) (s : State), s.dev.mayJump h = true → s.dev.heads[h].trackClosed = true →
    s.dev.flag (rSrvStat h) 1 = true → s.dev.flag (rSrvStat h) 2 = false →
    (∀ p : Fin 8, p ≠ 0 → ∃ t, exec (.bandAcquire h (List.replicate 8 (List.replicate 8 p))) s = .next t ∧
      t.dev.heads[h].jump = some (.begin_ false (if p.val ≤ 4 then -(p.val : Int) else 8 - p.val) 0) ∧
      t.dev.heads[h].trackClosed = false ∧ t.dev.heads[h].bandOk = false ∧
      s.keeps t [.heads] (· ∈ [rSrvStat h, rWaddrLo h, rWstat h, rXing h])) ∧
    (s.dev.placed h = true →
      (∀ k, s.dev.heads[h].seek = some k →
        k.turn = s.dev.turnNow h ∧ k.layer.val = s.dev.fld (rWaddrHi h) 16 4) →
      (∀ r, s.dev.heads[h].resume = some r →
        placeTurn r.place.rb = s.dev.turnNow h ∧ r.place.layer.val = s.dev.fld (rWaddrHi h) 16 4) →
      ∃ t, exec (.bandAcquire h (List.replicate 8 (List.replicate 8 0))) s = .next t ∧ t.dev.heads[h].bandOk = true ∧
        t.dev.layerOf h = s.dev.fld (rWaddrHi h) 16 4 ∧
        (s.dev.heads[h].seek ≠ none → t.dev.fld (rSeek h) 24 4 = 5) ∧
        s.keeps t [.heads] (· ∈ [rSrvStat h, rSeek h]))

/-- A head's fault line raises HEAD_FAULT with its cause; a head of the recorded type comes back by REINSTATE
(06_optical_servo.md, 15_power_reset_boot.md). -/
def Obligations.HeadFaultAndReinstate : Prop :=
  (∀ (h : Head) (s : State), ∃ t, exec (.headFaultLine h) s = .next t ∧ t.dev.flag (rHeadLines h) 1 = true ∧
    t.dev.fld (rSrvStat h) 8 4 = 1 ∧ t.dev.heads[h].gateOff = true ∧ t.dev.heads[h].seek = none ∧
    t.dev.fld (rEvcnt (headLine 1 h)) 0 16 = min (s.dev.fld (rEvcnt (headLine 1 h)) 0 16 + 1) 0xFFFF ∧
    s.keeps t [.heads, .cue] (· ∈ [rHeadLines h, rSrvStat h, rGcnt 0x0C, rEvcnt (headLine 1 h)])) ∧
  (∀ (m : Master) (h : Head) (typ : TypeRead) (cal : CalHead) (s : State),
    (s.dev.rehearsal = false ∨ s.dev.inService h = true) → exec (.reinstate m h typ cal) s = .next s) ∧
  ∀ (m : Master) (h : Head) (cal : CalHead) (s : State), s.dev.rehearsal = true → s.dev.inService h = false →
    (∀ v : Byte, v ≠ 0 → v.toNat = s.dev.headTypeOf h → s.dev.calPassed cal = true →
      ∃ t, exec (.reinstate m h (.value v (~~~ v)) cal) s = .next t ∧ t.dev.inService h = true ∧
        t.dev.heads[h].lanes = true ∧ t.dev.heads[h].lasers = true ∧ t.dev.heads[h].faulted = false ∧
        t.dev.fld (rHeadLines h) 8 8 = v.toNat ∧ t.dev.flag (rHeadLines h) 16 = true ∧
        Output.lanes h true ∈ t.dev.sent ∧ Output.headReset h true ∈ t.dev.sent ∧ t.pending = s.pending) ∧
    (∀ v : Byte, v ≠ 0 → v.toNat = s.dev.headTypeOf h → s.dev.calPassed cal = false →
      ∃ t, exec (.reinstate m h (.value v (~~~ v)) cal) s = .next t ∧ t.dev.inService h = false ∧
        (∃ e ∈ t.dev.flt.board, e.code = 0x0145 ∧ e.d0 = h.val) ∧ s.keeps t [.flt, .sent] (· = rHeadLines h)) ∧
    ∀ typ : TypeRead, (typ = .notAcked ∨ ∃ v : Byte, v.toNat ≠ s.dev.headTypeOf h ∧ typ = .value v (~~~ v)) →
      ∃ t, exec (.reinstate m h typ cal) s = .next t ∧ t.dev.inService h = false ∧
        t.dev.sent = .headReset h false :: .headReset h true :: s.dev.sent ∧
        (∃ e ∈ t.dev.flt.board, e.code = 0x0145 ∧ e.d0 = h.val) ∧ s.keeps t [.flt, .sent] (· = rHeadLines h)

/-! ### The spindle drive and the auxiliary motors (07_spindle_drive.md) -/

/-- The bus tests of a sample, the recovery, the chopper's faults, and the set-point of a PWM period
(07_spindle_drive.md). -/
def Obligations.BusAndPwmPeriods : Prop :=
  (∀ (vbus ibrk : Nat) (iu iv : Int) (s : State), s.dev.outputsHeld = true →
    exec (.busSample vbus) s = .next s ∧ exec .vbusRecover s = .next s ∧ exec (.pwmPeriod iu iv vbus ibrk) s = .next s) ∧
  (∀ (vbus ibrk : Nat) (iu iv : Int) (s : State),
    ((s.dev.beats % 20 ≠ 0 ∨ s.dev.spn.zeroBeat = some s.dev.beats) → exec (.busSample vbus) s = .next s) ∧
    ((s.dev.beats % 20 ≠ 10 ∨ s.dev.spn.peakBeat = some s.dev.beats) → exec (.pwmPeriod iu iv vbus ibrk) s = .next s)) ∧
  (∀ (vbus : Nat) (s : State), s.dev.fabric = true → s.dev.outputsHeld = false → s.dev.beats % 20 = 0 →
    s.dev.spn.zeroBeat ≠ some s.dev.beats →
    (s.dev.fld rVbusLimit 16 16 ≤ vbus → 1500 ≤ vbus → s.dev.turning = true → s.dev.spn.off ≠ 1 →
      ∃ t, exec (.busSample vbus) s = .next t ∧ t.dev.spn.driven = false ∧ t.dev.spn.off = 1 ∧
        t.dev.spnState = 3 ∧ t.dev.flag rSpnStat 9 = true ∧ t.dev.fld rVbus 0 16 = vbus % 2 ^ 16 ∧
        t.dev.fld (rEvcnt 18) 0 16 = min (s.dev.fld (rEvcnt 18) 0 16 + 1) 0xFFFF ∧
        s.keeps t [.spn, .cue, .sent] (· ∈ [rAdc 8, rVbus, rSpnStat, rPwrStat, rGcnt 0x14, rEvcnt 18])) ∧
    (vbus < 1500 → vbus < s.dev.fld rVbusLimit 16 16 → s.dev.turning = true →
      ∃ t, exec (.busSample vbus) s = .next t ∧ t.dev.spn.driven = false ∧ t.dev.spn.off = 2 ∧
        t.dev.spnState = 3 ∧ t.dev.flag rSpnStat 16 = true ∧ (∃ e ∈ t.dev.flt.board, e.code = 0x0143 ∧ e.d0 = vbus) ∧
        s.keeps t [.spn, .flt, .sent] (· ∈ [rAdc 8, rVbus, rSpnStat, rPwrStat])) ∧
    (1500 ≤ vbus → vbus < s.dev.fld rVbusLimit 16 16 → s.dev.spn.chopBad = false →
      ∃ t, exec (.busSample vbus) s = .next t ∧ t.dev.fld rVbus 0 16 = vbus % 2 ^ 16 ∧
        t.dev.spn.compare = s.dev.spn.nextCompare ∧ t.dev.spn.driven = s.dev.spn.driven ∧
        t.dev.flag rSpnStat 5 = (if s.dev.fld rChopCfg 0 10 * 5 ≤ vbus then true
          else if vbus ≤ s.dev.fld rChopCfg 10 10 * 5 then false else s.dev.flag rSpnStat 5) ∧
        s.keeps t [.spn, .sent] (· ∈ [rAdc 8, rVbus, rSpnStat]))) ∧
  (∀ (b : Nat) (s : State), s.dev.outputsHeld = false → s.dev.spnState = 3 → s.dev.spn.busSince = some b →
    ((s.dev.spn.off = 1 ∧ b + 800 ≤ s.dev.beats) ∨ (s.dev.spn.off = 2 ∧ b + 8000 ≤ s.dev.beats)) →
    ∃ t, exec .vbusRecover s = .next t ∧ t.dev.spnState = 4 ∧ t.dev.spn.crossings = [] ∧ t.dev.spn.driven = false ∧
      s.keeps t [.spn] (· ∈ [rSpnStat, rPwrStat])) ∧
  (∀ s : State, (s.dev.spnState ≠ 3 ∨ s.dev.spn.busSince = none) → exec .vbusRecover s = .next s) ∧
  (∀ (c : ChopperCase) (s : State), (s.dev.chopperMet c = false → exec (.chopperFault c) s = .next s) ∧
    (s.dev.chopperMet c = true → ∃ t, exec (.chopperFault c) s = .next t ∧ t.dev.flag rSpnStat 8 = true ∧
      t.dev.fld (rEvcnt 19) 0 16 = min (s.dev.fld (rEvcnt 19) 0 16 + 1) 0xFFFF ∧
      (c = .stuckOn → t.dev.spnState = 3 ∧ t.dev.spn.driven = false ∧ t.dev.flag rSpnStat 5 = false) ∧
      (c ≠ .stuckOn → t.dev.spn.driven = s.dev.spn.driven ∧ t.dev.spnState = s.dev.spnState) ∧
      s.keeps t [.spn, .cue, .sent] (· ∈ [rSpnStat, rPwrStat, rGcnt 0x15, rEvcnt 19]))) ∧
  ∀ (iu iv : Int) (vbus ibrk : Nat) (s : State), s.dev.fabric = true → s.dev.outputsHeld = false →
    s.dev.beats % 20 = 10 → s.dev.spn.peakBeat ≠ some s.dev.beats → 1500 ≤ vbus →
    vbus < s.dev.fld rVbusLimit 16 16 →
    (s.dev.spnState ≠ 2 → s.dev.spn.driven = false → ∃ t, exec (.pwmPeriod iu iv vbus ibrk) s = .next t ∧
      t.dev.fld rVbus 0 16 = vbus % 2 ^ 16 ∧ t.dev.fld rVbus 16 16 = ibrk % 2 ^ 16 ∧
      s.keeps t [.spn] (· ∈ [rAdc 0, rAdc 4, rAdc 8, rAdc 12, rVbus, rSpnStat])) ∧
    (s.dev.spnState = 2 → s.dev.engineHalted 1 = false → s.dev.beats / 20 % 4 = 0 →
      s.dev.pairHolds rSpeedCmd = true → s.dev.fld rSpeedCmd 0 16 = (quot s.dev.spn.setpt 10000).toNat →
      0 < s.dev.targetNow →
      let goal := s.dev.targetNow * 10000
      ∃ t, exec (.pwmPeriod iu iv vbus ibrk) s = .next t ∧
        t.dev.spn.setpt = (if s.dev.spn.setpt < goal then min goal (s.dev.spn.setpt + s.dev.fld rRamp 0 16)
          else max goal (s.dev.spn.setpt - s.dev.fld rRamp 16 16)) ∧
        t.dev.fld rSpeedCmd 0 16 = (quot t.dev.spn.setpt 10000).toNat % 2 ^ 16 ∧ t.dev.pairHolds rSpeedCmd = true ∧
        t.dev.flag rSpnStat 4 = decide (t.dev.spn.setpt < s.dev.spn.setpt) ∧
        s.keeps t [.spn, .flt] (· ∈ [rAdc 0, rAdc 4, rAdc 8, rAdc 12, rVbus, rSpnStat, rObs, rIdq, rSpnSpeed, rSpeedCmd]))

/-- The drive's states: start, handover, retries, re-catch, loss of the rotor, LOCKOUT and its end
(07_spindle_drive.md). -/
def Obligations.SpindleStartsAndLosses : Prop :=
  (∀ s : State, s.dev.spnState = 1 → s.dev.spn.phase = 1 →
    (s.dev.spnPast (s.dev.fld rStartCfg 0 8 * 8000) = true → ∃ t, exec .alignEnd s = .next t ∧ t.dev.spn.phase = 2 ∧
      t.dev.spn.ramp = 0 ∧ s.keeps t [.spn] (fun _ => False)) ∧
    (s.dev.spnPast (s.dev.fld rStartCfg 0 8 * 8000) = false → exec .alignEnd s = .next s)) ∧
  (∀ s : State, s.dev.spnState = 1 → s.dev.spn.phase = 2 →
    let top := s.dev.fld rStartCfg 8 12 * 10000
    s.dev.spn.ramp = top →
    (20 ≤ s.dev.spn.obs.good → 20 ≤ s.dev.spn.obs.near →
      ∃ t, exec .handover s = .next t ∧ t.dev.spnState = 2 ∧ t.dev.spn.setpt = top ∧
        t.dev.spn.startFails = 0 ∧ t.dev.fld rSpeedCmd 0 16 = s.dev.fld rStartCfg 8 12 ∧
        s.keeps t [.spn] (· ∈ [rSpeedCmd, rSpnStat, rPwrStat])) ∧
    (s.dev.spnPast 80000 = true → s.dev.spn.startFails < 2 →
      ∃ t, exec .startTimeout s = .next t ∧ t.dev.spnState = 1 ∧ t.dev.spn.phase = 3 ∧
        t.dev.spn.driven = false ∧ t.dev.spn.startFails = s.dev.spn.startFails + 1 ∧
        s.keeps t [.spn, .sent] (· ∈ [rSpnStat, rPwrStat])) ∧
    (s.dev.spnPast 80000 = true → 2 ≤ s.dev.spn.startFails →
      ∃ t, exec .startTimeout s = .next t ∧ t.dev.spnState = 5 ∧ t.dev.spn.driven = false ∧
        (∃ e ∈ t.dev.flt.board, e.code = 0x0142) ∧ t.mem = s.mem) ∧
    (s.dev.spnPast 80000 = false → exec .startTimeout s = .next s)) ∧
  (∀ (u v w : Nat) (s : State), s.dev.spnState = 1 → s.dev.spn.phase = 3 → s.dev.spnPast 1600000 = true →
    ∃ t, exec (.startRetry u v w) s = .next t ∧
      t.dev.spnState = (if s.dev.turnsStill u v w then 4 else 1) ∧ t.dev.spn.phase = (if s.dev.turnsStill u v w then 4 else 1) ∧
      s.keeps t [.spn] (· ∈ [rAdc 1, rAdc 5, rAdc 9, rSpnStat, rPwrStat])) ∧
  (∀ s : State, s.dev.spnState = 3 → s.dev.spn.off = 3 → s.dev.hq.cmds = [] →
    (∀ b, s.dev.spn.stillSince = some b → max b s.dev.spn.since + s.dev.fld rRecatchCfg 20 12 * 800 ≤ s.dev.beats →
      ∃ t, exec .stillTimeout s = .next t ∧ t.dev.spnState = 0 ∧ t.dev.spn.driven = false ∧
        s.keeps t [.spn, .sent] (· ∈ [rSpnStat, rPwrStat])) ∧
    (s.dev.spn.stillSince = none → exec .stillTimeout s = .next s)) ∧
  (∀ s : State, s.dev.spnState = 4 →
    (s.dev.spn.still = true → 0 < s.dev.targetNow → s.dev.spnPast (s.dev.fld rRecatchCfg 20 12 * 800) = true →
      ∃ t, exec .stillTimeout s = .next t ∧ t.dev.spnState = 1 ∧
        t.dev.spn.phase = 1 ∧ t.dev.spn.still = false ∧ s.keeps t [.spn] (· ∈ [rSpnStat, rPwrStat])) ∧
    (s.dev.flag rSpnStat 11 = false → s.dev.spn.still = false →
      (∀ u v w : Nat, s.dev.spn.driven = false → s.dev.engineHalted 1 = false →
        (∀ b, s.dev.spn.sampled = some b → b + 4 ≤ s.dev.beats) →
        ∃ t, exec (.recatchSample u v w) s = .next t ∧
          t.dev.spn.lines = some ((u : Int), (v : Int), (w : Int)) ∧ t.dev.spn.sampled = some s.dev.beats ∧
          t.dev.spn.crossings.length ≤ 3 ∧
          (∀ old, s.dev.spn.lines = some old → newCrossings old ((u : Int), (v : Int), (w : Int)) ≠ [] →
            t.dev.spn.crossings = (((newCrossings old ((u : Int), (v : Int), (w : Int))).reverse.map
              fun k => (k, s.dev.beats)) ++ s.dev.spn.crossings).take 3 ∧
            ((consistent t.dev.spn.crossings).isSome = true → t.dev.spn.driven = !s.dev.pwr.forced)) ∧
          s.keeps t [.spn] (· ∈ [rAdc 1, rAdc 5, rAdc 9])) ∧
      (s.dev.attemptStands = 0 → exec .recatchResult s = .next s) ∧
      (s.dev.attemptStands = 1 → ∃ t, exec .recatchResult s = .next t ∧ t.dev.spnState = 2 ∧
        t.dev.spn.setpt = s.dev.fld rSpnSpeed 0 16 * 10000 ∧ t.dev.spn.startFails = 0 ∧
        s.keeps t [.spn] (· ∈ [rSpeedCmd, rSpnStat, rPwrStat])) ∧
      (s.dev.attemptStands = 2 → s.dev.spn.phase ≠ 4 → s.dev.fld rSpnStat 13 2 < 2 →
        ∃ t, exec .recatchResult s = .next t ∧ t.dev.fld rSpnStat 13 2 = s.dev.fld rSpnStat 13 2 + 1 ∧
          t.dev.spnState = 4 ∧ t.dev.spn.crossings = [] ∧ s.keeps t [.spn, .sent] (· = rSpnStat)) ∧
      (s.dev.attemptStands = 3 → s.dev.spn.phase ≠ 4 → ∃ t, exec .recatchResult s = .next t ∧ t.dev.spn.still = true ∧
        t.dev.spn.driven = false ∧ s.keeps t [.spn] (fun _ => False)))) ∧
  (∀ s : State, (s.dev.spnState = 2 ∨ s.dev.spnState = 4) → s.dev.spn.driven = true →
    (s.dev.spn.obs.lost < s.dev.fld rObsCfg 24 8 * 40 → exec .rotorLost s = .next s) ∧
    (s.dev.fld rObsCfg 24 8 * 40 ≤ s.dev.spn.obs.lost →
      (s.dev.fld rSpnStat 13 2 < 2 → ∃ t, exec .rotorLost s = .next t ∧ t.dev.spn.driven = false ∧
        t.dev.flag rSpnStat 10 = true ∧ t.dev.fld rSpnStat 13 2 = s.dev.fld rSpnStat 13 2 + 1 ∧
        t.dev.fld (rEvcnt 17) 0 16 = min (s.dev.fld (rEvcnt 17) 0 16 + 1) 0xFFFF ∧
        s.keeps t [.spn, .cue, .sent] (· ∈ [rSpnStat, rGcnt 0x12, rEvcnt 17])) ∧
      (2 ≤ s.dev.fld rSpnStat 13 2 → ∃ t, exec .rotorLost s = .next t ∧ t.dev.spnState = 5 ∧
        t.dev.spn.driven = false))) ∧
  (∀ s : State, (s.dev.turning = false → ∃ t, exec .gateFault s = .next t ∧ t.dev.flag rSpnStat 11 = true ∧
      t.dev.spn.driven = false ∧ s.keeps t [.spn, .sent] (· ∈ [rSpnStat, rGcnt 0x13])) ∧
    (s.dev.spnState = 2 → s.dev.fld rSpnStat 13 2 < 2 → ∃ t, exec .gateFault s = .next t ∧ t.dev.flag rSpnStat 11 = true ∧
      t.dev.flag rSpnStat 12 = true ∧ t.dev.flag rSpnStat 10 = true ∧ t.dev.spn.driven = false ∧
      s.keeps t [.spn, .cue, .sent] (· ∈ [rSpnStat, rGcnt 0x13, rEvcnt 17])) ∧
    (∃ t, exec .gateFaultClear s = .next t ∧ t.dev.flag rSpnStat 11 = false ∧ s.keeps t [.spn] (· = rSpnStat)) ∧
    (s.dev.spnState = 2 → s.dev.spnPast 800000 = true → ∃ t, exec .failsReset s = .next t ∧ t.dev.fld rSpnStat 13 2 = 0 ∧
      t.dev.spnState = 2 ∧ s.keeps t [] (· = rSpnStat)) ∧
    (s.dev.spnPast 800000 = false → exec .failsReset s = .next s)) ∧
  (∀ (m : Master) (s : State),
    (∀ b, s.dev.spnState = 5 → s.dev.spn.lowSince = some b → b + 800000 ≤ s.dev.beats →
      ∃ t, exec (.clearLockout m) s = .next t ∧ t.dev.spnState = 0 ∧ s.keeps t [.spn, .sent] (· ∈ [rSpnStat, rPwrStat])) ∧
    (∀ b, s.dev.spn.lowSince = some b → s.dev.beats < b + 800000 → exec (.clearLockout m) s = .next s)) ∧
  ∀ (c : Fin 4) (v : BitVec 12) (s : State),
    let ch := (roundRobin c).getD s.dev.spn.adcNext[c] 0
    ∃ t, exec (.adcRoundRobin c v) s = .next t ∧
      t.dev.fld (rAdc ch) 0 12 = v.toNat ∧ t.dev.spn.adcNext[c] = (s.dev.spn.adcNext[c] + 1) % (roundRobin c).length ∧
      t.dev.spnState = s.dev.spnState ∧ s.keeps t [.spn] (· ∈ [rAdc ch, rSpnStat, rPwrStat])

/-- Auxiliary channels: Hall edges, PWM periods, faults, restart, and the move of A0 (07_spindle_drive.md). -/
def Obligations.AuxiliaryMotors : Prop :=
  (∀ (a : Aux) (n : Nat) (c : BitVec 3) (cyc : Fin 1250) (s : State),
    (n, c) ∈ [(0, (1 : BitVec 3)), (1, 3), (2, 2), (3, 6), (4, 4), (5, 5)] →
    let now := s.dev.beats * 1250 + cyc.val
    ∃ t, exec (.hallEdge a c cyc) s = .next t ∧ t.dev.fld (rAuxStat a) 0 3 = n ∧
      t.dev.fld (rAuxSpeed a) 0 16 = Config.auxRpm a.val (now - s.dev.aux[a].lastEdge) % 2 ^ 16 ∧
      t.dev.aux[a].lastEdge = now ∧ t.dev.aux[a].stepLen = now - s.dev.aux[a].lastEdge ∧
      (a = 0 → n = (s.dev.fld (rAuxStat a) 0 3 + 1) % 6 → t.dev.fld (rAuxPos a) 0 24 = (s.dev.fld (rAuxPos a) 0 24 + 1) % 2 ^ 24) ∧
      (a = 0 → n ≠ (s.dev.fld (rAuxStat a) 0 3 + 1) % 6 → s.dev.fld (rAuxStat a) 0 3 = (n + 1) % 6 →
        t.dev.fld (rAuxPos a) 0 24 = (s.dev.fld (rAuxPos a) 0 24 + 2 ^ 24 - 1) % 2 ^ 24) ∧
      (a = 1 → t.dev.fld (rAuxPos a) 0 24 = s.dev.fld (rAuxPos a) 0 24) ∧
      s.keeps t [.aux, .sent] (· ∈ [rAuxStat a, rAuxSpeed a, rAuxPos a])) ∧
  (∀ (a : Aux) (c : BitVec 3) (cyc : Fin 1250) (s : State), (c = 0 ∨ c = 7) →
    ∃ t, exec (.hallEdge a c cyc) s = .next t ∧ t.dev.flag (rAuxStat a) 4 = true ∧ t.dev.aux[a].latched = true ∧
      t.dev.fld (rAuxSpeed a) 16 16 = 0 ∧ s.keeps t [.aux, .sent] (· ∈ [rAuxStat a, rAuxSpeed a])) ∧
  (∀ (a : Aux) (first second : Int) (s : State), s.dev.fabric = true → s.dev.auxOn a = true → s.dev.engineHalted 1 = false →
    s.dev.beats % 20 = s.dev.fld (rAuxCfg a) 16 16 / 1250 % 20 → s.dev.aux[a].period ≠ some s.dev.beats →
    (a = 0 → s.dev.aux[a].moving = true) →
    let d := (s.dev.onAux a fun x => { x with period := some s.dev.beats }).auxRamp a
    let wins := (auxWindows (d.auxDuties a)).zip [first, second]
    let good := wins.filter fun w => d.windowOk a w.1.2.2
    let trip := good.any fun w => decide (s.dev.fld (rAuxLimit a) 8 8 * 50 < w.2.natAbs)
    ∃ t, exec (.auxPwmPeriod a first second) s = .next t ∧
      t.dev.fld (rAuxStat a) 8 8 = min (s.dev.fld (rAuxStat a) 8 8 + (wins.length - good.length)) 255 ∧
      (trip = true → t.dev.flag (rAuxStat a) 5 = true ∧ t.dev.auxOn a = false ∧ t.dev.fld (rAuxSpeed a) 16 16 = 0) ∧
      (trip = false → t.dev.aux[a].latched = false ∧
        (s.dev.auxSetpoint a = 0 → t.dev.fld (rAuxSpeed a) 16 16 = 0)) ∧
      s.keeps t [.aux, .sent] (· ∈ [rAuxStat a, rAuxSpeed a, rAdc (2 + 4 * a.val)])) ∧
  (∀ (a : Aux) (s : State), s.dev.auxOn a = true → 0 < s.dev.fld (rAuxSpeed a) 16 16 →
    let due := s.dev.aux[a].quietSince + s.dev.fld (rAuxLimit a) 16 8 * 10000000
    (due ≤ s.dev.beats * 1250 → ∃ t, exec (.auxStall a) s = .next t ∧ t.dev.flag (rAuxStat a) 6 = true ∧
      t.dev.auxOn a = false ∧ s.keeps t [.aux, .sent] (· ∈ [rAuxStat a, rAuxSpeed a])) ∧
    (s.dev.beats * 1250 < due → exec (.auxStall a) s = .next s)) ∧
  (∀ (a : Aux) (first second : Int) (s : State), s.dev.aux[a].latched = true →
    exec (.auxPwmPeriod a first second) s = .next s ∧ exec (.auxStall a) s = .next s) ∧
  (∀ (m : Master) (a : Aux) (s : State), ∃ t, exec (.auxEnable m a) s = .next t ∧ t.dev.flag (rAuxCtl a) 0 = true ∧
    t.dev.aux[a].latched = false ∧ (∀ i, 1 ≤ i → i < 32 → (i < 2 ∨ 16 ≤ i) → t.dev.flag (rAuxCtl a) i = s.dev.flag (rAuxCtl a) i) ∧
    s.keeps t [.aux, .sent] (· ∈ [rAuxCtl a, rAuxSpeed a])) ∧
  ∀ s : State,
    (∀ (m : Master) (v : W32), ∃ t, exec (.auxTarget m v) s = .next t ∧ t.dev.fld (rAuxTarget 0) 0 24 = fget v 0 24 ∧
      t.dev.aux[(0 : Fin 2)].moving = decide (s.dev.fld (rAuxPos 0) 0 24 ≠ fget v 0 24) ∧
      s.keeps t [.aux, .sent] (· ∈ [rAuxTarget 0, rAuxSpeed 0])) ∧
    (s.dev.aux[(0 : Fin 2)].holding = true →
      let due := s.dev.aux[(0 : Fin 2)].holdSince + s.dev.fld (rAuxLimit 0) 24 8 * 8000
      (due ≤ s.dev.beats → ∃ t, exec .auxHoldEnd s = .next t ∧ t.dev.flag (rAuxStat 0) 7 = true ∧
        t.dev.aux[(0 : Fin 2)].holding = false ∧ s.keeps t [.aux, .sent] (· = rAuxStat 0)) ∧
      (s.dev.beats < due → exec .auxHoldEnd s = .next s))

/-! ### The stepper axes and live calibration (08_sled_and_axes.md, 09_live_calibration.md) -/

/-- Moves from standstill, refused moves, the pulses of a tick, stops, and the chopper phases of a winding
(08_sled_and_axes.md). -/
def Obligations.AxisMovesAndStops : Prop :=
  (∀ (x : Axis) (s : State), s.dev.axState x = 1 → s.dev.axes[x].phase = 0 →
    s.dev.axes[x].p = s.dev.axPos x * 2 ^ 24 →
    let inAxis : Nat → Prop := fun a => rAx x 0 ≤ a ∧ a < rAx x 0x100
    (∀ (m : Master) (n : W32), let goal := (s.dev.rd (rAxTarget x)).toInt
      n = ~~~ s.dev.rd (rAxTarget x) → s.dev.axUncertain x = false → s.dev.inLimits x goal = true →
      s.dev.towardSwitch x goal = false →
      ∃ t, exec (.absoluteMove m x n) s = .next t ∧ t.dev.axState x = 2 ∧ t.dev.axes[x].target = goal ∧
        t.dev.axes[x].phase = 1 ∧ t.dev.axPos x = s.dev.axPos x ∧ s.keeps t [.axes] inAxis) ∧
    ∀ (m : Master) (v : W32), let goal := s.dev.lastIssued x + sgn 16 (fget v 0 16)
      pairOk 16 (fget v 0 16) (fget v 16 16) = true → s.dev.inLimits x goal = true → s.dev.towardSwitch x goal = false →
      ∃ t, exec (.relativeMove m x v) s = .next t ∧ t.dev.axState x = 2 ∧ t.dev.axes[x].target = goal ∧
        t.dev.axes[x].phase = 1 ∧ t.dev.axPos x = s.dev.axPos x ∧ s.keeps t [.axes] inAxis) ∧
  (∀ (x : Axis) (m : Master) (n : W32) (s : State),
    (n = ~~~ s.dev.rd (rAxTarget x) → (s.dev.axUncertain x = true ∨ s.dev.axState x = 0) →
      ∃ t, exec (.absoluteMove m x n) s = .next t ∧ t.dev.flag (rAxStat x) 9 = true ∧
        t.dev.axState x = s.dev.axState x ∧ s.keeps t [] (· ∈ [rAxTargetN x, rAxStat x])) ∧
    (n ≠ ~~~ s.dev.rd (rAxTarget x) → s.dev.chainRuns 30 = false →
      ∃ t, exec (.absoluteMove m x n) s = .next t ∧ t.dev.flt.waiting.length = s.dev.flt.waiting.length + 1 ∧
        s.keeps t [.flt, .cue] (· ∈ [rAxTargetN x, rGcnt 0x03, rEvcnt 30]))) ∧
  (∀ s : State, (s.dev.cue.halted.getLsbD 1 = true ∨ s.dev.outputsHeld = true ∨ s.dev.spn.tickBeat = some s.dev.beats) →
    exec .profileTick s = .next s) ∧
  (∀ s : State, s.dev.cue.halted.getLsbD 1 = false → s.dev.outputsHeld = false → s.dev.ghostLight = false →
    s.dev.spn.tickBeat ≠ some s.dev.beats →
    ∃ t, exec .profileTick s = .next t ∧
      (∀ x : Axis, s.dev.axState x ≠ 2 → s.dev.axState x ≠ 3 →
        t.dev.axPos x = s.dev.axPos x ∧ t.dev.axes[x] = s.dev.axes[x]) ∧
      (∀ x : Axis, s.dev.axes[x].plan = [] → t.dev.axes[x].plan.length ≤ 2) ∧
      (∀ x : Axis, s.dev.axes[x].home = none → t.dev.axPos x = s.dev.axPos x) ∧
      s.keeps t [.axes, .spn, .flt] (fun a => 0x70_0000 ≤ a ∧ a < 0x70_0800)) ∧
  (∀ (x : Axis) (m : Master) (s : State), s.dev.axState x ≠ 0 →
    ∃ t, exec (.axisStop m x) s = .next t ∧ t.dev.axState x = 1 ∧ t.dev.axes[x].phase = 0 ∧ t.dev.axes[x].v = 0 ∧
      t.dev.axPos x = s.dev.axPos x ∧ t.dev.fld (rAxIndex x) 0 10 = s.dev.fld (rAxIndex x) 0 10 ∧
      t.dev.axes[x].plan = [] ∧ t.dev.axUncertain x = true ∧ t.dev.fld (rAxStat x) 20 4 = 1 ∧
      t.dev.fld (rEvcnt ⟨20 + x.val, by omega⟩) 0 16 = min (s.dev.fld (rEvcnt ⟨20 + x.val, by omega⟩) 0 16 + 1) 0xFFFF ∧
      s.keeps t [.axes, .cue] (fun a => (rAx x 0 ≤ a ∧ a < rAx x 0x100) ∨ a = rEvcnt ⟨20 + x.val, by omega⟩ ∨
        ∃ h : Head, h.val = x.val ∧ a = rSeek h)) ∧
  (∀ (x : Axis) (m : Master) (s : State), s.dev.axes[x].phase ≠ 0 → s.dev.axes[x].home = none →
    ∃ t, exec (.axisHalt m x) s = .next t ∧ t.dev.axes[x].phase = 2 ∧ t.dev.axes[x].back = none ∧
      t.dev.axes[x].v = s.dev.axes[x].v ∧ t.dev.axPos x = s.dev.axPos x ∧ s.keeps t [.axes] (· = rAxStat x)) ∧
  (∀ (x : Axis) (w : Winding) (k : BridgeKind) (s : State),
    ((s.dev.axes[x].bridge = 0 ∨ s.dev.windFault x w k = false) → exec (.bridgeFault x w k) s = .next s) ∧
    (s.dev.axes[x].bridge ≠ 0 → s.dev.windFault x w k = true → ∃ t, exec (.bridgeFault x w k) s = .next t ∧ t.dev.axState x = 0 ∧
      t.dev.axes[x].bridge = 0 ∧ t.dev.flag (rAxStat x) 11 = true ∧ t.dev.axUncertain x = true ∧
      t.dev.fld (rAxStat x) 20 4 = (match k with | .openWinding => 4 | .shortedWinding => 5) ∧
      t.mem = s.mem ∧ t.dev.hq = s.dev.hq)) ∧
  (∀ (x : Axis) (w : Winding) (c : Fin 1250) (s : State),
    let now := s.dev.beats * 1250 + c.val
    let open' := s.dev.axes[x].windAt[w] + s.dev.fld (rAxChop x) 8 8 * 10
    let begun := s.dev.axes[x].windAt[w] + s.dev.fld (rAxChop x) 0 8 * 100
    (s.dev.axes[x].wind[w] = 1 → open' ≤ now → ∃ t, exec (.comparatorTrip x w c) s = .next t ∧
      t.dev.axes[x].wind[w] = 2 ∧ t.dev.axes[x].windAt[w] = now ∧
      t.dev.axes[x].early[w] = (if now = open' then s.dev.axes[x].early[w] + 1 else 0) ∧
      s.keeps t [.axes] (fun _ => False)) ∧
    ((s.dev.axes[x].wind[w] ≠ 1 ∨ now < open') → exec (.comparatorTrip x w c) s = .next s) ∧
    (s.dev.axes[x].wind[w] = 2 → begun ≤ now → ∃ t, exec (.offTimeEnd x w c) s = .next t ∧
      t.dev.axes[x].wind[w] = 1 ∧ t.dev.axes[x].windAt[w] = begun ∧ s.keeps t [.axes] (fun _ => False)) ∧
    ((s.dev.axes[x].wind[w] ≠ 2 ∨ now < begun) → exec (.offTimeEnd x w c) s = .next s)) ∧
  ∀ (m : Master) (x : Axis) (p : ProfileParam) (v : W32) (s : State),
    ∃ t, exec (.profileParamWrite m x p v) s = .next t ∧
      t.dev.fld (profileReg x p).1 0 (profileReg x p).2 = v.toNat % 2 ^ (profileReg x p).2 ∧
      s.keeps t [] (· = (profileReg x p).1)

/-- Homing begins, latches and fails; limits stop a move; release, retention and energising (08_sled_and_axes.md).
-/
def Obligations.AxisHomingAndRelease : Prop :=
  (∀ (m : Master) (x : Axis) (s : State),
    ((s.dev.axState x = 0 ∨ s.dev.axState x = 1 ∧ s.dev.homeUnset x = true) →
      ∃ t, exec (.axisHome m x) s = .next t ∧ t.dev.flag (rAxStat x) 9 = true ∧ t.dev.axState x = s.dev.axState x ∧
        s.keeps t [] (· = rAxStat x)) ∧
    (s.dev.axState x = 1 → s.dev.homeUnset x = false → s.dev.axes[x].phase = 0 →
      ∃ t hm, exec (.axisHome m x) s = .next t ∧ t.dev.axState x = 3 ∧ t.dev.axes[x].home = some hm ∧
        hm.stage = (if s.dev.flag (rAxSw x) 0 then 1 else 2) ∧ hm.start = s.dev.axPos x ∧
        t.dev.axPos x = s.dev.axPos x ∧ s.keeps t [.axes] (fun a => rAx x 0 ≤ a ∧ a < rAx x 0x100))) ∧
  (∀ (x : Axis) (sw : Switch) (level : Bool) (c : Fin 1250) (s : State),
    let bit := (match sw with | .inner => 0 | .outer => 1)
    let asserted := level != s.dev.flag (rAxHomeCfg x) (20 + bit)
    (s.dev.flag (rAxSw x) bit = asserted → exec (.limitQualified x sw level c) s = .next s) ∧
    (s.dev.axes[x].home = none → s.dev.flag (rAxSw x) bit = true → asserted = false →
      ∃ t, exec (.limitQualified x sw level c) s = .next t ∧ t.dev.flag (rAxSw x) bit = false ∧
        s.keeps t [] (· = rAxSw x)) ∧
    (s.dev.axes[x].home = none → s.dev.flag (rAxSw x) bit = false → asserted = true → s.dev.axState x ≠ 0 →
      ∃ t, exec (.limitQualified x sw level c) s = .next t ∧ t.dev.flag (rAxSw x) bit = true ∧
        t.dev.fld (rAxSw x) 16 8 = min (s.dev.fld (rAxSw x) 16 8 + 1) 255 ∧
        t.dev.flag (rAxStat x) 10 = true ∧ t.dev.fld (rAxStat x) 20 4 = 2 + bit ∧ t.dev.axState x = 1 ∧
        t.dev.axes[x].phase = 0 ∧ t.dev.axUncertain x = true ∧ t.dev.axPos x = s.dev.axPos x ∧ t.mem = s.mem)) ∧
  (∀ (x : Axis) (hm : Homing) (c : Fin 1250) (s : State), s.dev.axes[x].home = some hm → hm.stage = 2 →
    (hm.latchBeat = none → s.dev.flag (rAxSw x) 0 = false →
      ∃ t hm', exec (.limitQualified x .inner (!s.dev.flag (rAxHomeCfg x) 20) c) s = .next t ∧
        t.dev.axes[x].home = some hm' ∧ hm'.stage = 3 ∧
        hm'.latch = s.dev.posAt x (s.dev.beats * 1250 + c.val - s.dev.fld (rAxHomeCfg x) 0 8 * 1000) ∧ t.dev.axes[x].phase = 2 ∧ s.keeps t [.axes] (· ∈ [rAxSw x, rAxStat x])) ∧
    (hm.released = false → s.dev.fld (rAxHomeDist x) 16 16 * 256 ≤ (s.dev.axPos x - hm.start).natAbs →
      s.dev.axes[x].phase ≠ 0 →
      ∃ t hm', exec (.homeRangeExceeded x) s = .next t ∧ t.dev.flag (rAxStat x) 12 = true ∧
        t.dev.fld (rAxStat x) 13 3 = 1 ∧ t.dev.axUncertain x = true ∧ t.dev.axes[x].home = some hm' ∧ hm'.stage = 5 ∧
        t.dev.axes[x].phase = 2 ∧ s.keeps t [.axes] (· = rAxStat x))) ∧
  (∀ (h : Head) (s : State), s.dev.axes[sledOf h].holding = true → s.dev.axState (sledOf h) = 1 →
    ∃ t, exec (.holdDelayEnd (sledOf h)) s = .next t ∧ t.dev.axes[sledOf h].holding = false ∧
      t.dev.axes[sledOf h].bridge = (if s.dev.pwr.forced then 0 else 2) ∧
      s.keeps t [.axes] (· = rAxIndex (sledOf h))) ∧
  (∀ (x : Axis) (s : State), 4 ≤ x.val → s.dev.fld (rAxStby x) 0 2 ≠ 3 → s.dev.axes[x].holding = true → s.dev.axState x = 1 →
    ∃ t, exec (.holdDelayEnd x) s = .next t ∧ t.dev.axes[x].holding = false ∧
      t.dev.axes[x].bridge = (if s.dev.pwr.forced then 0 else [2, 0, 3].getD (s.dev.fld (rAxStby x) 0 2) 0) ∧
      s.keeps t [.axes] (· = rAxIndex x)) ∧
  (∀ (x : Axis) (s : State), s.dev.axes[x].holding = false → exec (.holdDelayEnd x) s = .next s) ∧
  (∀ (m : Master) (x : Axis) (s : State),
    (s.dev.axState x ≠ 1 → exec (.axisRelease m x) s = .next s) ∧
    (s.dev.axState x = 1 → ∃ t, exec (.axisRelease m x) s = .next t ∧ t.dev.axState x = 0 ∧
      t.dev.axPos x = s.dev.axPos x ∧
      ((s.dev.axes[x].bridge = 1 ∨ s.dev.axes[x].bridge = 2) → t.dev.axes[x].fade = some (s.dev.beats, false)) ∧
      (s.dev.axes[x].bridge ≠ 1 → s.dev.axes[x].bridge ≠ 2 → t.dev.axes[x].bridge = 0) ∧
      (x.val < 4 → s.dev.flag (rAxStby x) 2 = true → t.dev.flag (rAxStat x) 5 = true ∧
        t.dev.axes[x].retained = some (s.dev.fld (rAxIndex x) 0 10, s.dev.axPos x)) ∧
      (4 ≤ x.val → t.dev.axUncertain x = true) ∧ s.keeps t [.axes] (· ∈ [rAxStat x, rAxIndex x]))) ∧
  ∀ (m : Master) (x : Axis) (s : State),
    exec (.axisEnergise m x false) s = .next s ∧
    (s.dev.axState x = 0 →
      (s.dev.axes[x].retained = none → ∃ t, exec (.axisEnergise m x true) s = .next t ∧ t.dev.axState x = 1 ∧
        t.dev.axes[x].bridge = (if s.dev.pwr.forced then 0 else 2) ∧ t.dev.axes[x].fade = some (s.dev.beats, true) ∧
        t.dev.fld (rAxIndex x) 0 10 = 0 ∧ s.keeps t [.axes] (· ∈ [rAxStat x, rAxIndex x])) ∧
      ∀ (i : Nat) (pos : Int), i < 1024 → -(2 ^ 31) ≤ pos → pos < 2 ^ 31 → s.dev.axes[x].retained = some (i, pos) →
        ∃ t, exec (.axisEnergise m x true) s = .next t ∧ t.dev.axState x = 1 ∧ t.dev.axPos x = pos ∧
          t.dev.fld (rAxIndex x) 0 10 = i ∧ t.dev.flag (rAxStat x) 6 = decide (x.val < 4) ∧
          s.keeps t [.axes] (· ∈ [rAxStat x, rAxPos x, rAxIndex x]))

/-- Calibration windows form targets, dither cycles are abandoned in time, and the full calibration runs
(09_live_calibration.md). -/
def Obligations.CalibrationEngine : Prop :=
  (∀ (h : Head) (j : Spot) (s : State),
    let w := s.dev.heads[h].spots[j].win
    ((s.dev.inService h = false ∨ s.dev.ghostLight = true ∨ w.bits < s.dev.fld rMeasCfg 0 8 * 1024) →
      exec (.calWindow h j) s = .next s) ∧
    (s.dev.inService h = true → s.dev.ghostLight = false → s.dev.engineHalted 5 = false →
      s.dev.fld rMeasCfg 0 8 * 1024 ≤ w.bits →
      ∃ t, exec (.calWindow h j) s = .next t ∧ t.dev.heads[h].spots[j].win = .reset ∧
        (∀ k : Fin 15, k ≠ 7 → s.dev.fld (rClass 0) 0 2 ≠ 0 →
          t.dev.fld (rCalTgt h j k.val) 0 16 = uns 16 (w.shadow.getD k.val 0) ∧ t.dev.flag (rCalTgt h j k.val) 31 = true) ∧
        (∀ k : Fin 15, s.dev.fld (rClass 0) 0 2 = 0 → t.dev.rd (rCalTgt h j k.val) = s.dev.rd (rCalTgt h j k.val)) ∧
        s.keeps t [.heads] (fun a => ∃ k : Fin 18, a = rCalTgt h j k.val))) ∧
  (∀ (h : Head) (x : Dither) (s : State), s.dev.cal.dither[h] = some x →
    (x.start + s.dev.fld rCalSrv 16 8 ≤ s.dev.cue.act →
      ∃ t, exec (.ditherAbandon h) s = .next t ∧ t.dev.cal.dither[h] = some { x with stage := 5 } ∧
        s.keeps t [.cal] (fun _ => False)) ∧
    (s.dev.cue.act < x.start + s.dev.fld rCalSrv 16 8 → exec (.ditherAbandon h) s = .next s)) ∧
  (∀ (m : Master) (s : State),
    (s.dev.rehearsal = false → exec (.calFull m) s = .next s) ∧
    (s.dev.rehearsal = true → (∀ h : Head, s.dev.inService h = false ∨ s.dev.fld (rJesd h) 0 4 ≠ 15) →
      ∃ t, exec (.calFull m) s = .next t ∧ t.dev.flag rCalCtl 2 = true ∧ t.dev.flag rCalCtl 3 = false ∧
        s.keeps t [] (· = rCalCtl))) ∧
  ∀ (hs : Fin 4 → CalHead) (s : State),
    (s.dev.flag rCalCtl 2 = false → exec (.calFullDone [hs 0, hs 1, hs 2, hs 3]) s = .next s) ∧
    (s.dev.flag rCalCtl 2 = true → ∃ t, exec (.calFullDone [hs 0, hs 1, hs 2, hs 3]) s = .next t ∧
      t.dev.flag rCalCtl 2 = false ∧ t.dev.flag rCalCtl 3 = true ∧
      (∀ h : Head, t.dev.inService h = (s.dev.inService h && s.dev.calPassed (hs h))) ∧
      t.mem = s.mem ∧ t.dev.sides = s.dev.sides ∧ t.dev.hq = s.dev.hq)

/-! ### Host queues and commands (10_host_queueing.md) -/

/-- Ring doorbells, enable and disable, posts, interrupts, the fetch, and the hot reset (10_host_queueing.md). -/
def Obligations.HostRingsAndFetch : Prop :=
  (∀ (m : Master) (r : RingId) (v : W32) (s : State),
    (fget v 0 12 < s.dev.sqSize r → ∃ t, exec (.sqTailDoorbell m r v) s = .next t ∧
      t.dev.fld (rSqTail r) 0 12 = fget v 0 12 ∧ t.dev.hq.rings[r].stopped = false ∧ s.keeps t [.hq] (· = rSqTail r)) ∧
    (s.dev.sqSize r ≤ fget v 0 12 → ∃ t, exec (.sqTailDoorbell m r v) s = .next t ∧ t.dev.flag (rRingStat r) 27 = true ∧
      s.keeps t [] (· = rRingStat r)) ∧
    (fget v 0 12 < s.dev.cqSize r → ∃ t, exec (.cqHeadDoorbell m r v) s = .next t ∧
      t.dev.fld (rCqHead r) 0 12 = fget v 0 12 ∧ s.keeps t [] (· = rCqHead r)) ∧
    (s.dev.cqSize r ≤ fget v 0 12 → ∃ t, exec (.cqHeadDoorbell m r v) s = .next t ∧ t.dev.flag (rRingStat r) 27 = true ∧
      s.keeps t [] (· = rRingStat r)) ∧
    (2 ≤ s.dev.sqSize r → s.dev.sqSize r ≤ 4096 → 2 ≤ s.dev.cqSize r → s.dev.cqSize r ≤ 4096 → s.dev.ringOn r = false →
      ∃ t, exec (.ringEnable m r v) s = .next t ∧ t.dev.ringOn r = true ∧ t.dev.sqHead r = 0 ∧ t.dev.sqTailOf r = 0 ∧
        t.dev.hq.rings[r].cqTail = 0 ∧ t.dev.hq.rings[r].phase = true ∧ t.dev.hq.rings[r].held = [] ∧
        s.keeps t [.hq, .sampled] (· ∈ [rRingCfg r, rRingStat r, rSqTail r, rCqHead r])) ∧
    ((s.dev.sqSize r < 2 ∨ 4096 < s.dev.sqSize r ∨ s.dev.cqSize r < 2 ∨ 4096 < s.dev.cqSize r) →
      ∃ t, exec (.ringEnable m r v) s = .next t ∧ t.dev.flag (rRingCfg r) 1 = true ∧ t.dev.ringOn r = s.dev.ringOn r ∧
        s.keeps t [] (· = rRingCfg r)) ∧
    (s.dev.outstandingOf r = 0 → ∃ t, exec (.ringDisable m r v) s = .next t ∧ t.dev.ringOn r = false ∧
      t.dev.hq.rings[r].held = [] ∧ s.keeps t [.hq] (· = rRingCfg r)) ∧
    (s.dev.outstandingOf r ≠ 0 → ∃ t, exec (.ringDisable m r v) s = .next t ∧ t.dev.flag (rRingCfg r) 1 = true ∧
      t.dev.ringOn r = s.dev.ringOn r ∧ s.keeps t [] (· = rRingCfg r))) ∧
  (∀ (r : RingId) (p : Post) (d : Dev),
    (d.ringOn r = false → d.ringPost r p = d) ∧
    (d.ringOn r = true → d.hq.rings[r].held = [] → d.cqFull r = false →
      (d.ringPost r p).sent = .hostWrite (d.rd64 (rCqBase r) + 64 * d.hq.rings[r].cqTail)
        (postBytes p d.hq.rings[r].phase (d.sqHead r)) :: d.sent ∧
      (d.ringPost r p).hq.rings[r].unsignalled = d.hq.rings[r].unsignalled + 1 ∧ (d.ringPost r p).regs = d.regs) ∧
    (d.ringOn r = true → d.cqFull r = true → p.isStatus = true → (d.ringPost r p).sent = d.sent ∧
      (d.ringPost r p).hq.rings[r].held = d.hq.rings[r].held ++ [p])) ∧
  (∀ (r : RingId) (s : State),
    (s.dev.signalDue r = false → exec (.interruptSignal r) s = .next s) ∧
    (s.dev.signalDue r = true → let v := s.dev.fld (rRingCfg r) 2 6
      ∃ t, exec (.interruptSignal r) s = .next t ∧ t.dev.hq.rings[r].unsignalled = 0 ∧
        (s.dev.flag (rMsix v + 0x0C) 0 = false →
          t.dev.sent = .msi (s.dev.rd64 (rMsix v)) (s.dev.rd (rMsix v + 8)).toNat :: s.dev.sent) ∧
        (s.dev.flag (rMsix v + 0x0C) 0 = true → t.dev.flag (rMsixPend (v / 32)) (v % 32) = true ∧ t.dev.sent = s.dev.sent) ∧
        s.keeps t [.hq, .sent] (· = rMsixPend (v / 32)))) ∧
  (∀ (r : RingId) (s : State), s.dev.fabric = true → s.dev.stopped = false → s.dev.engineHalted 6 = false →
    s.dev.flag rHqCtl 8 = false → s.dev.outstanding < 8192 → s.dev.nextRing = some r →
    s.dev.cue.used[0] < s.dev.fld (rBudget 0) 0 24 → s.dev.pcie.busMaster = true → s.dev.hq.cmds = [] →
    (∀ k : Fin 4, ∃ t, exec (.commandFetch (.failed k)) s = .next t ∧ t.dev.flag (rRingStat r) 29 = true ∧
      t.dev.hq.rings[r].stopped = true ∧ t.dev.sqHead r = s.dev.sqHead r ∧
      s.keeps t [.hq, .flt] (· ∈ [rRingStat r, rHqStat])) ∧
    ∀ p : Slot, 1 ≤ s.dev.fetchCount r → 2 ≤ s.dev.sqSize r → s.dev.sqSize r ≤ 4096 →
      (pType p = 1 → pOp p = 0x33 → pCdw0 p % 2 ^ 16 ∈ [1, 3, 4, 5] → pNsid p = 0 → s.dev.hq.rings[r].defers = [] →
        ∃ t, exec (.commandFetch (.entries [p])) s = .next t ∧
          t.dev.hq.cmds = [Cmd.fetched (.ring r) p s.dev.hq.order] ∧ t.dev.hq.order = s.dev.hq.order + 1 ∧
          t.dev.sqHead r = (s.dev.sqHead r + 1) % s.dev.sqSize r ∧ t.dev.cue.used[0] = s.dev.cue.used[0] + 1 ∧
          s.keeps t [.hq, .cue] (· ∈ [rRingStat r, rHqStat])) ∧
      (∀ e rest, pType p = 1 → s.dev.leaving = false → s.dev.hq.rings[r].defers = e :: rest →
        ∃ t, exec (.commandFetch (.entries [p])) s = .next t ∧ t.dev.hq.cmds = [] ∧
          t.dev.hq.rings[r].defers = rest ∧ t.dev.fld (rRingDefer r) 0 7 = rest.length % 2 ^ 7 ∧
          s.keeps t [.hq, .cue, .sent] (· ∈ [rRingStat r, rHqStat, rRingDefer r])) ∧
      (pType p = 3 → ∃ t, exec (.commandFetch (.entries [p])) s = .next t ∧
        t.dev.hq.entries = s.dev.hq.entries ++ [(.ring r, p)] ∧ t.dev.hq.cmds = [] ∧
        s.keeps t [.hq, .cue] (· ∈ [rRingStat r, rHqStat]))) ∧
  ∀ s : State, s.dev.hq.cmds = [] → ∃ t, exec .hotReset s = .next t ∧ t.dev.pcie.busMaster = false ∧
    (∀ r : RingId, t.dev.ringOn r = false ∧ t.dev.hq.rings[r].held = [] ∧ t.dev.hq.rings[r].defers = []) ∧
    t.dev.hq.rows = s.dev.hq.rows ∧
    s.keeps t [.hq, .pcie] (fun a => ∃ r : RingId, a = rRingCfg r ∨ a = rRingDefer r)

/-- WRITE with its offers, data and acknowledgement; READ and VERIFY of buffered data; ABORT (10_host_queueing.md).
-/
def Obligations.HostDataCommands : Prop :=
  (∀ (src : CmdSrc) (tag : BitVec 16) (c : Cmd) (s : State), s.alone c src tag 0x11 → c.ready = false → c.acked = false →
    c.nsid < 0x100 → s.dev.mayRun c = true → s.dev.firstBroken (s.dev.mlbas c.slot) = none →
    (∀ k, s.dev.nsReplace c.nsid = false → s.dev.firstHeld (s.dev.mlbas c.slot) 0 = some (some k) →
      exec (.write src tag) s = .next { s with dev := s.dev.ended c 0x24 0 (c.lba + k) }) ∧
    (s.dev.firstHeld (s.dev.mlbas c.slot) 0 = none → exec (.write src tag) s = .next s) ∧
    (s.dev.firstHeld (s.dev.mlbas c.slot) 0 = some none →
      (∀ m ∈ s.dev.mlbas c.slot, s.dev.placeState (homeOf m).1 = 0) →
      ∃ t, exec (.write src tag) s = .next t ∧ t.dev.hq.cmds = [{ c with ready := true }] ∧
        s.keeps t [.hq] (fun _ => False))) ∧
  (∀ (src : CmdSrc) (tag : BitVec 16) (c : Cmd) (s : State), s.dev.hq.cmds = [c] → c.src = src → c.tag = tag →
    c.op = 0x11 → c.nsid < 0x100 → c.silent = false → c.acked = false →
    (let room := (s.dev.smpF (rStream c.stream) 0 21 * 65536 - s.dev.streamUse c.stream) / 65536 * 16
     let n := min (c.len - c.offered) (min 1024 room)
     s.dev.stopped = false → s.dev.engineHalted 6 = false → c.ready = true → c.offered < c.len → min 16 (c.len - c.offered) ≤ n →
      (c.started = true ∨ s.dev.mayRun c = true) → c.offers.length < s.dev.fld rXrdy 0 4 →
      s.dev.bufferUse + 4096 * n ≤ s.dev.allocBytes →
      s.dev.cue.used[1] + n * c.lbaBytes ≤ s.dev.fld (rBudget 1) 0 24 * 65536 →
      ∃ t, exec (.offerPost src tag) s = .next t ∧
        t.dev.hq.cmds = [{ c with started := true, offered := c.offered + n, nextOffer := c.nextOffer + 1, offers := c.offers ++ [{ id := c.nextOffer, ofs := c.offered, count := n, since := s.dev.beats }] }] ∧
        t.dev.cue.used[1] = s.dev.cue.used[1] + n * c.lbaBytes ∧
        s.keeps t [.hq, .cue, .sent, .ens] (fun _ => False)) ∧
    (∀ o ∈ c.offers, s.dev.offerStale o = true →
      exec (.offerTimeout src tag o.id) s = .next { s with dev := s.dev.ended c 0x10 }) ∧
    (∀ i, (∀ o ∈ c.offers, o.id = i → s.dev.offerStale o = false) → exec (.offerTimeout src tag i) s = .next s) ∧
    (∀ (p : Slot) (o : Offer) (data : List Byte) (x : TransferEnd), (src, p) ∈ s.dev.hq.entries → pTag p = tag →
      c.offers = [o] → o.id < 65536 → slotField p 6 2 = o.id →
      s.dev.cue.used[2] + o.count * c.lbaBytes ≤ s.dev.fld (rBudget 2) 0 24 * 65536 →
      ((slotField p 1 1).testBit 0 = true → exec (.dataDescriptor src p data x) s =
        .next { s with dev := ({ s.dev with hq.entries := s.dev.hq.entries.erase (src, p) }).ended c 0x10 }) ∧
      (slotField p 1 1 = 0 → slotField p 8 8 % 4 = 0 → 1 ≤ slotField p 16 4 → slotField p 16 4 ≤ 65536 → c.guard = false →
        ∃ t c', exec (.dataDescriptor src p data .complete) s = .next t ∧ t.dev.hq.cmds = [c'] ∧ c'.offers = [] ∧
          (∀ i, i < o.count → ∃ r, sfind c'.got (o.ofs + i) = some r ∧ r.data = (data.drop (i * 4096)).take 4096 ∧
            r.good (c.tagOf (o.ofs + i)) = true) ∧
          s.keeps t [.hq, .cue] (fun _ => False))) ∧
    (∀ (p : Slot) (data : List Byte) (x : TransferEnd), (src, p) ∈ s.dev.hq.entries → pTag p ≠ tag →
      ∃ t, exec (.dataDescriptor src p data x) s = .next t ∧ t.dev.hq.cmds = [c] ∧
        t.dev.fld rHqStat 16 16 = min (s.dev.fld rHqStat 16 16 + 1) 0xFFFF ∧ (∃ e ∈ t.dev.flt.board, e.code = 0x0131) ∧
        s.keeps t [.hq, .flt] (· = rHqStat)) ∧
    (c.ready = true → c.got.length = c.len → s.dev.ghostLight = true → c.fua = true →
      exec (.writeAck src tag) s = .next { s with dev := s.dev.ended c 0x40 }) ∧
    (c.ready = true → c.got.length = c.len → (∀ (k : Nat) (g : Nat × Rec), c.got[k]? = some g → g.1 = k) →
      (s.dev.ghostLight = false ∨ c.fua = false) →
      ∃ t, exec (.writeAck src tag) s = .next t ∧
        (∀ (k : Nat) (g : Nat × Rec), c.got[k]? = some g → ∃ r ∈ t.dev.hq.rows, r.mlba = s.dev.nsFirst c.nsid + c.lba + k ∧ r.body = g.2 ∧
          r.committed = false ∧ c.order ∈ r.writes) ∧
        (c.fua = false → t.dev.hq.cmds = []) ∧
        (c.fua = true → 0 < c.len → t.dev.hq.cmds = [{ c with acked := true, got := [] }] ∧
          t.dev.sides[s.dev.cmdSide c].recWanted = true) ∧
        s.keeps t [.hq, .sides, .sent, .ens] (fun _ => False))) ∧
  (∀ (src : CmdSrc) (tag : BitVec 16) (c : Cmd) (rows : Nat → Row) (s : State), c.nsid < 0x100 →
    s.dev.mayRun c = true →
    (∀ k, k < c.len → s.dev.rowAt (s.dev.nsFirst c.nsid + (c.lba + k)) = some (rows k) ∧
      (rows k).body.good (c.tagOf 0 + k) = true) →
    (s.alone c src tag 0x12 → exec (.verify src tag) s =
      .next { s with dev := (s.dev.ended c 0 0 0 c.len 0 s.dev.sides[s.dev.cmdSide c].takeover).forgetRange c.nsid c.lba c.len }) ∧
    (s.alone c src tag 0x10 → ∀ r, src = .ring r → c.direct = true → c.len * c.lbaBytes ≤ pDlen c.slot → 0 < c.len →
      c.offered = 0 → (∀ k, k < c.len → (rows k).body.data.length = 4096) →
      s.dev.cue.used[3] + c.len * c.lbaBytes ≤ s.dev.fld (rBudget 3) 0 24 * 65536 →
      ∃ t, exec (.read src tag .complete) s = .next t ∧ t.dev.hq.cmds = [] ∧
        .hostWrite (pDptr c.slot) ((List.range c.len).flatMap fun k => c.deliver (rows k).body) ∈ t.dev.sent ∧
        t.dev.cue.used[3] = s.dev.cue.used[3] + c.len * c.lbaBytes ∧
        s.keeps t [.hq, .cue, .sent, .sides] (fun _ => False))) ∧
  ∀ (src : CmdSrc) (a : Slot) (last : Bool) (s : State), (src, a) ∈ s.dev.hq.entries →
    let d := { s.dev with hq.entries := s.dev.hq.entries.erase (src, a) }
    let answer (d : Dev) (r : Nat) : Dev := d.srcPost src (.status (pTag a) 0 r 0 0 0 0 false false false)
    (s.dev.hq.cmds = [] → exec (.abort src a last) s =
      .next { s with dev := answer d (if d.tagBusy (abortTarget src a) (BitVec.ofNat 16 (slotField a 6 2)) then 1 else 2) }) ∧
    ∀ c : Cmd, s.dev.hq.cmds = [c] → c.src = abortTarget src a → c.tag = BitVec.ofNat 16 (slotField a 6 2) → c.op = 0x11 →
      c.subs = [] → c.silent = false →
      (c.acked = false → exec (.abort src a last) s = .next { s with dev := answer (d.ended c 0x10) 0 })

/-- IDENTIFY, the log pages, features and budgets: the data each moves, what it stages, and its one STATUS
(10_host_queueing.md, 15_power_reset_boot.md, 16_config_and_registers.md). -/
def Obligations.HostFeaturesAndPages : Prop :=
  (∀ (src : CmdSrc) (tag : BitVec 16) (c : Cmd) (s : State), s.alone c src tag 0x32 →
    (pCdw0 c.slot % 2 ^ 16 = 1 → ∃ d, exec (.setQuietCeiling src tag) s = .next { s with dev := d.ended c 0 } ∧
      d.shadow rSpnQuiet = BitVec.ofNat 32 (pCdw1 c.slot) ∧ (∀ a, a ≠ rSpnQuiet → d.shadow a = s.dev.shadow a) ∧
      s.keeps { s with dev := d } [.staged] (fun _ => False)) ∧
    (pCdw0 c.slot % 2 ^ 16 = 2 → let a := rNs (pCdw0 c.slot / 2 ^ 16)
      ∃ d, exec (.setNamespace src tag) s = .next { s with dev := d.ended c 0 } ∧
      d.shadow a = BitVec.ofNat 32 c.lba ∧ d.shadow (a + 4) = BitVec.ofNat 32 (c.lba / 2 ^ 32) ∧
      d.shadow (a + 8) = BitVec.ofNat 32 c.len ∧ d.shadow (a + 12) = fset (s.dev.shadow (a + 12)) 0 2 (pCdw1 c.slot) ∧
      (∀ b, b ∉ [a, a + 4, a + 8, a + 12] → d.shadow b = s.dev.shadow b) ∧
      s.keeps { s with dev := d } [.staged] (fun _ => False)) ∧
    (pCdw0 c.slot % 2 ^ 16 = 3 → ∃ d, exec (.setSideVerify src tag) s = .next { s with dev := d.ended c 0 } ∧
      d.shadowF (rSideCfg 0) 0 1 = pCdw1 c.slot % 2 ∧ d.shadowF (rSideCfg 1) 0 1 = pCdw1 c.slot / 2 % 2 ∧
      (∀ b, b ∉ [rSideCfg 0, rSideCfg 1] → d.shadow b = s.dev.shadow b) ∧
      s.keeps { s with dev := d } [.staged] (fun _ => False)) ∧
    (pCdw0 c.slot % 2 ^ 16 = 4 → ∃ d, exec (.setEventRing src tag) s = .next { s with dev := d.ended c 0 } ∧
      d.fld rHqCtl 0 4 = pCdw1 c.slot % 16 ∧ s.keeps { s with dev := d } [] (· = rHqCtl)) ∧
    (pCdw0 c.slot % 2 ^ 16 = 5 → ∃ d, exec (.setXrdyTimeout src tag) s = .next { s with dev := d.ended c 0 } ∧
      d.shadowF rXrdy 4 16 = pCdw1 c.slot % 2 ^ 16 ∧ d.shadowF rXrdy 0 4 = s.dev.shadowF rXrdy 0 4 ∧
      (∀ b, b ≠ rXrdy → d.shadow b = s.dev.shadow b) ∧ s.keeps { s with dev := d } [.staged] (fun _ => False))) ∧
  (∀ (src : CmdSrc) (tag : BitVec 16) (c : Cmd) (s : State), s.alone c src tag 0x33 →
    let is (k : Nat) : Prop := pCdw0 c.slot % 2 ^ 16 = k
    let gives (o : Instr) (info aux : Nat) : Prop := exec o s = .next { s with dev := s.dev.ended c 0 0 info 0 aux }
    (is 1 → gives (.getQuietCeiling src tag) (s.dev.shadow rSpnQuiet).toNat 0) ∧
    (is 3 → gives (.getSideVerify src tag) (s.dev.shadowF (rSideCfg 0) 0 1 + 2 * s.dev.shadowF (rSideCfg 1) 0 1) 0) ∧
    (is 4 → gives (.getEventRing src tag) (s.dev.fld rHqCtl 0 4) 0) ∧
    (is 5 → gives (.getXrdyTimeout src tag) (s.dev.shadowF rXrdy 4 16) 0) ∧
    (is 2 → let n := pCdw0 c.slot / 2 ^ 16
      gives (.getNamespace src tag) ((s.dev.shadow (rNs n)).toNat + (s.dev.shadow (rNs n + 8)).toNat * 2 ^ 32)
        (s.dev.shadowF (rNs n + 12) 0 2 + 4 * (s.dev.nsSide n).val))) ∧
  (∀ (src : CmdSrc) (tag : BitVec 16) (c : Cmd) (s : State), s.alone c src tag 0x34 →
    ∃ d, exec (.setBudget src tag) s = .next { s with dev := d.ended c 0 } ∧
      d.fld (rStream (pCdw0 c.slot)) 0 21 = pCdw1 c.slot % 2 ^ 21 ∧
      d.smpF (rStream (pCdw0 c.slot)) 0 21 = pCdw1 c.slot % 2 ^ 21 ∧
      s.keeps { s with dev := d } [.sampled] (· = rStream (pCdw0 c.slot))) ∧
  (∀ (r : RingId) (tag : BitVec 16) (c : Cmd) (s : State), s.alone c (.ring r) tag 0x30 →
    s.dev.cue.used[3] + 4096 ≤ s.dev.fld (rBudget 3) 0 24 * 65536 → c.offered = 0 →
    (pCdw0 c.slot = 0 → (c.direct = true → 4096 ≤ pDlen c.slot) →
      ∃ t, exec (.identifyDevice (.ring r) tag) s = .next t ∧ s.dev.identifyBytes.length = 4096 ∧ t.dev.hq.cmds = [] ∧
        (if c.direct then Output.hostWrite (pDptr c.slot) s.dev.identifyBytes
          else .hostList (pDptr c.slot) (pDlen c.slot) 0 s.dev.identifyBytes) ∈ t.dev.sent ∧
        t.dev.cue.used[3] = s.dev.cue.used[3] + 4096 ∧ s.keeps t [.hq, .cue, .sent] (fun _ => False)) ∧
    (pCdw0 c.slot = 1 → s.dev.nsOn c.nsid = false → c.nsid < 0x100 →
      exec (.identifyNamespace (.ring r) tag) s = .next { s with dev := s.dev.ended c 0x21 6 }) ∧
    (pCdw0 c.slot = 1 → s.dev.nsOn c.nsid = true → (c.direct = true → 4096 ≤ pDlen c.slot) →
      ∃ t bs, exec (.identifyNamespace (.ring r) tag) s = .next t ∧ bs.length = 4096 ∧ t.dev.hq.cmds = [] ∧
        leNat (bs.take 2) = c.nsid ∧ leNat ((bs.drop 8).take 8) = s.dev.nsCount c.nsid ∧
        leNat ((bs.drop 16).take 8) = s.dev.nsFirst c.nsid ∧
        (if c.direct then Output.hostWrite (pDptr c.slot) bs else .hostList (pDptr c.slot) (pDlen c.slot) 0 bs) ∈ t.dev.sent ∧
        s.keeps t [.hq, .cue, .sent] (fun _ => False))) ∧
  ∀ (src : CmdSrc) (tag : BitVec 16) (c : Cmd) (o : Instr) (page : List Byte) (s : State), s.alone c src tag 0x31 →
    (pCdw0 c.slot, o, page) ∈
      [(1, Instr.getLogDeferred src tag, s.dev.hq.deferLog.flatMap Defer.bytes),
       (2, .getLogCallBoard src tag, s.dev.flt.board.flatMap Entry.bytes),
       (3, .getLogDiscard src tag, discardPage s.mem.flash),
       (4, .getLogSides src tag, s.dev.sideBytes 0 ++ s.dev.sideBytes 1)] →
    c.offered = 0 → 0 < pDlen c.slot → pDlen c.slot % 4 = 0 →
    (s.dev.fld (rBudget c.outBudget) 0 24 * 65536 ≤ s.dev.cue.used[c.outBudget] →
      ∃ t, exec o s = .next t ∧ t.dev.hq.cmds = [{ c with started := true }] ∧ s.keeps t [.hq, .cue] (fun _ => False)) ∧
    (s.dev.cue.used[c.outBudget] + pDlen c.slot ≤ s.dev.fld (rBudget c.outBudget) 0 24 * 65536 →
      ∃ t bs, exec o s = .next t ∧ t.dev.hq.cmds = [] ∧ bs.length = pDlen c.slot ∧
        (∀ i, i < pDlen c.slot → bs.getD i 0 = page.getD (pCdw1 c.slot + i) 0) ∧
        .hostWrite (pDptr c.slot) bs ∈ t.dev.sent ∧
        t.dev.cue.used[c.outBudget] = s.dev.cue.used[c.outBudget] + pDlen c.slot ∧
        s.keeps t [.hq, .cue, .sent, .ens] (fun _ => False))

/-- FLUSH, LOAD, UNLOAD, firmware staging and activation, QUEUE_RESET and CURTAIN (10_host_queueing.md,
15_power_reset_boot.md). -/
def Obligations.HostMaintenance : Prop :=
  (∀ (src : CmdSrc) (tag : BitVec 16) (c : Cmd) (s : State), s.alone c src tag 0x13 →
    (s.dev.mayRun c = false → exec (.flush src tag) s = .next s) ∧
    (s.dev.mayRun c = true → s.dev.hq.curtain = none →
      ((∀ r ∈ s.dev.hq.rows, r.committed = true) →
        exec (.flush src tag) s = .next { s with dev := s.dev.ended c 0 0 0 0 0 (s.dev.degradedCmd c) }) ∧
      (∀ r ∈ s.dev.hq.rows, r.committed = false → r.order < c.order → s.dev.sides[r.home.side].mounted = true →
        ∃ t, exec (.flush src tag) s = .next t ∧ t.dev.hq.cmds = [{ c with started := true }] ∧
          t.dev.sides[r.home.side].recWanted = true ∧ t.dev.hq.rows = s.dev.hq.rows ∧
          s.keeps t [.hq, .sides] (fun _ => False)))) ∧
  (∀ (src : CmdSrc) (tag : BitVec 16) (c : Cmd) (s : State), s.alone c src tag 0x20 → s.dev.mayRun c = true →
    ∀ cal : List CalHead,
    (s.dev.hq.disc = false → exec (.load src tag cal) s = .next { s with dev := s.dev.ended c 0x41 }) ∧
    (s.dev.hq.disc = true → (s.dev.sides[0].mounted = true ∨ s.dev.sides[1].mounted = true) →
      exec (.load src tag cal) s = .next { s with dev := s.dev.ended c 0 }) ∧
    (s.dev.hq.disc = true → s.dev.sides[0].mounted = false → s.dev.sides[1].mounted = false →
      (s.dev.sideDown 0 = true → s.dev.sideDown 1 = true →
        exec (.load src tag cal) s = .next { s with dev := s.dev.ended c 0x40 }) ∧
      (s.dev.sideDown 0 = false → (∀ x, s.dev.sideDown x = false → ∃ p, s.dev.mountScan x = .error p) →
        ∃ t, exec (.load src tag cal) s = .next t ∧ t.dev.hq.cmds = [{ c with started := true }] ∧
          t.dev.hq.unloaded = false ∧ s.keeps t [.hq] (fun _ => False)) ∧
      ∀ (x : Side) (f : MountFind) (found : List Nat), s.dev.sideDown x = false → s.dev.mountScan x = .ok (f, found) →
        f.logNext < 3072 →
        ∃ t r, exec (.load src tag cal) s = .next t ∧ t.dev.sides[x].mounted = true ∧
          t.dev.sides[x].sequence = f.sequence ∧ t.dev.sides[x].map = markPlaces f.map found 2 ∧
          t.dev.sides[x].recFlight = some r ∧ r.type = 1 ∧ r.clean = false ∧ r.consumed = found ∧ t.mem = s.mem)) ∧
  (∀ (src : CmdSrc) (tag : BitVec 16) (c : Cmd) (s : State), s.alone c src tag 0x21 → s.dev.mayRun c = true →
    (s.dev.sides[0].mounted = true ∨ s.dev.sides[1].mounted = true) → s.dev.hq.unloaded = false →
    s.dev.hq.ejected = false →
    ∃ t, exec (.unload src tag) s = .next t ∧ t.dev.hq.cmds = [{ c with started := true }] ∧
      (∀ x : Side, t.dev.sides[x].cleanWanted = s.dev.sides[x].mounted) ∧ s.keeps t [.hq, .sides] (fun _ => False)) ∧
  (∀ (src : CmdSrc) (tag : BitVec 16) (c : Cmd) (s : State), s.dev.hq.cmds = [c] → c.src = src → c.tag = tag →
    c.op = 0x40 → c.ready = false → ∃ t, exec (.fwStage src tag) s = .next t ∧
      t.dev.hq.cmds = [{ c with ready := true, started := true }] ∧
      (∀ a, t.flashByte a = (if c.lba = 0 ∧ slotBase (pCdw0 c.slot % 2) ≤ a ∧ a < slotBase (pCdw0 c.slot % 2) + 0x180_0000
        then 0xFF else s.flashByte a)) ∧ s.keeps t [.hq, .flash] (fun _ => False)) ∧
  (∀ (src : CmdSrc) (tag : BitVec 16) (c : Cmd) (s : State), s.alone c src tag 0x41 →
    ((s.dev.hq.activate ≠ none ∨ s.dev.cfg.busy ≠ none ∨ s.dev.cfg.waiting ≠ []) →
      exec (.fwActivate src tag) s = .next s) ∧
    ∀ k, s.dev.hq.activate = none → s.dev.cfg.busy = none → s.dev.cfg.waiting = [] →
      headerCheck s.mem.flash (pCdw0 c.slot % 2) = some k →
      ∃ t, exec (.fwActivate src tag) s = .next t ∧ t.dev.hq.cmds = [] ∧ (∃ e ∈ t.dev.flt.board, e.code = 0x0151) ∧
        t.dev.fld (rEvcnt 33) 0 16 = min (s.dev.fld (rEvcnt 33) 0 16 + 1) 0xFFFF ∧ t.dev.hq.activate = none ∧
        s.keeps t [.hq, .flt, .cue, .sent, .ens] (· = rEvcnt 33)) ∧
  (∀ (src : CmdSrc) (tag : BitVec 16) (c x : Cmd) (s : State), c.src = src → c.tag = tag → c.op = 0x42 → c.started = false →
    c.silent = false → x.src = .ring (Fin.ofNat 16 (pCdw0 c.slot)) → x.op = 0x33 → x.started = false → x.acked = false →
    (s.dev.hq.cmds = [c] ∨ s.dev.hq.cmds = [x, c] ∧ x.order ≠ c.order) →
    let r : RingId := Fin.ofNat 16 (pCdw0 c.slot)
    (src = .ring r ∨ s.dev.hq.rings[r].held = [] ∧ s.dev.cqFull r = false) →
    ∃ t, exec (.queueReset src tag) s = .next t ∧ t.dev.hq.cmds = [] ∧ t.dev.hq.rings[r].defers = [] ∧
      (∀ e ∈ t.dev.hq.entries, e.1 ≠ .ring r) ∧ t.dev.flag (rRingStat r) 28 = false ∧
      t.dev.fld (rEvcnt 32) 0 16 = min (s.dev.fld (rEvcnt 32) 0 16 + 1) 0xFFFF ∧
      s.keeps t [.hq, .cue, .sent, .ens] (· ∈ [rRingStat r, rRingDefer r, rEvcnt 32])) ∧
  (∀ (src : CmdSrc) (tag : BitVec 16) (c : Cmd) (s : State), s.alone c src tag 0x43 →
    (s.dev.hq.curtain ≠ none → ∃ t, exec (.curtain src tag) s = .next t ∧ t.dev.hq.cmds = [{ c with started := true }] ∧
      t.dev.hq.curtain = s.dev.hq.curtain ∧ s.keeps t [.hq] (fun _ => False)) ∧
    (s.dev.hq.curtain = none → s.dev.hq.rows = [] →
      ∃ t k c', exec (.curtain src tag) s = .next t ∧ t.dev.hq.curtain = some k ∧ k.cmd = some c.order ∧
        k.start = s.dev.beats ∧ t.dev.hq.cmds = [c'] ∧ c'.started = true ∧ c'.tag = c.tag ∧
        (∀ r : RingId, t.dev.hq.rings[r].defers = []) ∧
        t.dev.fld (rEvcnt 34) 0 16 = min (s.dev.fld (rEvcnt 34) 0 16 + 1) 0xFFFF ∧ t.mem = s.mem ∧
        t.dev.heads = s.dev.heads)) ∧
  ∀ (c : Cmd) (k : Curtain) (s : State), s.dev.hq.curtain = some k →
    ((∃ r ∈ s.dev.hq.rows, r.committed = false) → s.dev.beats < k.start + 1600000 → k.final = false →
      exec .curtainCommitEnd s = .next s) ∧
    (s.dev.hq.rows = [] → s.dev.sides[0].mounted = false → s.dev.sides[1].mounted = false → k.discarded = [] →
      k.warm = false → s.dev.hq.cmds = [c] → c.op = 0x43 → c.started = true → c.silent = false → s.dev.flt.copy = none →
      ∃ t, exec .curtainCommitEnd s = .next t ∧ t.dev.hq.curtain = none ∧ t.dev.hq.curtained = true ∧ t.dev.hq.cmds = [] ∧
        t.dev.flag rHqCtl 8 = s.dev.hq.activate.isSome ∧ t.dev.flag rCopyStat 0 = true ∧
        t.dev.cfg.waiting = s.dev.cfg.waiting ++ [.boardCopy] ∧
        s.keeps t [.hq, .sides, .flt, .cfg, .sent, .ens] (· ∈ [rHqCtl, rCopyStat]))

/-! ### The ensemble (13_ensemble.md) -/

/-- Sequenced frames: whose they are, discard, order, gap and repeat, delivery, acknowledgement and retransmission
(13_ensemble.md). -/
def Obligations.FramesAndDelivery : Prop :=
  (∀ (f : FrameHdr) (q : Fin 4) (o : Instr) (s : State),
    o ∈ [Instr.packets f [], .nak f 0 1, .directory f ⟨0, 0, true, false, false, false, []⟩, .readResp f 0 [], .writeResp f 0,
      .readReq f 0 0 4 q [], .writeReq f 0 0 [0, 0, 0, 0] q] →
    (∀ ch, s.dev.dmaBusy ch = false) → s.dev.flag rDirCtl 1 = false →
    (s.dev.role = 0 ∨ f.dst.toNat ≠ s.dev.deviceId → ∃ t, exec o s = .next t ∧ s.keeps t [.cfg] (fun _ => False)) ∧
    (s.dev.role ≠ 0 → f.dst.toNat = s.dev.deviceId → (f.macOk = false ∨ f.version ≠ 1) →
      ∃ t, exec o s = .next t ∧ t.dev.fld rEnsCounts 24 8 = min (s.dev.fld rEnsCounts 24 8 + 1) 0xFF ∧
        s.keeps t [.cfg] (· = rEnsCounts)) ∧
    (s.dev.role ≠ 0 → f.dst.toNat = s.dev.deviceId → f.macOk = true → f.version = 1 → f.ackv = false →
      let id := f.src.val
      let p := s.dev.peer id
      (f.seq.toNat ≠ p.rxNext → seqLe f.seq.toNat p.rxNext = true → ∃ t, exec o s = .next t ∧
        t.dev.sent = .ackPacket id false true p.ackNo p.rxNext :: s.dev.sent ∧
        s.dev.peerBecomes t.dev id { p with since := 0 } ∧ s.keeps t [.cfg, .ens, .sent] (fun _ => False)) ∧
      (seqLe f.seq.toNat p.rxNext = false → p.gapSent = none → ∃ t, exec o s = .next t ∧
        t.dev.sent = .ackPacket id true false p.ackNo p.rxNext :: s.dev.sent ∧
        s.dev.peerBecomes t.dev id { p with since := 0, gapSent := some s.dev.beats } ∧
        s.keeps t [.cfg, .ens, .sent] (fun _ => False)))) ∧
  (∀ (f : FrameHdr) (s : State), s.inOrder f →
    let id := f.src.val
    let p := s.dev.peer id
    let took := p.took s.dev.beats
    (∃ t, exec (.packets f []) s = .next t ∧ s.dev.peerBecomes t.dev id took ∧ s.keeps t [.ens] (fun _ => False)) ∧
    (∀ x : Slot, pType x = 3 → ∃ t, exec (.packets f [x]) s = .next t ∧ s.dev.peerBecomes t.dev id took ∧
      t.dev.hq.entries = s.dev.hq.entries ++ [(.peer f.src, x)] ∧ s.keeps t [.ens, .hq] (fun _ => False)) ∧
    (∀ x : Slot, pType x = 7 → ∃ t, exec (.packets f [x]) s = .next t ∧ s.dev.peerBecomes t.dev id took ∧
      t.dev.fld rEnsCounts 24 8 = min (s.dev.fld rEnsCounts 24 8 + 1) 0xFF ∧ s.keeps t [.ens] (· = rEnsCounts)) ∧
    ∀ (tag : BitVec 16) (err : Byte) (o : RemoteOp) (c : Fin 4), s.dev.ens.remote = [o] → o.dev = id →
      o.tag = tag.toNat → o.m = .core c →
      ∃ t, exec (.nak f tag err) s = .next t ∧ t.dev.ens.remote = [] ∧
        t.dev.sent = .accessFault (.core c) o.write :: s.dev.sent ∧ t.dev.peer id = took ∧
        t.dev.fld rEnsCounts 16 8 = min (s.dev.fld rEnsCounts 16 8 + 1) 0xFF ∧
        s.keeps t [.ens, .sent] (· = rEnsCounts)) ∧
  (∀ (port : Port) (src : DevId) (rep : Bool) (a e ep : BitVec 32) (s : State),
    (s.dev.role = 0 → exec (.ack port src false rep a e ep) s = .next s) ∧
    (s.dev.role ≠ 0 → s.dev.flag rDirCtl 1 = false → (s.dev.peer src.val).queue = [] →
      ∃ t, exec (.ack port src false rep a e ep) s = .next t ∧ s.dev.peerBecomes t.dev src.val
        { s.dev.peer src.val with unacked := (s.dev.peer src.val).unacked.filter fun x => !seqLe x.seq a.toNat } ∧
        s.keeps t [.ens] (fun _ => False))) ∧
  ∀ (id : DevId) (s : State), let p := s.dev.peer id.val
    (p.since = 0 → exec (.ackTimer id) s = .next s) ∧
    (s.dev.passed p.firstIn 2000 = false → exec (.ackTimer id) s = .next s) ∧
    (p.since ≠ 0 → s.dev.passed p.firstIn 2000 = true → s.dev.engineHalted 7 = false → ∃ t, exec (.ackTimer id) s = .next t ∧
      t.dev.sent = .ackPacket id.val false false p.ackNo p.rxNext :: s.dev.sent ∧
      s.dev.peerBecomes t.dev id.val { p with since := 0 } ∧ s.keeps t [.ens, .sent] (fun _ => False)) ∧
    (p.unacked = [] → exec (.rtoExpiry id) s = .next s) ∧
    ∀ u : Sent, p.unacked = [u] →
      (s.dev.passed u.sentIn s.dev.rtoNs = false → exec (.rtoExpiry id) s = .next s) ∧
      (s.dev.passed u.sentIn s.dev.rtoNs = true → s.dev.engineHalted 7 = false → ∃ t, exec (.rtoExpiry id) s = .next t ∧
      t.dev.sent = .frame s.dev.activePort.val id.val u.seq true (if p.since = 0 then none else some p.ackNo) s.dev.epoch u.load ::
        s.dev.sent ∧ s.dev.peerBecomes t.dev id.val { p with since := 0, unacked := [{ u with sentIn := s.dev.beats }] } ∧
      t.dev.fld rEnsCounts 0 16 = min (s.dev.fld rEnsCounts 0 16 + 1) 0xFFFF ∧
      t.dev.fld (rGcnt 0x18) 0 16 = min (s.dev.fld (rGcnt 0x18) 0 16 + 1) 0xFFFF ∧
      s.keeps t [.ens, .sent] (· ∈ [rEnsCounts, rGcnt 0x18]))

/-- Remote reads and writes: serving a register, refusing a malformed request, and the answers to this device's own
(13_ensemble.md, 01_architecture.md). -/
def Obligations.RemoteRequests : Prop :=
  ∀ (f : FrameHdr) (tag : BitVec 16) (q : Fin 4) (s : State), s.inOrder f → (∀ ch, s.dev.dmaBusy ch = false) →
    let id := f.src.val
    let p := s.dev.peer id
    let took := p.took s.dev.beats
    (p.unacked.length < s.dev.fld rLinkCfg 0 9 →
      let answers (t : State) (c : Payload) : Prop :=
        t.dev.sent = .frame s.dev.activePort.val id p.txNext false (some f.seq.toNat) s.dev.epoch c :: s.dev.sent ∧
        s.dev.peerBecomes t.dev id { took with
          since := 0, txNext := (p.txNext + 1) % 2 ^ 32,
          unacked := p.unacked ++ [{ seq := p.txNext, sentIn := s.dev.beats, load := c }] }
      (sfind s.dev.top.latches (latchKey (.peer f.src) 0) = none →
        ∃ t, exec (.readReq f tag 0 4 q []) s = .next t ∧ answers t (.readResp tag.toNat (leBytes 4 (s.dev.rd 0).toNat)) ∧
          s.keeps t [.cfg, .ens, .sent] (fun _ => False)) ∧
      (∀ v : W32, ∃ t, exec (.writeReq f tag 0x204 (leBytes 4 v.toNat) q) s = .next t ∧ answers t (.writeResp tag.toNat) ∧
        t.dev.rd 0x204 = (s.dev.rd 0x204 &&& ~~~ 0xFFFF) ||| (v &&& 0xFFFF) ∧
        s.keeps t [.cfg, .ens, .sent] (· = 0x204)) ∧
      ∀ (off : BitVec 36) (data : List Byte), (off.toNat % 4 ≠ 0 ∨ data.length % 4 ≠ 0 ∨ data.length = 0 ∨ 8224 < data.length) →
        (∃ t, exec (.readReq f tag off data.length q []) s = .next t ∧ answers t (.nak tag.toNat 3) ∧
          s.keeps t [.cfg, .ens, .sent] (fun _ => False)) ∧
        ∃ t, exec (.writeReq f tag off data q) s = .next t ∧ answers t (.nak tag.toNat 3) ∧
          s.keeps t [.cfg, .ens, .sent] (fun _ => False)) ∧
    ∀ (o : RemoteOp) (c : Fin 4), s.dev.ens.remote = [o] → o.dev = id → o.tag = tag.toNat → o.m = .core c →
      (∀ data : List Byte, o.write = false → ∃ t, exec (.readResp f tag data) s = .next t ∧ t.dev.ens.remote = [] ∧
        t.dev.sent = .data (.core c) ((data.drop (o.off % 4)).take o.len) :: s.dev.sent ∧ t.dev.peer id = took ∧
        s.keeps t [.cfg, .ens, .sent] (fun _ => False)) ∧
      (o.write = true → ∃ t, exec (.writeResp f tag) s = .next t ∧ t.dev.ens.remote = [] ∧ t.dev.peer id = took ∧
        s.keeps t [.cfg, .ens] (fun _ => False))

/-- Heartbeats sent, missed and heard, the active path and the understudy, and whose directory counts
(13_ensemble.md). -/
def Obligations.HeartbeatsAndPaths : Prop :=
  (∀ (o : Instr) (port : Port) (id : DevId) (hb : HeartbeatPkt) (s : State), s.dev.role = 0 →
    o ∈ [Instr.heartbeatSend, .heartbeatMissed port id, .heartbeat hb, .pcsLockLoss port, .linkReturn port] →
    exec o s = .next s) ∧
  (∀ (s : State) (b : Nat), s.dev.ens.hbSent = some b → s.dev.passed b s.dev.hbPeriod = false →
    exec .heartbeatSend s = .next s) ∧
  (∀ s : State, s.dev.role ≠ 0 → (∀ b, s.dev.ens.hbSent = some b → s.dev.passed b s.dev.hbPeriod = true) →
    s.dev.engineHalted 7 = false → ∃ t h0 h1, exec .heartbeatSend s = .next t ∧
    t.dev.sent = .heartbeat 1 h1 :: .heartbeat 0 h0 :: s.dev.sent ∧
    (∀ h ∈ [h0, h1], h.src.val = s.dev.deviceId ∧ h.manager = (s.dev.role == 2) ∧ h.epoch = s.dev.rd rEpoch ∧
      h.count = BitVec.ofNat 16 s.dev.ens.hbCount ∧ h.active = s.dev.activePort ∧ h.orphan = s.dev.orphaned ∧
      h.failover = false) ∧
    t.dev.ens.hbCount = (s.dev.ens.hbCount + 1) % 65536 ∧ t.dev.ens.hbSent = some s.dev.beats ∧ s.keeps t [.ens, .sent] (fun _ => False)) ∧
  (∀ (port : Port) (id : DevId) (s : State), s.dev.role = 1 → id.val = s.dev.managerId → s.dev.orphaned = false →
    let h := s.dev.heardOf id.val
    let n := h.miss port + 1
    let lim := s.dev.fld rHbCfg 8 4
    (s.dev.missDue h port = false → exec (.heartbeatMissed port id) s = .next s) ∧
    (s.dev.missDue h port = true → n < lim → ∃ t, exec (.heartbeatMissed port id) s = .next t ∧ t.dev.heardOf id.val = h.setMiss port n ∧
      t.dev.fld (rPortStat port) 4 4 = min n 15 ∧ s.keeps t [.ens] (· = rPortStat port)) ∧
    (s.dev.missDue h port = true → lim ≤ n → lim ≤ h.miss (otherPort port) → s.dev.hq.cmds = [] → s.dev.ens.remote = [] → s.dev.flt.copy = none →
      ∃ t, exec (.heartbeatMissed port id) s = .next t ∧ t.dev.orphaned = true ∧ t.dev.flag rEnsStat 4 = false ∧
        (∃ e ∈ t.dev.flt.board, e.code = 0x0171) ∧ t.dev.flt.copy.isSome = true ∧
        (∀ i, (t.dev.peer i).unacked = [] ∧ (t.dev.peer i).queue = []) ∧ t.mem = s.mem ∧
        s.keeps t [.ens, .flt, .cfg] (· ∈ [rPortStat port, rEnsStat, rCopyStat, rGcnt 0x1B]))) ∧
  (∀ (hb : HeartbeatPkt) (s : State), s.dev.role ≠ 0 →
    let id := hb.src.val
    (id = s.dev.deviceId → exec (.heartbeat hb) s = .next s) ∧
    (s.dev.role = 1 → id ≠ s.dev.deviceId → hb.manager = true →
      (s.dev.orphaned = true → ∃ t, exec (.heartbeat hb) s = .next t ∧ t.dev.orphaned = false ∧
        t.dev.managerId = id ∧ t.dev.ens.peers = [] ∧ s.keeps t [.ens] (· ∈ [rEnsStat, rEnsCfg, rPortStat hb.port])) ∧
      (s.dev.orphaned = false → id = s.dev.managerId → hb.failover = false → ∃ t, exec (.heartbeat hb) s = .next t ∧
        (t.dev.heardOf id).epoch = hb.epoch.toNat ∧ (t.dev.heardOf id).miss hb.port = 0 ∧
        (t.dev.heardOf id).last hb.port = some s.dev.beats ∧
        t.dev.fld (rPortStat hb.port) 4 4 = 0 ∧ s.keeps t [.ens] (· = rPortStat hb.port))) ∧
    (s.dev.role = 2 → id ≠ s.dev.deviceId → hb.manager = true → s.dev.epoch < hb.epoch.toNat →
      ∃ t, exec (.heartbeat hb) s = .next t ∧ t.dev.role = 1 ∧ t.dev.managerId = id ∧ t.dev.epoch = 0 ∧
        t.dev.flag rDirCtl 1 = false ∧ t.dev.ens.changes = [] ∧
        s.keeps t [.ens] (· ∈ [rEnsCfg, rEnsStat, rEpoch, rDirCtl, rPortStat hb.port]))) ∧
  ∀ (port : Port) (s : State), s.dev.role ≠ 0 →
    let regs (a : Nat) : Prop := a = rPortStat 0 ∨ a = rPortStat 1 ∨ a = rEnsStat
    (port ≠ s.dev.activePort → ∃ t, exec (.pcsLockLoss port) s = .next t ∧ t.dev.ens.portState[port] = 1 ∧
      t.dev.flag (rPortStat port) 0 = false ∧ t.dev.fld (rPortStat port) 2 2 = 0 ∧ t.dev.fld rEnsStat 1 2 = 0 ∧
      s.keeps t [.ens] regs) ∧
    (port = s.dev.activePort → s.dev.role = 1 → s.dev.fabric = true →
      let line : Fin 256 := if port = 0 then 28 else 29
      s.dev.chainRuns line = false → (∀ e ∈ s.dev.cue.pending, e.line ≠ line) →
      ∃ t h e, exec (.pcsLockLoss port) s = .next t ∧ t.dev.flag (rPortStat port) 0 = false ∧
        t.dev.cue.pending = s.dev.cue.pending ++ [e] ∧ e.line = line ∧
        t.dev.fld (rEvcnt line) 0 16 = min (s.dev.fld (rEvcnt line) 0 16 + 1) 0xFFFF ∧
        t.dev.sent = .heartbeat (otherPort port).val h :: s.dev.sent ∧ h.failover = true ∧
        s.keeps t [.cue, .ens, .sent] (· ∈ [rPortStat port, rEvcnt line, rGcnt 0x19])) ∧
    (port ≠ s.dev.activePort → s.dev.ens.portState[port] = 1 → ∃ t, exec (.linkReturn port) s = .next t ∧
      t.dev.ens.portState[port] = 2 ∧ t.dev.ens.cleanFrom[port] = s.dev.beats ∧
      t.dev.flag (rPortStat port) 0 = true ∧ t.dev.fld rEnsStat 1 2 = 1 ∧
      s.keeps t [.ens] regs) ∧
    (port = s.dev.activePort → ∃ t, exec (.linkReturn port) s = .next t ∧ t.dev.ens.portState[port] = 0 ∧
      t.dev.flag (rPortStat port) 0 = true ∧ t.dev.fld (rPortStat port) 2 2 = 1 ∧ s.keeps t [.ens] regs) ∧
    let clean := s.dev.passed s.dev.ens.cleanFrom[port] (s.dev.fld rHbCfg 16 12 * 1_000_000)
    let h := s.dev.heardOf s.dev.managerId
    (s.dev.ens.portState[port] ≠ 2 ∨ clean = false → exec (.understudyClean port) s = .next s) ∧
    (s.dev.role = 1 → h.miss port ≠ 0 → exec (.understudyClean port) s = .next s) ∧
    (port ≠ s.dev.activePort → s.dev.ens.portState[port] = 2 → clean = true → s.dev.role = 1 → h.miss port = 0 →
      (∃ b, h.last port = some b ∧ s.dev.ens.cleanFrom[port] ≤ b) → ∃ t, exec (.understudyClean port) s = .next t ∧
      t.dev.ens.portState[port] = 0 ∧ t.dev.fld rEnsStat 1 2 = 2 ∧ t.dev.fld (rPortStat port) 2 2 = 2 ∧
      s.keeps t [.ens] regs)

/-- The directory's epochs, a claim to be manager, time, and MDIO (13_ensemble.md). -/
def Obligations.DirectoryAndTime : Prop :=
  (∀ (f : FrameHdr) (fr : DirFrame) (s : State), s.inOrder f → fr.pull = false → fr.reply = false →
    (s.dev.role = 1 → f.src.val = s.dev.managerId → fr.full = false → fr.epoch.toNat = (s.dev.epoch + 1) % 2 ^ 32 →
      (fr.last = false → 0 < fr.part → ∃ t, exec (.directory f fr) s = .next t ∧
        s.dev.peerBecomes t.dev f.src.val { (s.dev.peer f.src.val).took s.dev.beats with parts := (s.dev.peer f.src.val).parts ++ fr.records } ∧
        s.keeps t [.ens] (fun _ => False)) ∧
      (fr.last = true → fr.part = 0 → fr.records = [] → ∃ t, exec (.directory f fr) s = .next t ∧
        t.dev.epoch = fr.epoch.toNat)) ∧
    (s.dev.role = 1 → f.src.val ≠ s.dev.managerId → ∃ t, exec (.directory f fr) s = .next t ∧
      t.dev.fld rEnsCounts 24 8 = min (s.dev.fld rEnsCounts 24 8 + 1) 0xFF ∧ s.keeps t [.ens] (· = rEnsCounts))) ∧
  (∀ (m : Master) (s : State),
    (s.dev.role ≠ 2 ∨ s.dev.flag rDirCtl 1 = true → exec (.dirCommit m) s = .next s) ∧
    (s.dev.role = 2 → s.dev.flag rDirCtl 1 = false → ∃ t, exec (.dirCommit m) s = .next t ∧
      t.dev.epoch = (s.dev.epoch + 1) % 2 ^ 32 ∧ t.dev.ens.changes = [] ∧ t.dev.role = 2)) ∧
  (∀ (id : DevId) (s : State),
    let due := s.dev.passed s.dev.ens.pullAt 100_000_000
    (id.val ∉ s.dev.ens.pulling ∨ due = false → exec (.dirPullTimeout id) s = .next s) ∧
    (id.val ∈ s.dev.ens.pulling → due = true → s.dev.ens.pulling.erase id.val ≠ [] → ∃ t, exec (.dirPullTimeout id) s = .next t ∧
      t.dev.ens = { s.dev.ens with pulling := s.dev.ens.pulling.erase id.val } ∧ s.keeps t [.ens] (fun _ => False))) ∧
  (∀ (m : Master) (s : State),
    (s.dev.orphaned = false → s.dev.role ≠ 0 → ∃ t, exec (.take m) s = .next t ∧ t.dev.flag rMgrCtl 1 = true ∧
      s.keeps t [] (· = rMgrCtl)) ∧
    (s.dev.orphaned = true ∨ s.dev.role = 0 → ∃ t, exec (.take m) s = .next t ∧ t.dev.role = 2 ∧
      t.dev.managerId = s.dev.deviceId ∧ t.dev.deviceId = s.dev.deviceId ∧ t.dev.orphaned = false)) ∧
  (∀ (port : Port) (s : State),
    let now : Int := (s.dev.sec : Int) * 1000000000 + s.dev.ns
    (∀ msg, s.dev.role = 0 → exec (.ptpMessage port msg) s = .next s) ∧
    (s.dev.role = 1 →
      (∀ a b, exec (.ptpMessage port (.sync a b)) s = .next (s.onDev fun d => { d with ens.ptpT2 := b })) ∧
      (∀ a, exec (.ptpMessage port (.followUp a)) s =
        .next (s.onDev fun d => { d with ens.ptpT1 := a, sent := .ptp port.val 3 now :: d.sent })) ∧
      ∀ a b : Int, port = s.dev.activePort → ∃ t ofs, exec (.ptpMessage port (.delayResp a b)) s = .next t ∧
        2 * ofs - 1 ≤ (s.dev.ens.ptpT2 - s.dev.ens.ptpT1) - (b - a) ∧
        (s.dev.ens.ptpT2 - s.dev.ens.ptpT1) - (b - a) ≤ 2 * ofs + 1 ∧ t.dev.rd rPtpOfs = BitVec.ofInt 32 ofs ∧
        (0 ≤ now - ofs → now - ofs < 2 ^ 48 * 1000000000 → (t.dev.sec : Int) * 1000000000 + t.dev.ns = now - ofs) ∧
        s.keeps t [.clock] (· = rPtpOfs)) ∧
    (s.dev.role = 2 →
      (∀ id, exec (.ptpMessage port (.delayReq id)) s = .next (s.onDev fun d => { d with sent := .ptp port.val 4 now :: d.sent })) ∧
      (s.dev.ens.syncSent = none → s.dev.engineHalted 7 = false → exec .ptpSyncSend s = .next (s.onDev fun d =>
        { d with ens.syncSent := some d.beats, sent := .ptp 1 2 now :: .ptp 1 1 now :: .ptp 0 2 now :: .ptp 0 1 now :: d.sent })) ∧
      ∀ (m : Master) (v : W32), 0 ≤ now + v.toInt → now + v.toInt < 2 ^ 48 * 1000000000 →
        ∃ t, exec (.ptpOfsWrite m v) s = .next t ∧ (t.dev.sec : Int) * 1000000000 + t.dev.ns = now + v.toInt ∧
          t.dev.ns < 1000000000 ∧ s.keeps t [.clock] (fun _ => False)) ∧
    (s.dev.role ≠ 2 → exec .ptpSyncSend s = .next s ∧ ∀ m v, exec (.ptpOfsWrite m v) s = .next s)) ∧
  (∀ (m : Master) (v : W32) (o : Instr) (op : Nat) (s : State),
    (o, op) ∈ [(Instr.mdioAddress m v, 0), (.mdioWrite m v, 1), (.mdioRead m v, 3)] →
    (s.dev.flag rMdioStat 16 = true → ∃ t, exec o s = .next t ∧ s.keeps t [] (· = rMdioCmd)) ∧
    (s.dev.flag rMdioStat 16 = false → ∃ t w, exec o s = .next t ∧ t.dev.flag rMdioStat 16 = true ∧
      t.dev.ens = { s.dev.ens with mdio := some w } ∧ fget w 26 2 = op ∧
      t.dev.sent = .mdio op (fget v 21 5) (fget v 16 5) (fget v 0 16) :: s.dev.sent ∧
      s.keeps t [.ens, .sent] (· ∈ [rMdioCmd, rMdioStat]))) ∧
  ∀ (data : BitVec 16) (s : State),
    (s.dev.ens.mdio = none → exec (.mdioDone data) s = .next s) ∧
    ∀ w, s.dev.ens.mdio = some w → ∃ t, exec (.mdioDone data) s = .next t ∧ t.dev.flag rMdioStat 16 = false ∧
      t.dev.ens = { s.dev.ens with mdio := none } ∧
      (t.dev.fld rMdioStat 0 16 = if fget w 26 2 = 3 then data.toNat else s.dev.fld rMdioStat 0 16) ∧
      s.keeps t [.ens] (· = rMdioStat)

/-! ### Power, reset and start-up (15_power_reset_boot.md, 14_fault_handling.md) -/

/-- What starts a reset, what it keeps, the blank stage, the life-cycle request and the call-board copy
(15_power_reset_boot.md, 14_fault_handling.md, 17_balls_electrical.md). -/
def Obligations.ResetsAndBoot : Prop :=
  (∀ s : State, ∃ t, exec .powerOn s = .next t ∧ t.dev.pwr.resetDue = some 0 ∧ t.pending = s.pending ∧
    t.mem = { Mem.reset with flash := s.mem.flash } ∧ t.dev.sent = .supplies true true :: s.dev.sent ∧
    ∀ a, a ≠ rGpioIn → (∀ h : Head, a ≠ rHeadLines h) → t.dev.rd a = State.reset.dev.rd a) ∧
  (∀ (env : BootEnv) (s : State),
    (s.dev.pwr.resetDue = none ∨ s.dev.pwr.goodMain = false ∨ s.dev.pwr.goodDdr = false →
      exec (.deviceReset env) s = .next s) ∧
    (∃ t, exec (.deviceReset env) s = .next t ∧ t.mem.flash = s.mem.flash ∧ t.pending = s.pending) ∧
    ∀ c, s.dev.pwr.resetDue = some c → 1 ≤ c → c ≤ 7 → s.dev.pwr.goodMain = true → s.dev.pwr.goodDdr = true →
      env.flashAnswers = false → ∃ t, exec (.deviceReset env) s = .next t ∧
        t.mem = { Mem.reset with flash := s.mem.flash } ∧ t.dev.flag rPwrStat 8 = true ∧ t.dev.fabric = false ∧
        t.dev.fld rPwrStat 5 3 = c ∧ t.dev.fld rPwrResets 0 16 = min (s.dev.fld rPwrResets 0 16 + 1) 0xFFFF ∧
        t.dev.flag rPwrBoot 3 = true ∧ t.dev.flag rPwrBoot 2 = true ∧ t.dev.fld rPwrBoot 4 4 = 8 ∧
        (∃ e ∈ t.dev.flt.board, e.code = 0x0151) ∧ (∀ h : Head, t.dev.flag (rHeadLines h) 0 = true) ∧
        t.dev.pwr.resetDue = none ∧ t.dev.hq = State.reset.dev.hq) ∧
  (∀ (s : State) (o : Instr) (cause : Nat), (o, cause) ∈ [(Instr.perst, 1), (.pfail, 2)] →
    let p (d : Dev) : Bool := if cause = 1 then d.pwr.perst else d.pwr.pfail
    (s.dev.resetting = true → ∃ t, exec o s = .next t ∧ p t.dev = true ∧ t.dev.pwr.resetDue = s.dev.pwr.resetDue ∧
      s.keeps t [.pwr] (fun _ => False)) ∧
    (s.dev.resetting = false → p s.dev = false → s.dev.powerState ≤ 1 → ∃ t, exec o s = .next t ∧ p t.dev = true ∧
      t.dev.pwr.stopping = some cause ∧ t.dev.pwr.forced = true ∧ t.dev.hq.curtain = none ∧
      (∀ h : Head, t.dev.heads[h].lanes = false) ∧ t.mem = s.mem ∧
      (s.dev.openRanges = [] → t.dev.pwr.resetDue = (if cause = 1 then some 1 else none) ∧ t.dev.cfg = s.dev.cfg) ∧
      (s.dev.openRanges ≠ [] → s.dev.cfg.busy = none → t.dev.pwr.resetDue = none ∧
        t.dev.cfg.busy = some (.discard (s.dev.discardRecord cause)) ∧ t.dev.cfg.waiting = s.dev.cfg.waiting))) ∧
  (∀ s : State,
    (s.dev.powerState = 3 → exec .perstRelease s = .next s) ∧
    (s.dev.powerState ≠ 3 → exec .perstRelease s = .next (s.onDev fun d => d.onPwr fun p => { p with perst := false })) ∧
    ∃ t, exec .pfailRelease s = .next t ∧ t.dev.pwr.pfail = false ∧ s.keeps t [.pwr] (fun _ => False) ∧
      (s.dev.pwr.stopping = some 2 → s.dev.pwr.pfail = true → s.dev.recording = false → s.dev.pwr.resetDue = none →
        s.dev.pwr.goodMain = true → s.dev.pwr.goodDdr = true → t.dev.pwr.resetDue = some 2) ∧
      (s.dev.pwr.stopping ≠ some 2 → t.dev.pwr.resetDue = s.dev.pwr.resetDue)) ∧
  (∀ (m : Master) (s : State),
    (s.dev.resetting = true → exec (.warm m) s = .next s) ∧
    (s.dev.resetting = false → s.dev.flag rPwrStat 8 = true →
      exec (.warm m) s = .next (s.onDev fun d => d.onPwr fun p => { p with resetDue := some 3 })) ∧
    (∀ k, s.dev.resetting = false → s.dev.flag rPwrStat 8 = false → s.dev.hq.curtain = some k →
      exec (.warm m) s = .next (s.onDev fun d => { d with hq.curtain := some { k with warm := true } })) ∧
    (s.dev.resetting = false → s.dev.flag rPwrStat 8 = false → s.dev.hq.curtain = none → s.dev.hq.rows = [] →
      s.dev.hq.cmds = [] → ∃ t k, exec (.warm m) s = .next t ∧ t.dev.hq.curtain = some k ∧ k.warm = true ∧ k.cmd = none ∧
        k.start = s.dev.beats ∧ t.dev.pwr = s.dev.pwr ∧ t.mem = s.mem ∧
        t.dev.fld (rEvcnt 34) 0 16 = min (s.dev.fld (rEvcnt 34) 0 16 + 1) 0xFFFF)) ∧
  (∀ (s : State) (ddr : Bool),
    (s.dev.powerState = 3 → exec (.pgoodLoss ddr) s = .next s ∧ exec (.pgoodReturn ddr) s = .next s) ∧
    (s.dev.powerState ≠ 3 → s.dev.recording = false → s.dev.pwr.stopping = none → ∃ t, exec (.pgoodLoss ddr) s = .next t ∧
      (if ddr then t.dev.pwr.goodDdr else t.dev.pwr.goodMain) = false ∧ t.dev.pwr.forced = true ∧
      (∀ h : Head, t.dev.heads[h].lanes = false) ∧
      t.dev.flag rPwrStat 10 = (s.dev.flag rPwrStat 10 || !s.dev.openRanges.isEmpty) ∧ t.mem = s.mem) ∧
    (s.dev.powerState ≠ 3 → s.dev.pwr.goodDdr = !ddr → s.dev.pwr.goodMain = ddr →
      exec (.pgoodReturn ddr) s = .next (s.onDev fun d => d.onPwr fun p =>
        { p with goodMain := true, goodDdr := true, resetDue := some (p.resetDue.getD 2) })) ∧
    (2 ≤ s.dev.powerState ∨ s.dev.pwr.resetDue ≠ none → exec (.clockMonitorTrip ddr) s = .next s) ∧
    (s.dev.powerState ≤ 1 → s.dev.pwr.resetDue = none → ∃ t n, exec (.clockMonitorTrip ddr) s = .next t ∧
      t.dev.pwr.resetDue = some 4 ∧ t.dev.pwr.monitor = some (if ddr then 2 else 1, n) ∧ t.dev.pwr.forced = true ∧
      (∀ h : Head, t.dev.heads[h].lanes = false) ∧ t.mem = s.mem)) ∧
  (∀ (m : Master) (v : W32) (s : State), v.getLsbD 5 = false →
    (∀ why, (s.dev.flag rLifecycle 4 = true ∧ why = 5) ∨
        (s.dev.flag rLifecycle 4 = false ∧ fget v 16 2 + fget v 18 2 ≠ 3 ∧ why = 4) ∨
        (s.dev.flag rLifecycle 4 = false ∧ fget v 16 2 + fget v 18 2 = 3 ∧
          lifeAllowed (s.dev.fld rLifecycle 0 2) (fget v 16 2) = false ∧ why = 1) →
      ∃ t, exec (.lifecycleRequest m v) s = .next t ∧ t.dev.flag rLifecycle 5 = true ∧ t.dev.fld rLifecycle 8 4 = why ∧
        s.keeps t [] (· = rLifecycle)) ∧
    (s.dev.lifeWhy (fget v 16 2) (fget v 18 2) = 0 → s.dev.cfg.busy ≠ none →
      ∃ t, exec (.lifecycleRequest m v) s = .next t ∧ t.dev.flag rLifecycle 4 = true ∧
        t.dev.pwr.life = some (fget v 16 2) ∧ t.dev.cfg.waiting = s.dev.cfg.waiting ++
          List.replicate 2 (.bootRecord (fget v 16 2) (s.dev.fld rPwrBoot 1 1)) ∧ s.keeps t [.cfg, .pwr] (· = rLifecycle))) ∧
  (∀ (ok : Bool) (s : State),
    (s.dev.cfg.busy = none → s.dev.cfg.waiting = [] → exec (.callBoardCopy ok) s = .next s) ∧
    (∀ c, s.dev.cfg.busy = some .boardCopy → s.dev.cfg.waiting = [] → s.dev.flt.copy = some c →
      s.dev.flt.copyPending = none → ∃ t, exec (.callBoardCopy ok) s = .next t ∧ t.dev.cfg.busy = none ∧
        t.dev.flt.copy = none ∧ t.dev.flag rCopyStat 0 = false ∧
        (ok = true → t.dev.fld rCopyStat 16 16 = min (s.dev.fld rCopyStat 16 16 + 1) 0xFFFF ∧
          t.mem.flash = boardRegion.write s.mem.flash (s.dev.boardRecord c) ∧ t.dev.flt.board = s.dev.flt.board) ∧
        (ok = false → t.dev.flag rCopyStat 2 = true ∧ (∃ e ∈ t.dev.flt.board, e.code = 0x0172) ∧ t.mem = s.mem) ∧
        s.keeps t [.cfg, .flt, .flash] (· = rCopyStat))) ∧
  ∀ s : State, exec .tapReset s = .next (s.onDev fun d => { d with top.jtagErr := false })

/-- Waking, the way into P3, the alarm, the crystal, temperature, configuration requests, time-outs, disc and lanes
(15_power_reset_boot.md, 16_config_and_registers.md). -/
def Obligations.PowerStatesAndHouse : Prop :=
  (∀ (w : WakeSource) (s : State),
    (s.dev.powerState ≤ 1 → exec (.wake w) s = .next s) ∧
    (s.dev.powerState = 2 → (w = .perst ∨ s.dev.wakeOn w = false) → exec (.wake w) s = .next s) ∧
    (s.dev.powerState = 2 → s.dev.wakeOn w = true → w ≠ .perst → ∃ t, exec (.wake w) s = .next t ∧
      t.dev.powerState = 1 ∧ t.dev.fld rPwrStat 2 3 = wakeCode w ∧ t.dev.cue.act = (s.dev.cue.act + 1) % 2 ^ 64 ∧
      t.dev.cue.beat = 0 ∧ t.dev.cue.slot = 0 ∧ t.dev.cue.actDone = false ∧
      (w = .pfail → t.dev.pwr.stopping = some 2 ∧ t.dev.pwr.pfail = true) ∧
      (w ≠ .pfail → t.dev.flag (rPortStat 0) 1 = false ∧ t.dev.flag (rPortStat 1) 1 = false ∧
        s.keeps t [.cue] (· ∈ [rPwrStat, rClkStat, rPortStat 0, rPortStat 1]))) ∧
    (s.dev.powerState = 3 → (w = .gpio ∨ w = .alarm ∨ w = .perst) → s.dev.wakeOn w = true → s.dev.pwr.resetDue = none →
      ∃ t, exec (.wake w) s = .next t ∧ t.dev.pwr.resetDue = some 8 ∧ t.dev.pwr.goodMain = true ∧
        t.dev.pwr.goodDdr = true ∧ t.dev.fld rPwrStat 2 3 = wakeCode w ∧
        t.dev.sent = (if w = .perst then [] else [Output.wakePin]) ++ .supplies true true :: s.dev.sent ∧
        s.keeps t [.pwr, .sent] (· = rPwrStat))) ∧
  (∀ s : State,
    (∃ t, exec .pmeTurnOff s = .next t ∧ t.dev.sent = .pmeAck :: s.dev.sent ∧
      (s.dev.curtainHolds = true → t.dev.pwr = { s.dev.pwr with toP3 := true }) ∧
      (s.dev.curtainHolds = false → t.dev.pwr = { s.dev.pwr with l23 := true }) ∧
      s.keeps t [.pwr, .sent] (fun _ => False)) ∧
    (s.dev.pwr.toP3 = true → s.dev.curtainHolds = true → s.dev.resetting = false →
      s.dev.houseAct.powerState = 3 ∧ s.dev.houseAct.pwr.enMain = false ∧ s.dev.houseAct.pwr.enDdr = false) ∧
    ((s.dev.rd rAlarm).toNat ≠ 1 → ∃ t, exec .alarmTick s = .next t ∧
      (t.dev.rd rAlarm).toNat = (s.dev.rd rAlarm).toNat - 1 ∧ s.keeps t [] (· = rAlarm)) ∧
    (s.dev.rd rAlarm = 1 → (s.dev.powerState ≤ 1 → ∃ t, exec .alarmTick s = .next t ∧ t.dev.rd rAlarm = 0 ∧
        s.keeps t [] (· = rAlarm)) ∧
      (s.dev.powerState = 3 → s.dev.flag rDozeCfg 19 = true → s.dev.pwr.resetDue = none →
        ∃ t, exec .alarmTick s = .next t ∧ t.dev.rd rAlarm = 0 ∧ t.dev.pwr.resetDue = some 8 ∧
          t.dev.sent = .wakePin :: .supplies true true :: s.dev.sent)) ∧
    ∀ (o : Instr) (ok : Bool), (o, ok) ∈ [(Instr.crystalStable, true), (.crystalFail, false)] →
      ∃ t, exec o s = .next t ∧ t.dev.flag rClkStat 4 = ok ∧ t.dev.pwr = { s.dev.pwr with crystal := ok } ∧
        s.keeps t [.pwr] (· = rClkStat)) ∧
  (∀ (tj : Int) (temps : List Int) (s : State),
    let shows (t : State) : Prop := t.dev.fld rPwrTemp 0 8 = uns 8 tj ∧ t.dev.fld rPwrTemp 8 8 =
      (if s.dev.sfld rPwrTemp 8 8 < tj then uns 8 tj else s.dev.fld rPwrTemp 8 8)
    (s.dev.hotNow tj temps 0 = 0 → ∃ t, exec (.thermalCheck tj temps) s = .next t ∧ shows t ∧ t.dev.pwr.hot = 0 ∧
      s.keeps t [.pwr] (· = rPwrTemp)) ∧
    ((s.dev.fld rThermCfg 0 8 : Int) ≤ tj → s.dev.pwr.hot.getLsbD 0 = false → ∃ t, exec (.thermalCheck tj temps) s = .next t ∧
      shows t ∧ t.dev.pwr.hot.getLsbD 0 = true ∧
      t.dev.fld (rEvcnt 36) 0 16 = min (s.dev.fld (rEvcnt 36) 0 16 + 1) 0xFFFF ∧
      s.keeps t [.cue, .pwr] (· ∈ [rPwrTemp, rEvcnt 36]))) ∧
  (∀ s : State,
    ((s.dev.pwr.coolSince = none ∨ s.dev.flag rPwrStat 9 = false ∨ ∃ b, s.dev.pwr.coolSince = some b ∧ s.dev.beats < b + 800000) →
      exec .thermalClear s = .next s) ∧
    ∀ b f, s.dev.pwr.coolSince = some b → b + 800000 ≤ s.dev.beats → s.dev.flag rPwrStat 9 = true →
      s.dev.pwr.fanBefore = some f → ∃ t, exec .thermalClear s = .next t ∧ t.dev.flag rPwrStat 9 = false ∧
        t.dev.fld (rAuxCtl 1) 16 16 = f % 2 ^ 16 ∧ t.dev.pwr = { s.dev.pwr with fanBefore := none } ∧
        s.keeps t [.pwr] (· ∈ [rPwrStat, rAuxCtl 1])) ∧
  (∀ (q : ConfigReq) (s : State),
    (s.dev.pcie.ready = false →
      exec (.pcieConfigRequest q) s = .next (s.onDev fun d => { d with sent := .configRetry :: d.sent })) ∧
    (s.dev.pcie.ready = true → ∃ t, exec (.pcieConfigRequest q) s = .next t ∧
      t.dev.sent = .configDone s.dev.presentedId :: s.dev.sent ∧
      t.dev.pcie = (match q with
        | .readId => s.dev.pcie
        | .busMaster on => { s.dev.pcie with busMaster := on }
        | .aspm l12 => { s.dev.pcie with l12 := l12 }) ∧ s.keeps t [.pcie, .sent] (fun _ => False))) ∧
  (∀ (r : RingId) (s : State),
    (s.dev.ringReady r = false → exec (.completionTimeout (.ring r)) s = .next s) ∧
    (s.dev.ringReady r = true → s.dev.fabric = true → s.dev.stopped = false → s.dev.pcie.busMaster = true →
      ∃ t, exec (.completionTimeout (.ring r)) s = .next t ∧ t.dev.flag (rRingStat r) 29 = true ∧
        t.dev.hq.rings[r].stopped = true ∧ (∃ e ∈ t.dev.flt.board, e.code = 0x0133) ∧
        s.keeps t [.hq, .flt] (· = rRingStat r))) ∧
  (∀ (ch : Chan) (s : State),
    (s.dev.dmaBusy ch = false → exec (.completionTimeout (.channel ch)) s = .next s) ∧
    (s.dev.dmaBusy ch = true → s.dev.dma[ch].linking = false → 0 < s.dev.dma[ch].asked → inHost s.dev.dma[ch].src = true →
      s.dev.dma[ch].inFlight = 0 → s.dev.dma[ch].failing = none →
      ∃ t, exec (.completionTimeout (.channel ch)) s = .next t ∧ t.dev.dmaBusy ch = false ∧
        t.dev.flag (rDmaStat ch) 2 = true ∧ t.dev.fld (rDmaStat ch) 3 4 = 3 ∧
        (∃ e ∈ t.dev.flt.board, e.code = 0x0130) ∧ t.mem = s.mem)) ∧
  (∀ (level : Bool) (s : State),
    (s.dev.cfg.policy = none → exec (.discPresentChange level) s = .next s) ∧
    ∀ n, s.dev.policyField 4 1 = some n →
      (16 ≤ n → exec (.discPresentChange level) s = .next s) ∧
      (n < 16 → ∃ t, exec (.discPresentChange level) s = .next t ∧ t.dev.flag rGpioIn n = level ∧
        t.dev.hq.disc = (level != (s.dev.policyField 5 1 == some 1)) ∧
        (t.dev.hq.disc = s.dev.hq.disc → s.keeps t [] (· = rGpioIn)))) ∧
  ∀ (h : Head) (locked : BitVec 4) (s : State), (s.dev.flag rCalCtl 2 = false ∨ s.dev.rehearsal = false) →
    ∃ t, exec (.laneLock h locked) s = .next t ∧ t.dev.fld (rJesd h) 0 4 = locked.toNat ∧
      t.dev.flag (rJesd h) 9 = (locked == 15) ∧ s.keeps t [] (· = rJesd h)
end

