-- ==== Sys2Proof/Laws/Bits.lean ====
section
/-! SUPPORT. Laws of the helpers: a store read after a write, the canonical form of a store, and the fields of a
register. -/

namespace Sys2Proof.Machine

/-! ### Stores -/

/-- A key reads as what was put at it, every other key as before. -/
theorem sfind_sput {α : Type} (m : List (Nat × α)) (a b : Nat) (x : α) :
    sfind (sput m a x) b = if a = b then some x else sfind m b := by
  induction m with
  | nil => simp [sput, sfind]
  | cons e m ih =>
    obtain ⟨k, v⟩ := e
    by_cases hk : a < k
    · simp only [sput, hk, if_true, sfind]
    · by_cases h : k = a
      · subst h; by_cases hb : k = b <;> simp [sput, sfind, hb]
      · by_cases hb : k = b
        · subst hb; simp [sput, sfind, h, hk, Ne.symm h]
        · simp [sput, sfind, h, hk, hb, ih]

/-- A key taken out is unlisted, every other key as before. -/
theorem sfind_sdel {α : Type} (m : List (Nat × α)) (a b : Nat) :
    sfind (sdel m a) b = if a = b then none else sfind m b := by
  induction m with
  | nil => simp [sdel, sfind]
  | cons e m ih =>
    obtain ⟨k, v⟩ := e
    unfold sdel at ih ⊢
    by_cases h : k = a
    · subst h; by_cases hb : k = b <;> simp_all [sfind]
    · by_cases hb : k = b
      · subst hb; simp_all [sfind, Ne.symm h]
      · simp_all [sfind]

/-- Read after write: the key gives the value written, and every other key reads as before. -/
theorem sget_sset {α : Type} [DecidableEq α] (m : List (Nat × α)) (d e : α) (a b : Nat) (x : α)
    (h : a = b → d = e) : sget (sset m d a x) e b = if a = b then x else sget m e b := by
  unfold sget sset
  by_cases hx : x = d
  · rw [if_pos hx, sfind_sdel]
    by_cases hb : a = b
    · simp [hb, hx, h hb]
    · simp [hb]
  · rw [if_neg hx, sfind_sput]
    by_cases hb : a = b <;> simp [hb]

/-- Keys that rise from a bound rise from every lower bound. -/
theorem rising_mono {α : Type} (m : List (Nat × α)) (lo lo' : Nat) (h : lo' ≤ lo) (hr : rising lo m = true) :
    rising lo' m = true := by
  cases m with
  | nil => rfl
  | cons e m => simp [rising] at hr ⊢; exact ⟨by omega, hr.2⟩

/-- Putting a value keeps the keys rising. -/
theorem rising_sput {α : Type} (m : List (Nat × α)) (lo a : Nat) (x : α) (hl : lo ≤ a) (h : rising lo m = true) :
    rising lo (sput m a x) = true := by
  induction m generalizing lo with
  | nil => simp [sput, rising, hl]
  | cons e m ih =>
    obtain ⟨k, v⟩ := e
    simp [rising] at h
    by_cases hk : a < k
    · simp [sput, rising, hk, hl, h.2]
    · by_cases hq : k = a
      · subst hq; simp [sput, rising, hl, h.2]
      · simp only [sput, hk, hq, if_false, rising, Bool.and_eq_true, decide_eq_true_eq]
        exact ⟨h.1, ih (k + 1) (by omega) h.2⟩

/-- Taking a key out keeps the keys rising. -/
theorem rising_sdel {α : Type} (m : List (Nat × α)) (lo a : Nat) (h : rising lo m = true) :
    rising lo (sdel m a) = true := by
  induction m generalizing lo with
  | nil => rfl
  | cons e m ih =>
    obtain ⟨k, v⟩ := e
    simp [rising] at h
    by_cases hq : k = a
    · have : sdel ((k, v) :: m) a = sdel m a := by simp [sdel, hq]
      rw [this]; exact rising_mono _ (k + 1) lo (by omega) (ih _ h.2)
    · have : sdel ((k, v) :: m) a = (k, v) :: sdel m a := by simp [sdel, hq]
      rw [this]; simp only [rising, Bool.and_eq_true, decide_eq_true_eq]; exact ⟨h.1, ih _ h.2⟩

/-- Entries of a store after a put: the new one, or old ones. -/
theorem mem_sput {α : Type} (m : List (Nat × α)) (a : Nat) (x : α) (e : Nat × α) (h : e ∈ sput m a x) :
    e = (a, x) ∨ e ∈ m := by
  induction m with
  | nil => simp [sput] at h; exact .inl h
  | cons f m ih =>
    obtain ⟨k, v⟩ := f
    by_cases hk : a < k
    · simp [sput, hk] at h ⊢; tauto
    · by_cases hq : k = a
      · simp [sput, hq] at h ⊢; tauto
      · simp [sput, hk, hq] at h ⊢; tauto

/-- Writing keeps the canonical form: no entry equal to what its key reads as when unlisted. -/
theorem listed_sset {α : Type} [DecidableEq α] (m : List (Nat × α)) (d : Nat → α) (a : Nat) (x : α)
    (h : listed d m = true) : listed d (sset m (d a) a x) = true := by
  unfold listed at h ⊢
  rw [List.all_eq_true] at h ⊢
  intro e he
  unfold sset at he
  split at he
  · exact h e (List.mem_of_mem_filter he)
  · rename_i hx
    rcases mem_sput _ _ _ _ he with rfl | he
    · simpa using hx
    · exact h e he

/-- Writing keeps the keys rising. -/
theorem rising_sset {α : Type} [DecidableEq α] (m : List (Nat × α)) (d : α) (a : Nat) (x : α)
    (h : rising 0 m = true) : rising 0 (sset m d a x) = true := by
  unfold sset; split
  · exact rising_sdel _ _ _ h
  · exact rising_sput _ _ _ _ (Nat.zero_le _) h

/-! ### Fields -/

/-- Bit i of a register after a field is set. -/
theorem fset_getLsbD (v : W32) (lo w x i : Nat) :
    (fset v lo w x).getLsbD i =
      (decide (i < 32) && if lo ≤ i ∧ i < lo + w then x.testBit (i - lo) else v.getLsbD i) := by
  by_cases hi : i < 32
  · unfold fset fmask
    simp only [BitVec.getLsbD_or, BitVec.getLsbD_and, BitVec.getLsbD_not, BitVec.getLsbD_shiftLeft,
      BitVec.getLsbD_ofNat, hi, decide_true, Bool.true_and, Nat.testBit_two_pow_sub_one, Nat.testBit_mod_two_pow]
    by_cases hlo : lo ≤ i
    · have h2 : i - lo < 32 := by omega
      have h3 : ¬ i < lo := by omega
      by_cases hw : i < lo + w
      · have h1 : i - lo < w := by omega
        simp [hlo, hw, h1, h2, h3]
      · have h1 : ¬ i - lo < w := by omega
        simp [hw, h1]
    · have h3 : i < lo := by omega
      simp [hlo, h3]
  · have : (fset v lo w x).getLsbD i = false := BitVec.getLsbD_of_ge _ _ (by omega)
    simp [this, hi]

/-- Bit i of a field. -/
theorem fget_testBit (v : W32) (lo w i : Nat) :
    (fget v lo w).testBit i = (decide (i < w) && v.getLsbD (lo + i)) := by
  simp [fget, Nat.testBit_mod_two_pow, BitVec.testBit_toNat]

/-- A field set reads back as set. -/
theorem fget_fset (v : W32) (lo w x : Nat) (h : lo + w ≤ 32) : fget (fset v lo w x) lo w = x % 2 ^ w := by
  apply Nat.eq_of_testBit_eq
  intro i
  rw [fget_testBit, fset_getLsbD, Nat.testBit_mod_two_pow]
  by_cases hi : i < w
  · have : lo + i < 32 := by omega
    simp [hi, this]
  · simp [hi]

/-- Setting a field leaves a field that it does not overlap. -/
theorem fget_fset_of_disjoint (v : W32) (lo w x lo' w' : Nat) (hw : lo' + w' ≤ 32)
    (h : lo' + w' ≤ lo ∨ lo + w ≤ lo') : fget (fset v lo w x) lo' w' = fget v lo' w' := by
  apply Nat.eq_of_testBit_eq
  intro i
  rw [fget_testBit, fget_testBit, fset_getLsbD]
  by_cases hi : i < w'
  · have h1 : lo' + i < 32 := by omega
    have h2 : ¬ (lo ≤ lo' + i ∧ lo' + i < lo + w) := by omega
    simp [hi, h1, h2]
  · simp [hi]

/-- A field of w bits is below 2^w. -/
theorem fget_lt (v : W32) (lo w : Nat) : fget v lo w < 2 ^ w := Nat.mod_lt _ (Nat.two_pow_pos w)

end Sys2Proof.Machine
end

