-- ==== Sys2Proof/Laws/Mem.lean ====
section
/-! SUPPORT. Every operation on the stored cells of the memories keeps their canonical form. -/

namespace Sys2Proof.Machine

/-- Keys rise and no listed cell equals the default. -/
def Cells.wf (d : Byte) (m : List Host.Cell) : Bool := rising 0 m && listed (fun _ => d) m

theorem Mem.wf_iff (m : Mem) :
    m.wf = true ↔ Cells.wf 0xFF m.flash = true ∧ Cells.wf 0 m.dram = true ∧ Cells.wf 0 m.sram = true := by
  simp [Mem.wf, Cells.wf, and_assoc]

/-- Writing one cell keeps the form. -/
theorem Cells.wf_sset (d : Byte) (m : List Host.Cell) (a : Nat) (x : Byte) (h : Cells.wf d m = true) :
    Cells.wf d (sset m d a x) = true := by
  simp only [Cells.wf, Bool.and_eq_true] at h ⊢
  exact ⟨rising_sset _ _ _ _ h.1, listed_sset m (fun _ => d) a x h.2⟩

/-- Keeping only some of the cells keeps the keys rising. -/
theorem rising_filter {α : Type} (m : List (Nat × α)) (p : Nat × α → Bool) (lo : Nat) (h : rising lo m = true) :
    rising lo (m.filter p) = true := by
  induction m generalizing lo with
  | nil => rfl
  | cons e m ih =>
    obtain ⟨k, v⟩ := e
    simp only [rising, Bool.and_eq_true, decide_eq_true_eq] at h
    rw [List.filter_cons]
    split
    · simp only [rising, Bool.and_eq_true, decide_eq_true_eq]; exact ⟨h.1, ih _ h.2⟩
    · exact rising_mono _ (k + 1) lo (by omega) (ih _ h.2)

/-- Keeping only some of the cells keeps the form. -/
theorem Cells.wf_filter (d : Byte) (m : List Host.Cell) (p : Host.Cell → Bool) (h : Cells.wf d m = true) :
    Cells.wf d (m.filter p) = true := by
  simp only [Cells.wf, Bool.and_eq_true, listed, List.all_eq_true] at h ⊢
  exact ⟨rising_filter _ _ _ h.1, fun e he => h.2 e (List.mem_of_mem_filter he)⟩

/-- Erasing a range of flash keeps the form. -/
theorem Cells.wf_erase (m : List Host.Cell) (a n : Nat) (h : Cells.wf 0xFF m = true) :
    Cells.wf 0xFF (flashEraseRange m a n) = true := Cells.wf_filter _ _ _ h

/-- Writing cells one after another keeps the form. -/
theorem Cells.wf_foldl {β : Type} (d : Byte) (l : List β) (f : List Host.Cell → β → List Host.Cell)
    (hf : ∀ m b, Cells.wf d m = true → Cells.wf d (f m b) = true) (m : List Host.Cell) (h : Cells.wf d m = true) :
    Cells.wf d (l.foldl f m) = true := by
  induction l generalizing m with
  | nil => exact h
  | cons b l ih => exact ih _ (hf _ _ h)

/-- Programming flash keeps the form. -/
theorem Cells.wf_program (m : List Host.Cell) (a : Nat) (bs : List Byte) (h : Cells.wf 0xFF m = true) :
    Cells.wf 0xFF (flashProgramBytes m a bs) = true :=
  Cells.wf_foldl _ _ _ (fun _ _ hm => Cells.wf_sset _ _ _ _ hm) _ h

/-- Writing a record of a region keeps the form. -/
theorem Cells.wf_region (r : Region) (m : List Host.Cell) (bs : List Byte) (h : Cells.wf 0xFF m = true) :
    Cells.wf 0xFF (r.write m bs) = true := by
  unfold Region.write
  dsimp only
  split
  · exact Cells.wf_erase _ _ _ (Cells.wf_program _ _ _ h)
  · exact Cells.wf_program _ _ _ h

/-- Writing a boot record keeps the form. -/
theorem Cells.wf_bootRecord (m : List Host.Cell) (life slot : Nat) (h : Cells.wf 0xFF m = true) :
    Cells.wf 0xFF (writeBootRecord m life slot) = true :=
  Cells.wf_program _ _ _ (Cells.wf_erase _ _ _ h)

/-- Storing a codeword keeps the form. -/
theorem Cells.wf_storeWord (m : List Host.Cell) (key : Nat) (bs : List Byte) (h : Cells.wf 0 m = true) :
    Cells.wf 0 (storeWord m key bs) = true :=
  Cells.wf_foldl _ _ _ (fun _ _ hm => Cells.wf_sset _ _ _ _ hm) _ h

/-- Changed symbols keep the form. -/
theorem Mem.wf_upset (m : Mem) (us : List (Nat × Byte)) (h : m.wf = true) : (m.upset us).wf = true := by
  unfold Mem.upset
  induction us generalizing m with
  | nil => exact h
  | cons u us ih =>
    rw [Mem.wf_iff] at h
    refine ih _ ?_
    by_cases hu : u.1 < sramUpsetBase
    · simp only [hu, if_true]
      exact (Mem.wf_iff _).2 ⟨h.1, Cells.wf_sset _ _ _ _ h.2.1, h.2.2⟩
    · simp only [hu, if_false]
      exact (Mem.wf_iff _).2 ⟨h.1, h.2.1, Cells.wf_sset _ _ _ _ h.2.2⟩

end Sys2Proof.Machine
end

