-- ==== Sys2Proof/Laws/State.lean ====
section
/-! SUPPORT. One lemma for each field and each update of the state: what the shared updates leave as it was. A proof
cites these and unfolds no record update. -/

namespace Sys2Proof.Machine

/-! ### Updates of the whole state -/

@[simp] theorem State.onDev_dev (s : State) (f : Dev → Dev) : (s.onDev f).dev = f s.dev := rfl
@[simp] theorem State.onDev_mem (s : State) (f : Dev → Dev) : (s.onDev f).mem = s.mem := rfl
@[simp] theorem State.onDev_pending (s : State) (f : Dev → Dev) : (s.onDev f).pending = s.pending := rfl
@[simp] theorem State.onMem_dev (s : State) (f : Mem → Mem) : (s.onMem f).dev = s.dev := rfl
@[simp] theorem State.onMem_mem (s : State) (f : Mem → Mem) : (s.onMem f).mem = f s.mem := rfl
@[simp] theorem State.onMem_pending (s : State) (f : Mem → Mem) : (s.onMem f).pending = s.pending := rfl


/-! ### wr -/

@[simp] theorem Dev.wr_shadows (d : Dev) (a : Nat) (v : W32) : (d.wr a v).shadows = d.shadows := rfl
@[simp] theorem Dev.wr_stagers (d : Dev) (a : Nat) (v : W32) : (d.wr a v).stagers = d.stagers := rfl
@[simp] theorem Dev.wr_sampled (d : Dev) (a : Nat) (v : W32) : (d.wr a v).sampled = d.sampled := rfl
@[simp] theorem Dev.wr_cue (d : Dev) (a : Nat) (v : W32) : (d.wr a v).cue = d.cue := rfl
@[simp] theorem Dev.wr_flt (d : Dev) (a : Nat) (v : W32) : (d.wr a v).flt = d.flt := rfl
@[simp] theorem Dev.wr_cfg (d : Dev) (a : Nat) (v : W32) : (d.wr a v).cfg = d.cfg := rfl
@[simp] theorem Dev.wr_top (d : Dev) (a : Nat) (v : W32) : (d.wr a v).top = d.top := rfl
@[simp] theorem Dev.wr_ns (d : Dev) (a : Nat) (v : W32) : (d.wr a v).ns = d.ns := rfl
@[simp] theorem Dev.wr_sec (d : Dev) (a : Nat) (v : W32) : (d.wr a v).sec = d.sec := rfl
@[simp] theorem Dev.wr_buf (d : Dev) (a : Nat) (v : W32) : (d.wr a v).buf = d.buf := rfl
@[simp] theorem Dev.wr_dma (d : Dev) (a : Nat) (v : W32) : (d.wr a v).dma = d.dma := rfl
@[simp] theorem Dev.wr_dmaTurn (d : Dev) (a : Nat) (v : W32) : (d.wr a v).dmaTurn = d.dmaTurn := rfl
@[simp] theorem Dev.wr_heads (d : Dev) (a : Nat) (v : W32) : (d.wr a v).heads = d.heads := rfl
@[simp] theorem Dev.wr_sides (d : Dev) (a : Nat) (v : W32) : (d.wr a v).sides = d.sides := rfl
@[simp] theorem Dev.wr_alloc (d : Dev) (a : Nat) (v : W32) : (d.wr a v).alloc = d.alloc := rfl
@[simp] theorem Dev.wr_hq (d : Dev) (a : Nat) (v : W32) : (d.wr a v).hq = d.hq := rfl
@[simp] theorem Dev.wr_ens (d : Dev) (a : Nat) (v : W32) : (d.wr a v).ens = d.ens := rfl
@[simp] theorem Dev.wr_pcie (d : Dev) (a : Nat) (v : W32) : (d.wr a v).pcie = d.pcie := rfl
@[simp] theorem Dev.wr_spn (d : Dev) (a : Nat) (v : W32) : (d.wr a v).spn = d.spn := rfl
@[simp] theorem Dev.wr_aux (d : Dev) (a : Nat) (v : W32) : (d.wr a v).aux = d.aux := rfl
@[simp] theorem Dev.wr_axes (d : Dev) (a : Nat) (v : W32) : (d.wr a v).axes = d.axes := rfl
@[simp] theorem Dev.wr_cal (d : Dev) (a : Nat) (v : W32) : (d.wr a v).cal = d.cal := rfl
@[simp] theorem Dev.wr_pwr (d : Dev) (a : Nat) (v : W32) : (d.wr a v).pwr = d.pwr := rfl
@[simp] theorem Dev.wr_sent (d : Dev) (a : Nat) (v : W32) : (d.wr a v).sent = d.sent := rfl
@[simp] theorem Dev.wr_draws (d : Dev) (a : Nat) (v : W32) : (d.wr a v).draws = d.draws := rfl

/-! ### setF -/

@[simp] theorem Dev.setF_shadows (d : Dev) (a lo w x : Nat) : (d.setF a lo w x).shadows = d.shadows := rfl
@[simp] theorem Dev.setF_stagers (d : Dev) (a lo w x : Nat) : (d.setF a lo w x).stagers = d.stagers := rfl
@[simp] theorem Dev.setF_sampled (d : Dev) (a lo w x : Nat) : (d.setF a lo w x).sampled = d.sampled := rfl
@[simp] theorem Dev.setF_cue (d : Dev) (a lo w x : Nat) : (d.setF a lo w x).cue = d.cue := rfl
@[simp] theorem Dev.setF_flt (d : Dev) (a lo w x : Nat) : (d.setF a lo w x).flt = d.flt := rfl
@[simp] theorem Dev.setF_cfg (d : Dev) (a lo w x : Nat) : (d.setF a lo w x).cfg = d.cfg := rfl
@[simp] theorem Dev.setF_top (d : Dev) (a lo w x : Nat) : (d.setF a lo w x).top = d.top := rfl
@[simp] theorem Dev.setF_ns (d : Dev) (a lo w x : Nat) : (d.setF a lo w x).ns = d.ns := rfl
@[simp] theorem Dev.setF_sec (d : Dev) (a lo w x : Nat) : (d.setF a lo w x).sec = d.sec := rfl
@[simp] theorem Dev.setF_buf (d : Dev) (a lo w x : Nat) : (d.setF a lo w x).buf = d.buf := rfl
@[simp] theorem Dev.setF_dma (d : Dev) (a lo w x : Nat) : (d.setF a lo w x).dma = d.dma := rfl
@[simp] theorem Dev.setF_dmaTurn (d : Dev) (a lo w x : Nat) : (d.setF a lo w x).dmaTurn = d.dmaTurn := rfl
@[simp] theorem Dev.setF_heads (d : Dev) (a lo w x : Nat) : (d.setF a lo w x).heads = d.heads := rfl
@[simp] theorem Dev.setF_sides (d : Dev) (a lo w x : Nat) : (d.setF a lo w x).sides = d.sides := rfl
@[simp] theorem Dev.setF_alloc (d : Dev) (a lo w x : Nat) : (d.setF a lo w x).alloc = d.alloc := rfl
@[simp] theorem Dev.setF_hq (d : Dev) (a lo w x : Nat) : (d.setF a lo w x).hq = d.hq := rfl
@[simp] theorem Dev.setF_ens (d : Dev) (a lo w x : Nat) : (d.setF a lo w x).ens = d.ens := rfl
@[simp] theorem Dev.setF_pcie (d : Dev) (a lo w x : Nat) : (d.setF a lo w x).pcie = d.pcie := rfl
@[simp] theorem Dev.setF_spn (d : Dev) (a lo w x : Nat) : (d.setF a lo w x).spn = d.spn := rfl
@[simp] theorem Dev.setF_aux (d : Dev) (a lo w x : Nat) : (d.setF a lo w x).aux = d.aux := rfl
@[simp] theorem Dev.setF_axes (d : Dev) (a lo w x : Nat) : (d.setF a lo w x).axes = d.axes := rfl
@[simp] theorem Dev.setF_cal (d : Dev) (a lo w x : Nat) : (d.setF a lo w x).cal = d.cal := rfl
@[simp] theorem Dev.setF_pwr (d : Dev) (a lo w x : Nat) : (d.setF a lo w x).pwr = d.pwr := rfl
@[simp] theorem Dev.setF_sent (d : Dev) (a lo w x : Nat) : (d.setF a lo w x).sent = d.sent := rfl
@[simp] theorem Dev.setF_draws (d : Dev) (a lo w x : Nat) : (d.setF a lo w x).draws = d.draws := rfl

/-! ### setB -/

@[simp] theorem Dev.setB_shadows (d : Dev) (a i : Nat) (b : Bool) : (d.setB a i b).shadows = d.shadows := rfl
@[simp] theorem Dev.setB_stagers (d : Dev) (a i : Nat) (b : Bool) : (d.setB a i b).stagers = d.stagers := rfl
@[simp] theorem Dev.setB_sampled (d : Dev) (a i : Nat) (b : Bool) : (d.setB a i b).sampled = d.sampled := rfl
@[simp] theorem Dev.setB_cue (d : Dev) (a i : Nat) (b : Bool) : (d.setB a i b).cue = d.cue := rfl
@[simp] theorem Dev.setB_flt (d : Dev) (a i : Nat) (b : Bool) : (d.setB a i b).flt = d.flt := rfl
@[simp] theorem Dev.setB_cfg (d : Dev) (a i : Nat) (b : Bool) : (d.setB a i b).cfg = d.cfg := rfl
@[simp] theorem Dev.setB_top (d : Dev) (a i : Nat) (b : Bool) : (d.setB a i b).top = d.top := rfl
@[simp] theorem Dev.setB_ns (d : Dev) (a i : Nat) (b : Bool) : (d.setB a i b).ns = d.ns := rfl
@[simp] theorem Dev.setB_sec (d : Dev) (a i : Nat) (b : Bool) : (d.setB a i b).sec = d.sec := rfl
@[simp] theorem Dev.setB_buf (d : Dev) (a i : Nat) (b : Bool) : (d.setB a i b).buf = d.buf := rfl
@[simp] theorem Dev.setB_dma (d : Dev) (a i : Nat) (b : Bool) : (d.setB a i b).dma = d.dma := rfl
@[simp] theorem Dev.setB_dmaTurn (d : Dev) (a i : Nat) (b : Bool) : (d.setB a i b).dmaTurn = d.dmaTurn := rfl
@[simp] theorem Dev.setB_heads (d : Dev) (a i : Nat) (b : Bool) : (d.setB a i b).heads = d.heads := rfl
@[simp] theorem Dev.setB_sides (d : Dev) (a i : Nat) (b : Bool) : (d.setB a i b).sides = d.sides := rfl
@[simp] theorem Dev.setB_alloc (d : Dev) (a i : Nat) (b : Bool) : (d.setB a i b).alloc = d.alloc := rfl
@[simp] theorem Dev.setB_hq (d : Dev) (a i : Nat) (b : Bool) : (d.setB a i b).hq = d.hq := rfl
@[simp] theorem Dev.setB_ens (d : Dev) (a i : Nat) (b : Bool) : (d.setB a i b).ens = d.ens := rfl
@[simp] theorem Dev.setB_pcie (d : Dev) (a i : Nat) (b : Bool) : (d.setB a i b).pcie = d.pcie := rfl
@[simp] theorem Dev.setB_spn (d : Dev) (a i : Nat) (b : Bool) : (d.setB a i b).spn = d.spn := rfl
@[simp] theorem Dev.setB_aux (d : Dev) (a i : Nat) (b : Bool) : (d.setB a i b).aux = d.aux := rfl
@[simp] theorem Dev.setB_axes (d : Dev) (a i : Nat) (b : Bool) : (d.setB a i b).axes = d.axes := rfl
@[simp] theorem Dev.setB_cal (d : Dev) (a i : Nat) (b : Bool) : (d.setB a i b).cal = d.cal := rfl
@[simp] theorem Dev.setB_pwr (d : Dev) (a i : Nat) (b : Bool) : (d.setB a i b).pwr = d.pwr := rfl
@[simp] theorem Dev.setB_sent (d : Dev) (a i : Nat) (b : Bool) : (d.setB a i b).sent = d.sent := rfl
@[simp] theorem Dev.setB_draws (d : Dev) (a i : Nat) (b : Bool) : (d.setB a i b).draws = d.draws := rfl

/-! ### bump -/

@[simp] theorem Dev.bump_shadows (d : Dev) (a lo w n : Nat) : (d.bump a lo w n).shadows = d.shadows := rfl
@[simp] theorem Dev.bump_stagers (d : Dev) (a lo w n : Nat) : (d.bump a lo w n).stagers = d.stagers := rfl
@[simp] theorem Dev.bump_sampled (d : Dev) (a lo w n : Nat) : (d.bump a lo w n).sampled = d.sampled := rfl
@[simp] theorem Dev.bump_cue (d : Dev) (a lo w n : Nat) : (d.bump a lo w n).cue = d.cue := rfl
@[simp] theorem Dev.bump_flt (d : Dev) (a lo w n : Nat) : (d.bump a lo w n).flt = d.flt := rfl
@[simp] theorem Dev.bump_cfg (d : Dev) (a lo w n : Nat) : (d.bump a lo w n).cfg = d.cfg := rfl
@[simp] theorem Dev.bump_top (d : Dev) (a lo w n : Nat) : (d.bump a lo w n).top = d.top := rfl
@[simp] theorem Dev.bump_ns (d : Dev) (a lo w n : Nat) : (d.bump a lo w n).ns = d.ns := rfl
@[simp] theorem Dev.bump_sec (d : Dev) (a lo w n : Nat) : (d.bump a lo w n).sec = d.sec := rfl
@[simp] theorem Dev.bump_buf (d : Dev) (a lo w n : Nat) : (d.bump a lo w n).buf = d.buf := rfl
@[simp] theorem Dev.bump_dma (d : Dev) (a lo w n : Nat) : (d.bump a lo w n).dma = d.dma := rfl
@[simp] theorem Dev.bump_dmaTurn (d : Dev) (a lo w n : Nat) : (d.bump a lo w n).dmaTurn = d.dmaTurn := rfl
@[simp] theorem Dev.bump_heads (d : Dev) (a lo w n : Nat) : (d.bump a lo w n).heads = d.heads := rfl
@[simp] theorem Dev.bump_sides (d : Dev) (a lo w n : Nat) : (d.bump a lo w n).sides = d.sides := rfl
@[simp] theorem Dev.bump_alloc (d : Dev) (a lo w n : Nat) : (d.bump a lo w n).alloc = d.alloc := rfl
@[simp] theorem Dev.bump_hq (d : Dev) (a lo w n : Nat) : (d.bump a lo w n).hq = d.hq := rfl
@[simp] theorem Dev.bump_ens (d : Dev) (a lo w n : Nat) : (d.bump a lo w n).ens = d.ens := rfl
@[simp] theorem Dev.bump_pcie (d : Dev) (a lo w n : Nat) : (d.bump a lo w n).pcie = d.pcie := rfl
@[simp] theorem Dev.bump_spn (d : Dev) (a lo w n : Nat) : (d.bump a lo w n).spn = d.spn := rfl
@[simp] theorem Dev.bump_aux (d : Dev) (a lo w n : Nat) : (d.bump a lo w n).aux = d.aux := rfl
@[simp] theorem Dev.bump_axes (d : Dev) (a lo w n : Nat) : (d.bump a lo w n).axes = d.axes := rfl
@[simp] theorem Dev.bump_cal (d : Dev) (a lo w n : Nat) : (d.bump a lo w n).cal = d.cal := rfl
@[simp] theorem Dev.bump_pwr (d : Dev) (a lo w n : Nat) : (d.bump a lo w n).pwr = d.pwr := rfl
@[simp] theorem Dev.bump_sent (d : Dev) (a lo w n : Nat) : (d.bump a lo w n).sent = d.sent := rfl
@[simp] theorem Dev.bump_draws (d : Dev) (a lo w n : Nat) : (d.bump a lo w n).draws = d.draws := rfl

/-! ### gcnt -/

@[simp] theorem Dev.gcnt_shadows (d : Dev) (c : Nat) : (d.gcnt c).shadows = d.shadows := rfl
@[simp] theorem Dev.gcnt_stagers (d : Dev) (c : Nat) : (d.gcnt c).stagers = d.stagers := rfl
@[simp] theorem Dev.gcnt_sampled (d : Dev) (c : Nat) : (d.gcnt c).sampled = d.sampled := rfl
@[simp] theorem Dev.gcnt_cue (d : Dev) (c : Nat) : (d.gcnt c).cue = d.cue := rfl
@[simp] theorem Dev.gcnt_flt (d : Dev) (c : Nat) : (d.gcnt c).flt = d.flt := rfl
@[simp] theorem Dev.gcnt_cfg (d : Dev) (c : Nat) : (d.gcnt c).cfg = d.cfg := rfl
@[simp] theorem Dev.gcnt_top (d : Dev) (c : Nat) : (d.gcnt c).top = d.top := rfl
@[simp] theorem Dev.gcnt_ns (d : Dev) (c : Nat) : (d.gcnt c).ns = d.ns := rfl
@[simp] theorem Dev.gcnt_sec (d : Dev) (c : Nat) : (d.gcnt c).sec = d.sec := rfl
@[simp] theorem Dev.gcnt_buf (d : Dev) (c : Nat) : (d.gcnt c).buf = d.buf := rfl
@[simp] theorem Dev.gcnt_dma (d : Dev) (c : Nat) : (d.gcnt c).dma = d.dma := rfl
@[simp] theorem Dev.gcnt_dmaTurn (d : Dev) (c : Nat) : (d.gcnt c).dmaTurn = d.dmaTurn := rfl
@[simp] theorem Dev.gcnt_heads (d : Dev) (c : Nat) : (d.gcnt c).heads = d.heads := rfl
@[simp] theorem Dev.gcnt_sides (d : Dev) (c : Nat) : (d.gcnt c).sides = d.sides := rfl
@[simp] theorem Dev.gcnt_alloc (d : Dev) (c : Nat) : (d.gcnt c).alloc = d.alloc := rfl
@[simp] theorem Dev.gcnt_hq (d : Dev) (c : Nat) : (d.gcnt c).hq = d.hq := rfl
@[simp] theorem Dev.gcnt_ens (d : Dev) (c : Nat) : (d.gcnt c).ens = d.ens := rfl
@[simp] theorem Dev.gcnt_pcie (d : Dev) (c : Nat) : (d.gcnt c).pcie = d.pcie := rfl
@[simp] theorem Dev.gcnt_spn (d : Dev) (c : Nat) : (d.gcnt c).spn = d.spn := rfl
@[simp] theorem Dev.gcnt_aux (d : Dev) (c : Nat) : (d.gcnt c).aux = d.aux := rfl
@[simp] theorem Dev.gcnt_axes (d : Dev) (c : Nat) : (d.gcnt c).axes = d.axes := rfl
@[simp] theorem Dev.gcnt_cal (d : Dev) (c : Nat) : (d.gcnt c).cal = d.cal := rfl
@[simp] theorem Dev.gcnt_pwr (d : Dev) (c : Nat) : (d.gcnt c).pwr = d.pwr := rfl
@[simp] theorem Dev.gcnt_sent (d : Dev) (c : Nat) : (d.gcnt c).sent = d.sent := rfl
@[simp] theorem Dev.gcnt_draws (d : Dev) (c : Nat) : (d.gcnt c).draws = d.draws := rfl

/-! ### refuseMode -/

@[simp] theorem Dev.refuseMode_shadows (d : Dev) (why : Nat) : (d.refuseMode why).shadows = d.shadows := rfl
@[simp] theorem Dev.refuseMode_stagers (d : Dev) (why : Nat) : (d.refuseMode why).stagers = d.stagers := rfl
@[simp] theorem Dev.refuseMode_sampled (d : Dev) (why : Nat) : (d.refuseMode why).sampled = d.sampled := rfl
@[simp] theorem Dev.refuseMode_cue (d : Dev) (why : Nat) : (d.refuseMode why).cue = d.cue := rfl
@[simp] theorem Dev.refuseMode_flt (d : Dev) (why : Nat) : (d.refuseMode why).flt = d.flt := rfl
@[simp] theorem Dev.refuseMode_cfg (d : Dev) (why : Nat) : (d.refuseMode why).cfg = d.cfg := rfl
@[simp] theorem Dev.refuseMode_top (d : Dev) (why : Nat) : (d.refuseMode why).top = d.top := rfl
@[simp] theorem Dev.refuseMode_ns (d : Dev) (why : Nat) : (d.refuseMode why).ns = d.ns := rfl
@[simp] theorem Dev.refuseMode_sec (d : Dev) (why : Nat) : (d.refuseMode why).sec = d.sec := rfl
@[simp] theorem Dev.refuseMode_buf (d : Dev) (why : Nat) : (d.refuseMode why).buf = d.buf := rfl
@[simp] theorem Dev.refuseMode_dma (d : Dev) (why : Nat) : (d.refuseMode why).dma = d.dma := rfl
@[simp] theorem Dev.refuseMode_dmaTurn (d : Dev) (why : Nat) : (d.refuseMode why).dmaTurn = d.dmaTurn := rfl
@[simp] theorem Dev.refuseMode_heads (d : Dev) (why : Nat) : (d.refuseMode why).heads = d.heads := rfl
@[simp] theorem Dev.refuseMode_sides (d : Dev) (why : Nat) : (d.refuseMode why).sides = d.sides := rfl
@[simp] theorem Dev.refuseMode_alloc (d : Dev) (why : Nat) : (d.refuseMode why).alloc = d.alloc := rfl
@[simp] theorem Dev.refuseMode_hq (d : Dev) (why : Nat) : (d.refuseMode why).hq = d.hq := rfl
@[simp] theorem Dev.refuseMode_ens (d : Dev) (why : Nat) : (d.refuseMode why).ens = d.ens := rfl
@[simp] theorem Dev.refuseMode_pcie (d : Dev) (why : Nat) : (d.refuseMode why).pcie = d.pcie := rfl
@[simp] theorem Dev.refuseMode_spn (d : Dev) (why : Nat) : (d.refuseMode why).spn = d.spn := rfl
@[simp] theorem Dev.refuseMode_aux (d : Dev) (why : Nat) : (d.refuseMode why).aux = d.aux := rfl
@[simp] theorem Dev.refuseMode_axes (d : Dev) (why : Nat) : (d.refuseMode why).axes = d.axes := rfl
@[simp] theorem Dev.refuseMode_cal (d : Dev) (why : Nat) : (d.refuseMode why).cal = d.cal := rfl
@[simp] theorem Dev.refuseMode_pwr (d : Dev) (why : Nat) : (d.refuseMode why).pwr = d.pwr := rfl
@[simp] theorem Dev.refuseMode_sent (d : Dev) (why : Nat) : (d.refuseMode why).sent = d.sent := rfl
@[simp] theorem Dev.refuseMode_draws (d : Dev) (why : Nat) : (d.refuseMode why).draws = d.draws := rfl

/-! ### emit -/

@[simp] theorem Dev.emit_regs (d : Dev) (x : Output) : (d.emit x).regs = d.regs := rfl
@[simp] theorem Dev.emit_shadows (d : Dev) (x : Output) : (d.emit x).shadows = d.shadows := rfl
@[simp] theorem Dev.emit_stagers (d : Dev) (x : Output) : (d.emit x).stagers = d.stagers := rfl
@[simp] theorem Dev.emit_sampled (d : Dev) (x : Output) : (d.emit x).sampled = d.sampled := rfl
@[simp] theorem Dev.emit_cue (d : Dev) (x : Output) : (d.emit x).cue = d.cue := rfl
@[simp] theorem Dev.emit_flt (d : Dev) (x : Output) : (d.emit x).flt = d.flt := rfl
@[simp] theorem Dev.emit_cfg (d : Dev) (x : Output) : (d.emit x).cfg = d.cfg := rfl
@[simp] theorem Dev.emit_top (d : Dev) (x : Output) : (d.emit x).top = d.top := rfl
@[simp] theorem Dev.emit_ns (d : Dev) (x : Output) : (d.emit x).ns = d.ns := rfl
@[simp] theorem Dev.emit_sec (d : Dev) (x : Output) : (d.emit x).sec = d.sec := rfl
@[simp] theorem Dev.emit_buf (d : Dev) (x : Output) : (d.emit x).buf = d.buf := rfl
@[simp] theorem Dev.emit_dma (d : Dev) (x : Output) : (d.emit x).dma = d.dma := rfl
@[simp] theorem Dev.emit_dmaTurn (d : Dev) (x : Output) : (d.emit x).dmaTurn = d.dmaTurn := rfl
@[simp] theorem Dev.emit_heads (d : Dev) (x : Output) : (d.emit x).heads = d.heads := rfl
@[simp] theorem Dev.emit_sides (d : Dev) (x : Output) : (d.emit x).sides = d.sides := rfl
@[simp] theorem Dev.emit_alloc (d : Dev) (x : Output) : (d.emit x).alloc = d.alloc := rfl
@[simp] theorem Dev.emit_hq (d : Dev) (x : Output) : (d.emit x).hq = d.hq := rfl
@[simp] theorem Dev.emit_ens (d : Dev) (x : Output) : (d.emit x).ens = d.ens := rfl
@[simp] theorem Dev.emit_pcie (d : Dev) (x : Output) : (d.emit x).pcie = d.pcie := rfl
@[simp] theorem Dev.emit_spn (d : Dev) (x : Output) : (d.emit x).spn = d.spn := rfl
@[simp] theorem Dev.emit_aux (d : Dev) (x : Output) : (d.emit x).aux = d.aux := rfl
@[simp] theorem Dev.emit_axes (d : Dev) (x : Output) : (d.emit x).axes = d.axes := rfl
@[simp] theorem Dev.emit_cal (d : Dev) (x : Output) : (d.emit x).cal = d.cal := rfl
@[simp] theorem Dev.emit_pwr (d : Dev) (x : Output) : (d.emit x).pwr = d.pwr := rfl
@[simp] theorem Dev.emit_draws (d : Dev) (x : Output) : (d.emit x).draws = d.draws := rfl

/-! ### emits -/

@[simp] theorem Dev.emits_regs (d : Dev) (xs : List Output) : (d.emits xs).regs = d.regs := rfl
@[simp] theorem Dev.emits_shadows (d : Dev) (xs : List Output) : (d.emits xs).shadows = d.shadows := rfl
@[simp] theorem Dev.emits_stagers (d : Dev) (xs : List Output) : (d.emits xs).stagers = d.stagers := rfl
@[simp] theorem Dev.emits_sampled (d : Dev) (xs : List Output) : (d.emits xs).sampled = d.sampled := rfl
@[simp] theorem Dev.emits_cue (d : Dev) (xs : List Output) : (d.emits xs).cue = d.cue := rfl
@[simp] theorem Dev.emits_flt (d : Dev) (xs : List Output) : (d.emits xs).flt = d.flt := rfl
@[simp] theorem Dev.emits_cfg (d : Dev) (xs : List Output) : (d.emits xs).cfg = d.cfg := rfl
@[simp] theorem Dev.emits_top (d : Dev) (xs : List Output) : (d.emits xs).top = d.top := rfl
@[simp] theorem Dev.emits_ns (d : Dev) (xs : List Output) : (d.emits xs).ns = d.ns := rfl
@[simp] theorem Dev.emits_sec (d : Dev) (xs : List Output) : (d.emits xs).sec = d.sec := rfl
@[simp] theorem Dev.emits_buf (d : Dev) (xs : List Output) : (d.emits xs).buf = d.buf := rfl
@[simp] theorem Dev.emits_dma (d : Dev) (xs : List Output) : (d.emits xs).dma = d.dma := rfl
@[simp] theorem Dev.emits_dmaTurn (d : Dev) (xs : List Output) : (d.emits xs).dmaTurn = d.dmaTurn := rfl
@[simp] theorem Dev.emits_heads (d : Dev) (xs : List Output) : (d.emits xs).heads = d.heads := rfl
@[simp] theorem Dev.emits_sides (d : Dev) (xs : List Output) : (d.emits xs).sides = d.sides := rfl
@[simp] theorem Dev.emits_alloc (d : Dev) (xs : List Output) : (d.emits xs).alloc = d.alloc := rfl
@[simp] theorem Dev.emits_hq (d : Dev) (xs : List Output) : (d.emits xs).hq = d.hq := rfl
@[simp] theorem Dev.emits_ens (d : Dev) (xs : List Output) : (d.emits xs).ens = d.ens := rfl
@[simp] theorem Dev.emits_pcie (d : Dev) (xs : List Output) : (d.emits xs).pcie = d.pcie := rfl
@[simp] theorem Dev.emits_spn (d : Dev) (xs : List Output) : (d.emits xs).spn = d.spn := rfl
@[simp] theorem Dev.emits_aux (d : Dev) (xs : List Output) : (d.emits xs).aux = d.aux := rfl
@[simp] theorem Dev.emits_axes (d : Dev) (xs : List Output) : (d.emits xs).axes = d.axes := rfl
@[simp] theorem Dev.emits_cal (d : Dev) (xs : List Output) : (d.emits xs).cal = d.cal := rfl
@[simp] theorem Dev.emits_pwr (d : Dev) (xs : List Output) : (d.emits xs).pwr = d.pwr := rfl
@[simp] theorem Dev.emits_draws (d : Dev) (xs : List Output) : (d.emits xs).draws = d.draws := rfl

/-! ### drawn -/

@[simp] theorem Dev.drawn_regs (d : Dev)  : (d.drawn).regs = d.regs := rfl
@[simp] theorem Dev.drawn_shadows (d : Dev)  : (d.drawn).shadows = d.shadows := rfl
@[simp] theorem Dev.drawn_stagers (d : Dev)  : (d.drawn).stagers = d.stagers := rfl
@[simp] theorem Dev.drawn_sampled (d : Dev)  : (d.drawn).sampled = d.sampled := rfl
@[simp] theorem Dev.drawn_cue (d : Dev)  : (d.drawn).cue = d.cue := rfl
@[simp] theorem Dev.drawn_flt (d : Dev)  : (d.drawn).flt = d.flt := rfl
@[simp] theorem Dev.drawn_cfg (d : Dev)  : (d.drawn).cfg = d.cfg := rfl
@[simp] theorem Dev.drawn_top (d : Dev)  : (d.drawn).top = d.top := rfl
@[simp] theorem Dev.drawn_ns (d : Dev)  : (d.drawn).ns = d.ns := rfl
@[simp] theorem Dev.drawn_sec (d : Dev)  : (d.drawn).sec = d.sec := rfl
@[simp] theorem Dev.drawn_buf (d : Dev)  : (d.drawn).buf = d.buf := rfl
@[simp] theorem Dev.drawn_dma (d : Dev)  : (d.drawn).dma = d.dma := rfl
@[simp] theorem Dev.drawn_dmaTurn (d : Dev)  : (d.drawn).dmaTurn = d.dmaTurn := rfl
@[simp] theorem Dev.drawn_heads (d : Dev)  : (d.drawn).heads = d.heads := rfl
@[simp] theorem Dev.drawn_sides (d : Dev)  : (d.drawn).sides = d.sides := rfl
@[simp] theorem Dev.drawn_alloc (d : Dev)  : (d.drawn).alloc = d.alloc := rfl
@[simp] theorem Dev.drawn_hq (d : Dev)  : (d.drawn).hq = d.hq := rfl
@[simp] theorem Dev.drawn_ens (d : Dev)  : (d.drawn).ens = d.ens := rfl
@[simp] theorem Dev.drawn_pcie (d : Dev)  : (d.drawn).pcie = d.pcie := rfl
@[simp] theorem Dev.drawn_spn (d : Dev)  : (d.drawn).spn = d.spn := rfl
@[simp] theorem Dev.drawn_aux (d : Dev)  : (d.drawn).aux = d.aux := rfl
@[simp] theorem Dev.drawn_axes (d : Dev)  : (d.drawn).axes = d.axes := rfl
@[simp] theorem Dev.drawn_cal (d : Dev)  : (d.drawn).cal = d.cal := rfl
@[simp] theorem Dev.drawn_pwr (d : Dev)  : (d.drawn).pwr = d.pwr := rfl
@[simp] theorem Dev.drawn_sent (d : Dev)  : (d.drawn).sent = d.sent := rfl

/-! ### postNew -/

@[simp] theorem Dev.postNew_regs (d : Dev) (c s a p : Nat) (x y : Bool) (e f g h : Nat) : (d.postNew c s a p x y e f g h).regs = d.regs :=
    rfl
@[simp] theorem Dev.postNew_shadows (d : Dev) (c s a p : Nat) (x y : Bool) (e f g h : Nat) : (d.postNew c s a p x y e f g h).shadows = d.shadows :=
    rfl
@[simp] theorem Dev.postNew_stagers (d : Dev) (c s a p : Nat) (x y : Bool) (e f g h : Nat) : (d.postNew c s a p x y e f g h).stagers = d.stagers :=
    rfl
@[simp] theorem Dev.postNew_sampled (d : Dev) (c s a p : Nat) (x y : Bool) (e f g h : Nat) : (d.postNew c s a p x y e f g h).sampled = d.sampled :=
    rfl
@[simp] theorem Dev.postNew_cue (d : Dev) (c s a p : Nat) (x y : Bool) (e f g h : Nat) : (d.postNew c s a p x y e f g h).cue = d.cue :=
    rfl
@[simp] theorem Dev.postNew_cfg (d : Dev) (c s a p : Nat) (x y : Bool) (e f g h : Nat) : (d.postNew c s a p x y e f g h).cfg = d.cfg :=
    rfl
@[simp] theorem Dev.postNew_top (d : Dev) (c s a p : Nat) (x y : Bool) (e f g h : Nat) : (d.postNew c s a p x y e f g h).top = d.top :=
    rfl
@[simp] theorem Dev.postNew_ns (d : Dev) (c s a p : Nat) (x y : Bool) (e f g h : Nat) : (d.postNew c s a p x y e f g h).ns = d.ns :=
    rfl
@[simp] theorem Dev.postNew_sec (d : Dev) (c s a p : Nat) (x y : Bool) (e f g h : Nat) : (d.postNew c s a p x y e f g h).sec = d.sec :=
    rfl
@[simp] theorem Dev.postNew_buf (d : Dev) (c s a p : Nat) (x y : Bool) (e f g h : Nat) : (d.postNew c s a p x y e f g h).buf = d.buf :=
    rfl
@[simp] theorem Dev.postNew_dma (d : Dev) (c s a p : Nat) (x y : Bool) (e f g h : Nat) : (d.postNew c s a p x y e f g h).dma = d.dma :=
    rfl
@[simp] theorem Dev.postNew_dmaTurn (d : Dev) (c s a p : Nat) (x y : Bool) (e f g h : Nat) : (d.postNew c s a p x y e f g h).dmaTurn = d.dmaTurn :=
    rfl
@[simp] theorem Dev.postNew_heads (d : Dev) (c s a p : Nat) (x y : Bool) (e f g h : Nat) : (d.postNew c s a p x y e f g h).heads = d.heads :=
    rfl
@[simp] theorem Dev.postNew_sides (d : Dev) (c s a p : Nat) (x y : Bool) (e f g h : Nat) : (d.postNew c s a p x y e f g h).sides = d.sides :=
    rfl
@[simp] theorem Dev.postNew_alloc (d : Dev) (c s a p : Nat) (x y : Bool) (e f g h : Nat) : (d.postNew c s a p x y e f g h).alloc = d.alloc :=
    rfl
@[simp] theorem Dev.postNew_hq (d : Dev) (c s a p : Nat) (x y : Bool) (e f g h : Nat) : (d.postNew c s a p x y e f g h).hq = d.hq :=
    rfl
@[simp] theorem Dev.postNew_ens (d : Dev) (c s a p : Nat) (x y : Bool) (e f g h : Nat) : (d.postNew c s a p x y e f g h).ens = d.ens :=
    rfl
@[simp] theorem Dev.postNew_pcie (d : Dev) (c s a p : Nat) (x y : Bool) (e f g h : Nat) : (d.postNew c s a p x y e f g h).pcie = d.pcie :=
    rfl
@[simp] theorem Dev.postNew_spn (d : Dev) (c s a p : Nat) (x y : Bool) (e f g h : Nat) : (d.postNew c s a p x y e f g h).spn = d.spn :=
    rfl
@[simp] theorem Dev.postNew_aux (d : Dev) (c s a p : Nat) (x y : Bool) (e f g h : Nat) : (d.postNew c s a p x y e f g h).aux = d.aux :=
    rfl
@[simp] theorem Dev.postNew_axes (d : Dev) (c s a p : Nat) (x y : Bool) (e f g h : Nat) : (d.postNew c s a p x y e f g h).axes = d.axes :=
    rfl
@[simp] theorem Dev.postNew_cal (d : Dev) (c s a p : Nat) (x y : Bool) (e f g h : Nat) : (d.postNew c s a p x y e f g h).cal = d.cal :=
    rfl
@[simp] theorem Dev.postNew_pwr (d : Dev) (c s a p : Nat) (x y : Bool) (e f g h : Nat) : (d.postNew c s a p x y e f g h).pwr = d.pwr :=
    rfl
@[simp] theorem Dev.postNew_sent (d : Dev) (c s a p : Nat) (x y : Bool) (e f g h : Nat) : (d.postNew c s a p x y e f g h).sent = d.sent :=
    rfl
@[simp] theorem Dev.postNew_draws (d : Dev) (c s a p : Nat) (x y : Bool) (e f g h : Nat) : (d.postNew c s a p x y e f g h).draws = d.draws :=
    rfl

/-! ### postAt -/

@[simp] theorem Dev.postAt_regs (d : Dev) (c s a p : Nat) (x y : Bool) (e f g h : Nat) : (d.postAt c s a p x y e f g h).regs = d.regs :=
    by
  unfold Dev.postAt; split
  · split <;> rfl
  · rfl
@[simp] theorem Dev.postAt_shadows (d : Dev) (c s a p : Nat) (x y : Bool) (e f g h : Nat) : (d.postAt c s a p x y e f g h).shadows = d.shadows :=
    by
  unfold Dev.postAt; split
  · split <;> rfl
  · rfl
@[simp] theorem Dev.postAt_stagers (d : Dev) (c s a p : Nat) (x y : Bool) (e f g h : Nat) : (d.postAt c s a p x y e f g h).stagers = d.stagers :=
    by
  unfold Dev.postAt; split
  · split <;> rfl
  · rfl
@[simp] theorem Dev.postAt_sampled (d : Dev) (c s a p : Nat) (x y : Bool) (e f g h : Nat) : (d.postAt c s a p x y e f g h).sampled = d.sampled :=
    by
  unfold Dev.postAt; split
  · split <;> rfl
  · rfl
@[simp] theorem Dev.postAt_cue (d : Dev) (c s a p : Nat) (x y : Bool) (e f g h : Nat) : (d.postAt c s a p x y e f g h).cue = d.cue :=
    by
  unfold Dev.postAt; split
  · split <;> rfl
  · rfl
@[simp] theorem Dev.postAt_cfg (d : Dev) (c s a p : Nat) (x y : Bool) (e f g h : Nat) : (d.postAt c s a p x y e f g h).cfg = d.cfg :=
    by
  unfold Dev.postAt; split
  · split <;> rfl
  · rfl
@[simp] theorem Dev.postAt_top (d : Dev) (c s a p : Nat) (x y : Bool) (e f g h : Nat) : (d.postAt c s a p x y e f g h).top = d.top :=
    by
  unfold Dev.postAt; split
  · split <;> rfl
  · rfl
@[simp] theorem Dev.postAt_ns (d : Dev) (c s a p : Nat) (x y : Bool) (e f g h : Nat) : (d.postAt c s a p x y e f g h).ns = d.ns :=
    by
  unfold Dev.postAt; split
  · split <;> rfl
  · rfl
@[simp] theorem Dev.postAt_sec (d : Dev) (c s a p : Nat) (x y : Bool) (e f g h : Nat) : (d.postAt c s a p x y e f g h).sec = d.sec :=
    by
  unfold Dev.postAt; split
  · split <;> rfl
  · rfl
@[simp] theorem Dev.postAt_buf (d : Dev) (c s a p : Nat) (x y : Bool) (e f g h : Nat) : (d.postAt c s a p x y e f g h).buf = d.buf :=
    by
  unfold Dev.postAt; split
  · split <;> rfl
  · rfl
@[simp] theorem Dev.postAt_dma (d : Dev) (c s a p : Nat) (x y : Bool) (e f g h : Nat) : (d.postAt c s a p x y e f g h).dma = d.dma :=
    by
  unfold Dev.postAt; split
  · split <;> rfl
  · rfl
@[simp] theorem Dev.postAt_dmaTurn (d : Dev) (c s a p : Nat) (x y : Bool) (e f g h : Nat) : (d.postAt c s a p x y e f g h).dmaTurn = d.dmaTurn :=
    by
  unfold Dev.postAt; split
  · split <;> rfl
  · rfl
@[simp] theorem Dev.postAt_heads (d : Dev) (c s a p : Nat) (x y : Bool) (e f g h : Nat) : (d.postAt c s a p x y e f g h).heads = d.heads :=
    by
  unfold Dev.postAt; split
  · split <;> rfl
  · rfl
@[simp] theorem Dev.postAt_sides (d : Dev) (c s a p : Nat) (x y : Bool) (e f g h : Nat) : (d.postAt c s a p x y e f g h).sides = d.sides :=
    by
  unfold Dev.postAt; split
  · split <;> rfl
  · rfl
@[simp] theorem Dev.postAt_alloc (d : Dev) (c s a p : Nat) (x y : Bool) (e f g h : Nat) : (d.postAt c s a p x y e f g h).alloc = d.alloc :=
    by
  unfold Dev.postAt; split
  · split <;> rfl
  · rfl
@[simp] theorem Dev.postAt_hq (d : Dev) (c s a p : Nat) (x y : Bool) (e f g h : Nat) : (d.postAt c s a p x y e f g h).hq = d.hq :=
    by
  unfold Dev.postAt; split
  · split <;> rfl
  · rfl
@[simp] theorem Dev.postAt_ens (d : Dev) (c s a p : Nat) (x y : Bool) (e f g h : Nat) : (d.postAt c s a p x y e f g h).ens = d.ens :=
    by
  unfold Dev.postAt; split
  · split <;> rfl
  · rfl
@[simp] theorem Dev.postAt_pcie (d : Dev) (c s a p : Nat) (x y : Bool) (e f g h : Nat) : (d.postAt c s a p x y e f g h).pcie = d.pcie :=
    by
  unfold Dev.postAt; split
  · split <;> rfl
  · rfl
@[simp] theorem Dev.postAt_spn (d : Dev) (c s a p : Nat) (x y : Bool) (e f g h : Nat) : (d.postAt c s a p x y e f g h).spn = d.spn :=
    by
  unfold Dev.postAt; split
  · split <;> rfl
  · rfl
@[simp] theorem Dev.postAt_aux (d : Dev) (c s a p : Nat) (x y : Bool) (e f g h : Nat) : (d.postAt c s a p x y e f g h).aux = d.aux :=
    by
  unfold Dev.postAt; split
  · split <;> rfl
  · rfl
@[simp] theorem Dev.postAt_axes (d : Dev) (c s a p : Nat) (x y : Bool) (e f g h : Nat) : (d.postAt c s a p x y e f g h).axes = d.axes :=
    by
  unfold Dev.postAt; split
  · split <;> rfl
  · rfl
@[simp] theorem Dev.postAt_cal (d : Dev) (c s a p : Nat) (x y : Bool) (e f g h : Nat) : (d.postAt c s a p x y e f g h).cal = d.cal :=
    by
  unfold Dev.postAt; split
  · split <;> rfl
  · rfl
@[simp] theorem Dev.postAt_pwr (d : Dev) (c s a p : Nat) (x y : Bool) (e f g h : Nat) : (d.postAt c s a p x y e f g h).pwr = d.pwr :=
    by
  unfold Dev.postAt; split
  · split <;> rfl
  · rfl
@[simp] theorem Dev.postAt_sent (d : Dev) (c s a p : Nat) (x y : Bool) (e f g h : Nat) : (d.postAt c s a p x y e f g h).sent = d.sent :=
    by
  unfold Dev.postAt; split
  · split <;> rfl
  · rfl
@[simp] theorem Dev.postAt_draws (d : Dev) (c s a p : Nat) (x y : Bool) (e f g h : Nat) : (d.postAt c s a p x y e f g h).draws = d.draws :=
    by
  unfold Dev.postAt; split
  · split <;> rfl
  · rfl

/-! ### post -/

@[simp] theorem Dev.post_regs (d : Dev) (c s e f g h : Nat) : (d.post c s e f g h).regs = d.regs := by simp [Dev.post]
@[simp] theorem Dev.post_shadows (d : Dev) (c s e f g h : Nat) : (d.post c s e f g h).shadows = d.shadows :=
    by simp [Dev.post]
@[simp] theorem Dev.post_stagers (d : Dev) (c s e f g h : Nat) : (d.post c s e f g h).stagers = d.stagers :=
    by simp [Dev.post]
@[simp] theorem Dev.post_sampled (d : Dev) (c s e f g h : Nat) : (d.post c s e f g h).sampled = d.sampled :=
    by simp [Dev.post]
@[simp] theorem Dev.post_cue (d : Dev) (c s e f g h : Nat) : (d.post c s e f g h).cue = d.cue := by simp [Dev.post]
@[simp] theorem Dev.post_cfg (d : Dev) (c s e f g h : Nat) : (d.post c s e f g h).cfg = d.cfg := by simp [Dev.post]
@[simp] theorem Dev.post_top (d : Dev) (c s e f g h : Nat) : (d.post c s e f g h).top = d.top := by simp [Dev.post]
@[simp] theorem Dev.post_ns (d : Dev) (c s e f g h : Nat) : (d.post c s e f g h).ns = d.ns := by simp [Dev.post]
@[simp] theorem Dev.post_sec (d : Dev) (c s e f g h : Nat) : (d.post c s e f g h).sec = d.sec := by simp [Dev.post]
@[simp] theorem Dev.post_buf (d : Dev) (c s e f g h : Nat) : (d.post c s e f g h).buf = d.buf := by simp [Dev.post]
@[simp] theorem Dev.post_dma (d : Dev) (c s e f g h : Nat) : (d.post c s e f g h).dma = d.dma := by simp [Dev.post]
@[simp] theorem Dev.post_dmaTurn (d : Dev) (c s e f g h : Nat) : (d.post c s e f g h).dmaTurn = d.dmaTurn :=
    by simp [Dev.post]
@[simp] theorem Dev.post_heads (d : Dev) (c s e f g h : Nat) : (d.post c s e f g h).heads = d.heads :=
    by simp [Dev.post]
@[simp] theorem Dev.post_sides (d : Dev) (c s e f g h : Nat) : (d.post c s e f g h).sides = d.sides :=
    by simp [Dev.post]
@[simp] theorem Dev.post_alloc (d : Dev) (c s e f g h : Nat) : (d.post c s e f g h).alloc = d.alloc :=
    by simp [Dev.post]
@[simp] theorem Dev.post_hq (d : Dev) (c s e f g h : Nat) : (d.post c s e f g h).hq = d.hq := by simp [Dev.post]
@[simp] theorem Dev.post_ens (d : Dev) (c s e f g h : Nat) : (d.post c s e f g h).ens = d.ens := by simp [Dev.post]
@[simp] theorem Dev.post_pcie (d : Dev) (c s e f g h : Nat) : (d.post c s e f g h).pcie = d.pcie := by simp [Dev.post]
@[simp] theorem Dev.post_spn (d : Dev) (c s e f g h : Nat) : (d.post c s e f g h).spn = d.spn := by simp [Dev.post]
@[simp] theorem Dev.post_aux (d : Dev) (c s e f g h : Nat) : (d.post c s e f g h).aux = d.aux := by simp [Dev.post]
@[simp] theorem Dev.post_axes (d : Dev) (c s e f g h : Nat) : (d.post c s e f g h).axes = d.axes := by simp [Dev.post]
@[simp] theorem Dev.post_cal (d : Dev) (c s e f g h : Nat) : (d.post c s e f g h).cal = d.cal := by simp [Dev.post]
@[simp] theorem Dev.post_pwr (d : Dev) (c s e f g h : Nat) : (d.post c s e f g h).pwr = d.pwr := by simp [Dev.post]
@[simp] theorem Dev.post_sent (d : Dev) (c s e f g h : Nat) : (d.post c s e f g h).sent = d.sent := by simp [Dev.post]
@[simp] theorem Dev.post_draws (d : Dev) (c s e f g h : Nat) : (d.post c s e f g h).draws = d.draws :=
    by simp [Dev.post]

/-! ### copyBoard -/

@[simp] theorem Dev.copyBoard_shadows (d : Dev) (r : Nat) : (d.copyBoard r).shadows = d.shadows :=
    by
  unfold Dev.copyBoard; split <;> rfl
@[simp] theorem Dev.copyBoard_stagers (d : Dev) (r : Nat) : (d.copyBoard r).stagers = d.stagers :=
    by
  unfold Dev.copyBoard; split <;> rfl
@[simp] theorem Dev.copyBoard_sampled (d : Dev) (r : Nat) : (d.copyBoard r).sampled = d.sampled :=
    by
  unfold Dev.copyBoard; split <;> rfl
@[simp] theorem Dev.copyBoard_cue (d : Dev) (r : Nat) : (d.copyBoard r).cue = d.cue :=
    by
  unfold Dev.copyBoard; split <;> rfl
@[simp] theorem Dev.copyBoard_top (d : Dev) (r : Nat) : (d.copyBoard r).top = d.top :=
    by
  unfold Dev.copyBoard; split <;> rfl
@[simp] theorem Dev.copyBoard_ns (d : Dev) (r : Nat) : (d.copyBoard r).ns = d.ns :=
    by
  unfold Dev.copyBoard; split <;> rfl
@[simp] theorem Dev.copyBoard_sec (d : Dev) (r : Nat) : (d.copyBoard r).sec = d.sec :=
    by
  unfold Dev.copyBoard; split <;> rfl
@[simp] theorem Dev.copyBoard_buf (d : Dev) (r : Nat) : (d.copyBoard r).buf = d.buf :=
    by
  unfold Dev.copyBoard; split <;> rfl
@[simp] theorem Dev.copyBoard_dma (d : Dev) (r : Nat) : (d.copyBoard r).dma = d.dma :=
    by
  unfold Dev.copyBoard; split <;> rfl
@[simp] theorem Dev.copyBoard_dmaTurn (d : Dev) (r : Nat) : (d.copyBoard r).dmaTurn = d.dmaTurn :=
    by
  unfold Dev.copyBoard; split <;> rfl
@[simp] theorem Dev.copyBoard_heads (d : Dev) (r : Nat) : (d.copyBoard r).heads = d.heads :=
    by
  unfold Dev.copyBoard; split <;> rfl
@[simp] theorem Dev.copyBoard_sides (d : Dev) (r : Nat) : (d.copyBoard r).sides = d.sides :=
    by
  unfold Dev.copyBoard; split <;> rfl
@[simp] theorem Dev.copyBoard_alloc (d : Dev) (r : Nat) : (d.copyBoard r).alloc = d.alloc :=
    by
  unfold Dev.copyBoard; split <;> rfl
@[simp] theorem Dev.copyBoard_hq (d : Dev) (r : Nat) : (d.copyBoard r).hq = d.hq :=
    by
  unfold Dev.copyBoard; split <;> rfl
@[simp] theorem Dev.copyBoard_ens (d : Dev) (r : Nat) : (d.copyBoard r).ens = d.ens :=
    by
  unfold Dev.copyBoard; split <;> rfl
@[simp] theorem Dev.copyBoard_pcie (d : Dev) (r : Nat) : (d.copyBoard r).pcie = d.pcie :=
    by
  unfold Dev.copyBoard; split <;> rfl
@[simp] theorem Dev.copyBoard_spn (d : Dev) (r : Nat) : (d.copyBoard r).spn = d.spn :=
    by
  unfold Dev.copyBoard; split <;> rfl
@[simp] theorem Dev.copyBoard_aux (d : Dev) (r : Nat) : (d.copyBoard r).aux = d.aux :=
    by
  unfold Dev.copyBoard; split <;> rfl
@[simp] theorem Dev.copyBoard_axes (d : Dev) (r : Nat) : (d.copyBoard r).axes = d.axes :=
    by
  unfold Dev.copyBoard; split <;> rfl
@[simp] theorem Dev.copyBoard_cal (d : Dev) (r : Nat) : (d.copyBoard r).cal = d.cal :=
    by
  unfold Dev.copyBoard; split <;> rfl
@[simp] theorem Dev.copyBoard_pwr (d : Dev) (r : Nat) : (d.copyBoard r).pwr = d.pwr :=
    by
  unfold Dev.copyBoard; split <;> rfl
@[simp] theorem Dev.copyBoard_sent (d : Dev) (r : Nat) : (d.copyBoard r).sent = d.sent :=
    by
  unfold Dev.copyBoard; split <;> rfl
@[simp] theorem Dev.copyBoard_draws (d : Dev) (r : Nat) : (d.copyBoard r).draws = d.draws :=
    by
  unfold Dev.copyBoard; split <;> rfl

/-! ### raise -/

@[simp] theorem Dev.raise_shadows (d : Dev) (l : Fin 256) (s e f g h : Nat) : (d.raise l s e f g h).shadows = d.shadows :=
    by
  unfold Dev.raise; dsimp only; split <;> rfl
@[simp] theorem Dev.raise_stagers (d : Dev) (l : Fin 256) (s e f g h : Nat) : (d.raise l s e f g h).stagers = d.stagers :=
    by
  unfold Dev.raise; dsimp only; split <;> rfl
@[simp] theorem Dev.raise_sampled (d : Dev) (l : Fin 256) (s e f g h : Nat) : (d.raise l s e f g h).sampled = d.sampled :=
    by
  unfold Dev.raise; dsimp only; split <;> rfl
@[simp] theorem Dev.raise_flt (d : Dev) (l : Fin 256) (s e f g h : Nat) : (d.raise l s e f g h).flt = d.flt :=
    by
  unfold Dev.raise; dsimp only; split <;> rfl
@[simp] theorem Dev.raise_cfg (d : Dev) (l : Fin 256) (s e f g h : Nat) : (d.raise l s e f g h).cfg = d.cfg :=
    by
  unfold Dev.raise; dsimp only; split <;> rfl
@[simp] theorem Dev.raise_top (d : Dev) (l : Fin 256) (s e f g h : Nat) : (d.raise l s e f g h).top = d.top :=
    by
  unfold Dev.raise; dsimp only; split <;> rfl
@[simp] theorem Dev.raise_ns (d : Dev) (l : Fin 256) (s e f g h : Nat) : (d.raise l s e f g h).ns = d.ns :=
    by
  unfold Dev.raise; dsimp only; split <;> rfl
@[simp] theorem Dev.raise_sec (d : Dev) (l : Fin 256) (s e f g h : Nat) : (d.raise l s e f g h).sec = d.sec :=
    by
  unfold Dev.raise; dsimp only; split <;> rfl
@[simp] theorem Dev.raise_buf (d : Dev) (l : Fin 256) (s e f g h : Nat) : (d.raise l s e f g h).buf = d.buf :=
    by
  unfold Dev.raise; dsimp only; split <;> rfl
@[simp] theorem Dev.raise_dma (d : Dev) (l : Fin 256) (s e f g h : Nat) : (d.raise l s e f g h).dma = d.dma :=
    by
  unfold Dev.raise; dsimp only; split <;> rfl
@[simp] theorem Dev.raise_dmaTurn (d : Dev) (l : Fin 256) (s e f g h : Nat) : (d.raise l s e f g h).dmaTurn = d.dmaTurn :=
    by
  unfold Dev.raise; dsimp only; split <;> rfl
@[simp] theorem Dev.raise_heads (d : Dev) (l : Fin 256) (s e f g h : Nat) : (d.raise l s e f g h).heads = d.heads :=
    by
  unfold Dev.raise; dsimp only; split <;> rfl
@[simp] theorem Dev.raise_sides (d : Dev) (l : Fin 256) (s e f g h : Nat) : (d.raise l s e f g h).sides = d.sides :=
    by
  unfold Dev.raise; dsimp only; split <;> rfl
@[simp] theorem Dev.raise_alloc (d : Dev) (l : Fin 256) (s e f g h : Nat) : (d.raise l s e f g h).alloc = d.alloc :=
    by
  unfold Dev.raise; dsimp only; split <;> rfl
@[simp] theorem Dev.raise_hq (d : Dev) (l : Fin 256) (s e f g h : Nat) : (d.raise l s e f g h).hq = d.hq :=
    by
  unfold Dev.raise; dsimp only; split <;> rfl
@[simp] theorem Dev.raise_ens (d : Dev) (l : Fin 256) (s e f g h : Nat) : (d.raise l s e f g h).ens = d.ens :=
    by
  unfold Dev.raise; dsimp only; split <;> rfl
@[simp] theorem Dev.raise_pcie (d : Dev) (l : Fin 256) (s e f g h : Nat) : (d.raise l s e f g h).pcie = d.pcie :=
    by
  unfold Dev.raise; dsimp only; split <;> rfl
@[simp] theorem Dev.raise_spn (d : Dev) (l : Fin 256) (s e f g h : Nat) : (d.raise l s e f g h).spn = d.spn :=
    by
  unfold Dev.raise; dsimp only; split <;> rfl
@[simp] theorem Dev.raise_aux (d : Dev) (l : Fin 256) (s e f g h : Nat) : (d.raise l s e f g h).aux = d.aux :=
    by
  unfold Dev.raise; dsimp only; split <;> rfl
@[simp] theorem Dev.raise_axes (d : Dev) (l : Fin 256) (s e f g h : Nat) : (d.raise l s e f g h).axes = d.axes :=
    by
  unfold Dev.raise; dsimp only; split <;> rfl
@[simp] theorem Dev.raise_cal (d : Dev) (l : Fin 256) (s e f g h : Nat) : (d.raise l s e f g h).cal = d.cal :=
    by
  unfold Dev.raise; dsimp only; split <;> rfl
@[simp] theorem Dev.raise_pwr (d : Dev) (l : Fin 256) (s e f g h : Nat) : (d.raise l s e f g h).pwr = d.pwr :=
    by
  unfold Dev.raise; dsimp only; split <;> rfl
@[simp] theorem Dev.raise_sent (d : Dev) (l : Fin 256) (s e f g h : Nat) : (d.raise l s e f g h).sent = d.sent :=
    by
  unfold Dev.raise; dsimp only; split <;> rfl
@[simp] theorem Dev.raise_draws (d : Dev) (l : Fin 256) (s e f g h : Nat) : (d.raise l s e f g h).draws = d.draws :=
    by
  unfold Dev.raise; dsimp only; split <;> rfl

/-- A schedule fault is counted in OTHERS, or it is recorded in the two registers. -/
theorem Dev.recordFault_cases (d : Dev) (e c k : Nat) (g : Bool) :
    d.recordFault e c k g = d.bump rCueFaultWhat 8 8 ∨
      ∃ v w, d.recordFault e c k g = (d.wr rCueFaultPos v).wr rCueFaultWhat w := by
  unfold Dev.recordFault
  by_cases h : d.flag rCueFaultWhat 16 = true
  · exact .inl (if_pos h)
  · exact .inr ⟨_, _, if_neg h⟩


/-! ### recordFault -/

@[simp] theorem Dev.recordFault_shadows (d : Dev) (e c k : Nat) (g : Bool) : (d.recordFault e c k g).shadows = d.shadows :=
    by
  rcases d.recordFault_cases e c k g with h | ⟨v, w, h⟩ <;> rw [h] <;> rfl
@[simp] theorem Dev.recordFault_stagers (d : Dev) (e c k : Nat) (g : Bool) : (d.recordFault e c k g).stagers = d.stagers :=
    by
  rcases d.recordFault_cases e c k g with h | ⟨v, w, h⟩ <;> rw [h] <;> rfl
@[simp] theorem Dev.recordFault_sampled (d : Dev) (e c k : Nat) (g : Bool) : (d.recordFault e c k g).sampled = d.sampled :=
    by
  rcases d.recordFault_cases e c k g with h | ⟨v, w, h⟩ <;> rw [h] <;> rfl
@[simp] theorem Dev.recordFault_cue (d : Dev) (e c k : Nat) (g : Bool) : (d.recordFault e c k g).cue = d.cue :=
    by
  rcases d.recordFault_cases e c k g with h | ⟨v, w, h⟩ <;> rw [h] <;> rfl
@[simp] theorem Dev.recordFault_flt (d : Dev) (e c k : Nat) (g : Bool) : (d.recordFault e c k g).flt = d.flt :=
    by
  rcases d.recordFault_cases e c k g with h | ⟨v, w, h⟩ <;> rw [h] <;> rfl
@[simp] theorem Dev.recordFault_cfg (d : Dev) (e c k : Nat) (g : Bool) : (d.recordFault e c k g).cfg = d.cfg :=
    by
  rcases d.recordFault_cases e c k g with h | ⟨v, w, h⟩ <;> rw [h] <;> rfl
@[simp] theorem Dev.recordFault_top (d : Dev) (e c k : Nat) (g : Bool) : (d.recordFault e c k g).top = d.top :=
    by
  rcases d.recordFault_cases e c k g with h | ⟨v, w, h⟩ <;> rw [h] <;> rfl
@[simp] theorem Dev.recordFault_ns (d : Dev) (e c k : Nat) (g : Bool) : (d.recordFault e c k g).ns = d.ns :=
    by
  rcases d.recordFault_cases e c k g with h | ⟨v, w, h⟩ <;> rw [h] <;> rfl
@[simp] theorem Dev.recordFault_sec (d : Dev) (e c k : Nat) (g : Bool) : (d.recordFault e c k g).sec = d.sec :=
    by
  rcases d.recordFault_cases e c k g with h | ⟨v, w, h⟩ <;> rw [h] <;> rfl
@[simp] theorem Dev.recordFault_buf (d : Dev) (e c k : Nat) (g : Bool) : (d.recordFault e c k g).buf = d.buf :=
    by
  rcases d.recordFault_cases e c k g with h | ⟨v, w, h⟩ <;> rw [h] <;> rfl
@[simp] theorem Dev.recordFault_dma (d : Dev) (e c k : Nat) (g : Bool) : (d.recordFault e c k g).dma = d.dma :=
    by
  rcases d.recordFault_cases e c k g with h | ⟨v, w, h⟩ <;> rw [h] <;> rfl
@[simp] theorem Dev.recordFault_dmaTurn (d : Dev) (e c k : Nat) (g : Bool) : (d.recordFault e c k g).dmaTurn = d.dmaTurn :=
    by
  rcases d.recordFault_cases e c k g with h | ⟨v, w, h⟩ <;> rw [h] <;> rfl
@[simp] theorem Dev.recordFault_heads (d : Dev) (e c k : Nat) (g : Bool) : (d.recordFault e c k g).heads = d.heads :=
    by
  rcases d.recordFault_cases e c k g with h | ⟨v, w, h⟩ <;> rw [h] <;> rfl
@[simp] theorem Dev.recordFault_sides (d : Dev) (e c k : Nat) (g : Bool) : (d.recordFault e c k g).sides = d.sides :=
    by
  rcases d.recordFault_cases e c k g with h | ⟨v, w, h⟩ <;> rw [h] <;> rfl
@[simp] theorem Dev.recordFault_alloc (d : Dev) (e c k : Nat) (g : Bool) : (d.recordFault e c k g).alloc = d.alloc :=
    by
  rcases d.recordFault_cases e c k g with h | ⟨v, w, h⟩ <;> rw [h] <;> rfl
@[simp] theorem Dev.recordFault_hq (d : Dev) (e c k : Nat) (g : Bool) : (d.recordFault e c k g).hq = d.hq :=
    by
  rcases d.recordFault_cases e c k g with h | ⟨v, w, h⟩ <;> rw [h] <;> rfl
@[simp] theorem Dev.recordFault_ens (d : Dev) (e c k : Nat) (g : Bool) : (d.recordFault e c k g).ens = d.ens :=
    by
  rcases d.recordFault_cases e c k g with h | ⟨v, w, h⟩ <;> rw [h] <;> rfl
@[simp] theorem Dev.recordFault_pcie (d : Dev) (e c k : Nat) (g : Bool) : (d.recordFault e c k g).pcie = d.pcie :=
    by
  rcases d.recordFault_cases e c k g with h | ⟨v, w, h⟩ <;> rw [h] <;> rfl
@[simp] theorem Dev.recordFault_spn (d : Dev) (e c k : Nat) (g : Bool) : (d.recordFault e c k g).spn = d.spn :=
    by
  rcases d.recordFault_cases e c k g with h | ⟨v, w, h⟩ <;> rw [h] <;> rfl
@[simp] theorem Dev.recordFault_aux (d : Dev) (e c k : Nat) (g : Bool) : (d.recordFault e c k g).aux = d.aux :=
    by
  rcases d.recordFault_cases e c k g with h | ⟨v, w, h⟩ <;> rw [h] <;> rfl
@[simp] theorem Dev.recordFault_axes (d : Dev) (e c k : Nat) (g : Bool) : (d.recordFault e c k g).axes = d.axes :=
    by
  rcases d.recordFault_cases e c k g with h | ⟨v, w, h⟩ <;> rw [h] <;> rfl
@[simp] theorem Dev.recordFault_cal (d : Dev) (e c k : Nat) (g : Bool) : (d.recordFault e c k g).cal = d.cal :=
    by
  rcases d.recordFault_cases e c k g with h | ⟨v, w, h⟩ <;> rw [h] <;> rfl
@[simp] theorem Dev.recordFault_pwr (d : Dev) (e c k : Nat) (g : Bool) : (d.recordFault e c k g).pwr = d.pwr :=
    by
  rcases d.recordFault_cases e c k g with h | ⟨v, w, h⟩ <;> rw [h] <;> rfl
@[simp] theorem Dev.recordFault_sent (d : Dev) (e c k : Nat) (g : Bool) : (d.recordFault e c k g).sent = d.sent :=
    by
  rcases d.recordFault_cases e c k g with h | ⟨v, w, h⟩ <;> rw [h] <;> rfl
@[simp] theorem Dev.recordFault_draws (d : Dev) (e c k : Nat) (g : Bool) : (d.recordFault e c k g).draws = d.draws :=
    by
  rcases d.recordFault_cases e c k g with h | ⟨v, w, h⟩ <;> rw [h] <;> rfl

end Sys2Proof.Machine
end

