-- ==== Sys2Proof/Laws/Ops.lean ====
section
/-! SUPPORT. What the shared operations do to registers, stated once: a register or field written reads as written, every
other one as before. -/

namespace Sys2Proof.Machine

/-- The register written holds the value; every other register is as before. -/
theorem Dev.rd_wr (d : Dev) (a b : Nat) (v : W32) : (d.wr a v).rd b = if a = b then v else d.rd b := by
  unfold Dev.rd Dev.wr
  exact sget_sset _ _ _ _ _ _ (fun h => by rw [h])

@[simp] theorem Dev.rd_wr_same (d : Dev) (a : Nat) (v : W32) : (d.wr a v).rd a = v := by simp [Dev.rd_wr]

theorem Dev.rd_wr_ne (d : Dev) (a b : Nat) (v : W32) (h : a ≠ b) : (d.wr a v).rd b = d.rd b := by
  simp [Dev.rd_wr, h]

theorem Dev.rd_setF (d : Dev) (a lo w x b : Nat) :
    (d.setF a lo w x).rd b = if a = b then fset (d.rd a) lo w x else d.rd b := Dev.rd_wr _ _ _ _

theorem Dev.rd_setF_ne (d : Dev) (a lo w x b : Nat) (h : a ≠ b) : (d.setF a lo w x).rd b = d.rd b := by
  simp [Dev.rd_setF, h]

theorem Dev.rd_setB_ne (d : Dev) (a i b : Nat) (v : Bool) (h : a ≠ b) : (d.setB a i v).rd b = d.rd b :=
  Dev.rd_setF_ne _ _ _ _ _ _ h

theorem Dev.rd_bump_ne (d : Dev) (a lo w n b : Nat) (h : a ≠ b) : (d.bump a lo w n).rd b = d.rd b :=
  Dev.rd_setF_ne _ _ _ _ _ _ h

/-- A field that was set reads as set. -/
theorem Dev.fld_setF_same (d : Dev) (a lo w x : Nat) (h : lo + w ≤ 32) : (d.setF a lo w x).fld a lo w = x % 2 ^ w := by
  simp [Dev.fld, Dev.rd_setF, fget_fset _ _ _ _ h]

/-- Setting a field leaves a field of the same register that it does not overlap, and every field of others. -/
theorem Dev.fld_setF_other (d : Dev) (a lo w x b lo' w' : Nat) (hw : lo' + w' ≤ 32)
    (h : a ≠ b ∨ lo' + w' ≤ lo ∨ lo + w ≤ lo') : (d.setF a lo w x).fld b lo' w' = d.fld b lo' w' := by
  by_cases hab : a = b
  · subst hab
    simp only [Dev.fld, Dev.rd_setF, if_true]
    exact fget_fset_of_disjoint _ _ _ _ _ _ hw (by simpa using h)
  · simp [Dev.fld, Dev.rd_setF, hab]

/-- A bit that was set reads as set. -/
theorem Dev.flag_setB_same (d : Dev) (a i : Nat) (b : Bool) (h : i < 32) : (d.setB a i b).flag a i = b := by
  unfold Dev.flag Dev.setB
  rw [Dev.fld_setF_same _ _ _ _ _ (by omega)]
  cases b <;> rfl

/-- Setting a bit leaves every other bit. -/
theorem Dev.flag_setB_other (d : Dev) (a i b j : Nat) (v : Bool) (hj : j < 32) (h : a ≠ b ∨ i ≠ j) :
    (d.setB a i v).flag b j = d.flag b j := by
  unfold Dev.flag Dev.setB
  rw [Dev.fld_setF_other _ _ _ _ _ _ _ _ (by omega) (by omega)]

/-- Setting a field leaves a bit outside it. -/
theorem Dev.flag_setF_other (d : Dev) (a lo w x b j : Nat) (hj : j < 32) (h : a ≠ b ∨ j < lo ∨ lo + w ≤ j) :
    (d.setF a lo w x).flag b j = d.flag b j := by
  unfold Dev.flag
  rw [Dev.fld_setF_other _ _ _ _ _ _ _ _ (by omega) (by omega)]

/-- Setting a bit leaves a field that it does not lie in. -/
theorem Dev.fld_setB_other (d : Dev) (a i b lo' w' : Nat) (v : Bool) (hw : lo' + w' ≤ 32)
    (h : a ≠ b ∨ i < lo' ∨ lo' + w' ≤ i) : (d.setB a i v).fld b lo' w' = d.fld b lo' w' := by
  unfold Dev.setB
  exact Dev.fld_setF_other _ _ _ _ _ _ _ _ hw (by omega)

/-- Registers read the same in two devices with the same register store. -/
theorem Dev.rd_congr {d e : Dev} (h : e.regs = d.regs) (a : Nat) : e.rd a = d.rd a := by simp [Dev.rd, h]

@[simp] theorem Dev.rd_emit (d : Dev) (o : Output) (a : Nat) : (d.emit o).rd a = d.rd a := rfl
@[simp] theorem Dev.rd_emits (d : Dev) (o : List Output) (a : Nat) : (d.emits o).rd a = d.rd a := rfl
@[simp] theorem Dev.rd_drawn (d : Dev) (a : Nat) : d.drawn.rd a = d.rd a := rfl
@[simp] theorem Dev.rd_post (d : Dev) (c s e f g h a : Nat) : (d.post c s e f g h).rd a = d.rd a :=
  Dev.rd_congr (by simp) a

/-- An event that is raised counts in its register and touches no other. -/
theorem Dev.rd_raise_ne (d : Dev) (l : Fin 256) (s e f g h a : Nat) (ha : rEvcnt l ≠ a) :
    (d.raise l s e f g h).rd a = d.rd a := by
  unfold Dev.raise
  dsimp only
  split <;> exact Dev.rd_bump_ne _ _ _ _ _ _ ha

/-- A post adds the newest entry at the front, or raises the count of an entry that is held: the board is never shorter. -/
theorem Dev.postNew_board (d : Dev) (c s a p : Nat) (x y : Bool) (e f g h : Nat) :
    (d.postNew c s a p x y e f g h).flt.board.length = min (d.flt.board.length + 1) 4096 := by
  simp [Dev.postNew]; omega

end Sys2Proof.Machine
end

