-- ==== Sys2Proof/WellFormed.lean ====
section
/-! DEFINITION. Well-formed commands: the shape that the spec gives a command's operands and their types do not hold
(sizes of samples, of reports, of frames and of lists). The machine has a meaning for every command, well-formed or not. -/

namespace Sys2Proof

/-- Changed symbols: a mask of 0 changes nothing. -/
def upsetsOk (us : List (Nat × Byte)) : Bool := us.all fun u => u.2 != 0

/-- Masters that decode the internal address map (R13): the two engines have ports of their own. -/
def Master.onMap : Master → Bool
  | .jtag => true
  | .host => true
  | .core _ => true
  | .dma _ => true
  | .peer _ => true
  | .admitter => false
  | .format => false

/-- Instruction fetches come from control cores. -/
def Master.fetches : Master → Bool
  | .core _ => true
  | .jtag => false
  | .host => false
  | .dma _ => false
  | .peer _ => false
  | .admitter => false
  | .format => false

/-- An access is not empty and ends within the 48-bit map (R13). -/
def accessOk (m : Master) (a : Addr) : AccessOp → Bool
  | .read len => decide (0 < len) && decide (a.toNat + len ≤ 2 ^ 48)
  | .fetch len => m.fetches && decide (0 < len) && decide (a.toNat + len ≤ 2 ^ 48)
  | .write bs => decide (0 < bs.length) && decide (a.toNat + bs.length ≤ 2 ^ 48)

/-- A register access is aligned to 4 (R415). -/
def offOk (o : Off) : Bool := o.toNat % 4 == 0

/-- Eight of something: bytes of a block, beats, spots. -/
def eight {α : Type} (l : List α) : Bool := l.length == 8

/-- A servo group holds twelve blocks of eight bytes from each of four lanes (R95, R96). -/
def ServoGroup.wf (g : ServoGroup) : Bool := g.lanes.length == 4 && g.lanes.all fun l => l.length == 12 && l.all eight

/-- Carriers of the eight spots in each wobble (R128). -/
def carriersOk (l : List (List Int)) : Bool := l.all eight

/-- Type of a 64-byte entry (R254). -/
def slotType (p : Slot) : Nat := p.toNat % 256

/-- A directory record is of a table, with an entry of that table's size (R341). -/
def DirRecord.wf (r : DirRecord) : Bool :=
  (r.table == 1 && r.entry.length == 64) || (r.table == 2 && r.entry.length == 32) || (r.table == 3 && r.entry.length == 160)

/-- A full calibration sweeps five offsets of a head, each at 17 points (R245). -/
def CalHead.wf (c : CalHead) : Bool := match c.sweeps with
  | some l => l.length == 5 && l.all fun x => x.length == 17
  | none => true

/-- Data of a remote read's answer: words, at most what one request asks for (R325). -/
def respOk (bs : List Byte) : Bool := bs.length % 4 == 0 && decide (0 < bs.length) && decide (bs.length ≤ 8224)

/-- A command's operands have the shape the spec gives them. -/
def Instr.wf : Instr → Bool
  | .masterAccess m a op env => m.onMap && accessOk m a op && upsetsOk env.upsets
  | .registerWrite m off _ _ beside => m.onMap && offOk off && beside.all fun w => w.m.onMap && offOk w.off
  | .readClear m off => m.onMap && offOk off
  | .hiLatchRead m off => m.onMap && offOk off
  | .cueOwnedWrite m off _ => m.onMap && offOk off
  | .bandSlip _ phases => eight phases && phases.all eight
  | .bandAcquire _ phases => eight phases && phases.all eight
  | .multiblockReceived _ _ blocks _ => blocks.length == 32 && blocks.all eight
  | .clkLockSet _ carriers => carriersOk carriers
  | .clkLockLost _ carriers => carriersOk carriers
  | .servoGroup _ g => g.wf
  | .opcResult _ levels ratio => eight levels && (levels.all fun l => l.length == 54) && eight ratio
  | .reinstate _ _ _ cal => cal.wf
  | .calFullDone heads | .load _ _ heads => heads.length == 4 && heads.all CalHead.wf
  | .commandFetch res => match res with
    | .entries es => decide (es.length ≤ 2)
    | .failed _ => true
  | .dataDescriptor _ p _ _ => slotType p == 3
  | .abort _ p _ => slotType p == 5
  | .mergeFlush us => upsetsOk us
  | .scrubLine us => upsetsOk us
  | .cacheFillDone _ us => upsetsOk us
  | .sramScrub us => upsetsOk us
  | .packets _ slots => decide (1 ≤ slots.length) && decide (slots.length ≤ 128)
  | .readReq _ _ _ _ _ us => upsetsOk us
  | .readResp _ _ data => respOk data
  | .directory _ d => decide (d.records.length ≤ 54) && d.records.all DirRecord.wf
  | .thermalCheck _ temps => temps.length == 4
  | .deviceReset env => env.heads.length == 4
  | .i2cDone _ _ rx => decide (rx.length ≤ 256)
  | .read .. | .write .. | .reqPerformance .. | .reqRehearsal .. | .reqGhostLight .. | .modeTransition .. | .beatBoundary ..
  | .chainEnd .. | .glPhaseAdvance .. | .actBoundary .. | .prompterCheck .. | .coreWfi .. | .eventInject ..
  | .slackClear .. | .bankSwap .. | .addressWord .. | .wobbleLost .. | .laneLoss ..
  | .defectStart .. | .defectEnd .. | .syncWindow .. | .zoneLoad .. | .loopDiverge .. | .placeReadStart ..
  | .progressiveIteration .. | .closingIteration .. | .ladderStep .. | .verifyReadDone ..
  | .outerDecode .. | .writeGateOpen .. | .writeGateClose .. | .opcRun .. | .laserFault .. | .idleVerify ..
  | .spareWrite .. | .allocEntryRead ..
  | .commitRecord .. | .commitPassed .. | .snapshot .. | .holdStart .. | .holdEnd .. | .offTrack ..
  | .writeHoldAbort .. | .lockSet .. | .lockClear .. | .fineJump .. | .layerJump .. | .seek ..
  | .seekTimeout .. | .headFaultLine .. | .pwmPeriod .. | .busSample .. | .vbusRecover ..
  | .alignEnd .. | .handover .. | .startTimeout .. | .stillTimeout .. | .chopperFault .. | .rotorLost ..
  | .gateFault .. | .recatchSample .. | .recatchResult .. | .failsReset .. | .clearLockout ..
  | .adcRoundRobin .. | .hallEdge .. | .auxPwmPeriod .. | .auxStall .. | .auxEnable .. | .auxTarget ..
  | .auxHoldEnd .. | .profileTick .. | .comparatorTrip .. | .offTimeEnd .. | .bridgeFault .. | .absoluteMove ..
  | .relativeMove .. | .profileParamWrite .. | .axisStop .. | .axisHalt .. | .axisHome .. | .axisRelease ..
  | .axisEnergise .. | .limitQualified .. | .homeRangeExceeded .. | .holdDelayEnd .. | .calWindow ..
  | .ditherAbandon .. | .calFull .. | .hotReset .. | .sqTailDoorbell .. | .cqHeadDoorbell .. | .ringEnable ..
  | .ringDisable .. | .verify .. | .flush .. | .unload .. | .identifyDevice .. | .identifyNamespace ..
  | .getLogDeferred .. | .getLogCallBoard .. | .getLogDiscard .. | .getLogSides .. | .setQuietCeiling ..
  | .setNamespace .. | .setSideVerify .. | .setEventRing .. | .setXrdyTimeout .. | .getQuietCeiling ..
  | .getNamespace .. | .getSideVerify .. | .getEventRing .. | .getXrdyTimeout .. | .setBudget .. | .fwStage ..
  | .fwActivate .. | .queueReset .. | .curtain .. | .curtainCommitEnd .. | .offerPost .. | .offerTimeout ..
  | .writeAck .. | .interruptSignal .. | .retirePage .. | .pageRetired .. | .retireBank .. | .bankDone ..
  | .wipeEnd .. | .maintNone .. | .maintClean .. | .maintInvalidate .. | .maintCleanInvalidate ..
  | .maintZeroLine .. | .maintDone .. | .scDisable .. | .scEnable .. | .drainEnd .. | .dmaStart ..
  | .dmaStop .. | .dmaResponse .. | .linkFetchDone .. | .linkTimeout .. | .pacedBurst .. | .writeReq ..
  | .writeResp .. | .nak .. | .heartbeat .. | .ack .. | .ackTimer .. | .rtoExpiry .. | .heartbeatSend ..
  | .heartbeatMissed .. | .pcsLockLoss .. | .linkReturn .. | .understudyClean .. | .dirCommit ..
  | .dirPullTimeout .. | .take .. | .ptpMessage .. | .ptpSyncSend .. | .ptpOfsWrite .. | .mdioAddress ..
  | .mdioWrite .. | .mdioRead .. | .mdioDone .. | .clockMonitorTrip .. | .fltPost .. | .callBoardCopy ..
  | .wake .. | .pmeTurnOff .. | .powerOn .. | .perst .. | .pfail .. | .pfailRelease .. | .warm ..
  | .pgoodLoss .. | .lifecycleRequest .. | .thermalClear .. | .alarmTick .. | .i2cTransfer .. | .i2cTimeout ..
  | .i2cDataPush .. | .i2cDataPop .. | .headTypePoll .. | .headResetWrite .. | .gpioEdge .. | .gpioCapPop ..
  | .flashRead .. | .flashProgram .. | .flashErase .. | .flashReadFifo .. | .flashProgramFifo ..
  | .flashDone .. | .flashFifoPush .. | .flashFifoPop .. | .gateFaultClear .. | .startRetry ..
  | .perstRelease .. | .pgoodReturn .. | .crystalStable .. | .crystalFail .. | .laneLock ..
  | .pcieConfigRequest .. | .tapReset .. | .completionTimeout .. | .discPresentChange .. => true

end Sys2Proof
end

