-- ==== Sys2Proof/Tests/Slice0.lean ====
section
/-! SUPPORT. Tests of the model: ill-formed commands that WellFormed refuses, worked examples of the spec, and for every
statement with hypotheses states and operands that meet them. -/

set_option maxRecDepth 20000
set_option exponentiation.threshold 600

namespace Sys2Proof.Tests
open Sys2Proof Sys2Proof.Machine

/-- The reset state with registers at the values given. -/
def ws (rs : List (Nat × W32)) : State := State.reset.onDev fun d => d.each rs fun d r => d.wr r.1 r.2

/-- The reset state with registers at the values given and its parts changed. -/
def wd (rs : List (Nat × W32)) (f : Dev → Dev) : State := (ws rs).onDev f

/-- The reset state with registers at the values given and its memories changed. -/
def wMem (rs : List (Nat × W32)) (f : Mem → Mem) : State := (ws rs).onMem f

/-- A chain of line 64, 100 beats long, and the event that starts it. -/
def wHdr : ChainHdr := { event := 64, prio := 1, length := 100, engines := 0, maxwait := 9, compat := 0 }
def wEv : PendEvent := { line := 64, source := 1, d0 := 0, d1 := 0, d2 := 0, d3 := 0, act := 0, pos := 0, waited := 0 }
def wRun (n : Nat) : RunChain := { ev := wEv, gl := false, startAct := 0, startBeat := 0, length := 100, elapsed := n }

/-- A state whose image has that chain. -/
def wChain (f : Dev → Dev) : State :=
  wd [(rCueStatus, 1)] fun d => f { d with cue.banks := Vector.replicate 2 { CueImage.empty with main := [wHdr] } }

/-- An address word: number 7, band-turn 0, layer 3, side 0, with its CRC. -/
def wWord : BitVec 63 := 864691128469877189

/-- A word of 512 wobbles: the sync symbol given, then the symbols of these address bits. -/
def wSym (sync : Nat) (b : BitVec 63) : BitVec 512 := BitVec.ofNat 512 ((List.range 63).foldl (fun v i =>
  v + (if b.getLsbD (62 - i) then oneSymbol else 0) * 2 ^ (8 * (i + 1))) sync)

/-- Reliabilities of a frame's first 198 bits at place 2528 of side 0, layer 0, on spot 2: sync, header and two pairs. -/
def wFrame (frame : Nat) : List Int :=
  (bitsOf 48 sy1 ++ modulate (pairsOf (headerBits (headerInfo 0 0 2 2528 frame 0 [] false) ++ List.replicate 4 true))).map
    fun b => if b then -1 else 1

/-- A read of a place by head 0, as it begins. -/
def wJob : ReadJob := .new ⟨0, 0, 2528⟩ .command 0

/-- A read with every row accepted. -/
def wDone : ReadJob := { wJob with accepted := BitVec.allOnes 72, progressive := 8 }

/-- Head 0 reads a place, and spot 2 stands before its frame 5 in a state of its sync, with the position it is predicted at
and reliabilities. -/
def wSync (rs : List (Nat × W32)) (st at_ : Nat) (soft : List Int) : State :=
  wd (rs ++ [(rSpotStat 0 2, BitVec.ofNat 32 st)]) fun d => (d.onHead 0 fun s => { s with job := some wJob }).onSpot 0 2 fun x =>
    { x with frame := 5, predicted := at_, chan := { x.chan with soft } }

/-- A zone entry of zeros with its CRC, and a state whose memory holds it where the zone table begins. -/
def wZoneEntry : List Byte := List.replicate 62 0 ++ leBytes 2 51675
def wZone : State :=
  ((ws [(rZoneBaseLo, 0x800_0000)]).writeInternal .format 0x800_0000 wZoneEntry).1

/-- Head 0 at a place's start, with its layer calibrated on every spot. -/
def wAt (p : Place) (d : Dev) : Dev :=
  (d.onHead 0 fun h =>
    { h with wobble := { h.wobble with side := p.side, layer := p.layer, next := placeWord p.rb.val, count := placeOffset p.rb.val * 1350000000 },
             opcTemps := [(p.layer.val, h.temp)] }).each allSpots fun d j =>
    d.onSpot 0 j fun x => { x with opc := [(p.layer.val, (1000, 1000, 0))] }

/-- PERFORMANCE with side 0 mounted and verified, and head 0 ready to write at a place. -/
def wReady (p : Place) (f : SideState → SideState) (g : Dev → Dev) : State :=
  wd [(rTopMode, 1), (rSrvStat 0, 0xF), (rWaddrLo 0, 0x8000_0000), (rWaddrHi 0, BitVec.ofNat 32 (placeTurn p.rb.val + p.layer.val * 2 ^ 16)),
    (rWrpStat 0, 2), (rSideCfg 0, 1)] fun d => g (wAt p (d.onSide 0 fun s => f { s with mounted := true }))

/-- Side 0 mounted and verified with its parts changed, and a head whose verify read of a place has closed, every header decoded. -/
def wChecked (p : Place) (why : ReadPurpose) (h : Head) (ok : BitVec 72) (f : SideState → SideState) : State :=
  wd [(rSideCfg 0, 1)] fun d => ((d.onSide 0 fun s => f { s with mounted := true }).onHead h fun s =>
    { s with job := some { ReadJob.new p why h with accepted := ok, closed := true } }).each allSpots fun d j =>
    d.onSpot h j fun x => { x with frames := (List.range 54).map fun k => (k, ⟨0, false, [], true, false, false, false⟩) }

/-- n wobbles whose carriers stand off the write clock by e. -/
def wClk (n : Nat) (e : Int) : List (List Int) := List.replicate n ((List.range 8).map fun (j : Nat) => e - 32 * (j : Int))

/-- The first home place of side 0, and a buffered row of it. -/
def wHome : Place := ⟨0, 0, 2528⟩
def wRow : Row :=
  { mlba := 0, body := ⟨[], 0, 0, 0⟩, src := .ring 0, nsid := 1, lba := 0, stream := 0, writes := [0], order := 0,
    atomic := false, place := none, released := false, committed := false, range := 0 }

/-- A packet slot with fields at byte offsets, and the command that ring 0 fetched with it. -/
def wSlot (fs : List (Nat × Nat)) : Slot := BitVec.ofNat 512 (fs.foldl (fun n f => n + f.2 <<< (8 * f.1)) 0)
def wCmd (fs : List (Nat × Nat)) : Cmd := .fetched (.ring 0) (wSlot fs) 7

/-- PERFORMANCE with the fabric running, budgets for every act and stream, and the commands outstanding. -/
def wHost (rs : List (Nat × W32)) (cs : List Cmd) (f : Dev → Dev) : State :=
  wd ([(rTopMode, 1), (rCueStatus, 1), (rBudget 0, 99), (rBudget 1, 99), (rBudget 2, 99), (rBudget 3, 99), (rStream 0, 999),
    (rNs 1 + 8, 1000), (rNs 1 + 12, 1), (rXrdy, 0x644)] ++ rs) fun d => f { d with hq.cmds := cs, sampled := d.regs }

/-- A row of one byte with its CRC and tag, held in the buffer for LBA k. -/
def wHeld (k : Nat) (committed : Bool) : Row :=
  { wRow with mlba := k, lba := k, committed, body := ⟨[7], BitVec.ofNat 64 (crc64 [7]), BitVec.ofNat 32 k, ~~~ BitVec.ofNat 32 k⟩ }

/-- The offset of a cue-owned register. -/
def wOwned : Off := 0x60_000C


/-! ### Well-formed commands: one ill-formed term for each check -/

def goodGroup : ServoGroup := { lanes := List.replicate 4 (List.replicate 12 (List.replicate 8 0)), bad := false }
def goodHead : CalHead := { ok := true, failStep := 0, sweeps := some (List.replicate 5 (List.replicate 17 0)) }
def goodLevels : List (List (Int × Int)) := List.replicate 8 (List.replicate 54 (1, 0))
def goodFrame : FrameHdr :=
  { port := 0, version := 1, src := 3, dst := 2, retx := false, seq := 0, ackv := false, ack := 0, epoch := 0, macOk := true }
def noEnv : AccessEnv := { upsets := [], far := .unmapped }

theorem test_wf_access : [
    (Instr.masterAccess .host 0x600_0000 (.read 4) noEnv).wf, (Instr.masterAccess .admitter 0 (.read 4) noEnv).wf,
    (Instr.masterAccess .host 0 (.read 0) noEnv).wf, (Instr.masterAccess .host 0xFFFF_FFFF_FFFE (.read 4) noEnv).wf,
    (Instr.masterAccess .host 0 (.fetch 4) noEnv).wf, (Instr.masterAccess .host 0 (.write []) noEnv).wf,
    (Instr.masterAccess .host 0 (.read 4) { noEnv with upsets := [(1, 0)] }).wf, (Instr.registerWrite .host 2 0xF 0 []).wf,
    (Instr.registerWrite .host 0 0xF 0 [⟨.jtag, 2, 0xF, 0⟩]).wf, (Instr.registerWrite .host 0 0xF 0 [⟨.format, 4, 0xF, 0⟩]).wf,
    (Instr.readClear .format 4).wf, (Instr.hiLatchRead .host 1).wf, (Instr.cueOwnedWrite .host 3 0).wf] =
    [true, false, false, false, false, false, false, false, false, false, false, false, false] := by decide

theorem test_wf_medium : [
    (Instr.servoGroup 0 goodGroup).wf, (Instr.servoGroup 0 { goodGroup with lanes := [] }).wf,
    (Instr.servoGroup 0 { goodGroup with lanes := List.replicate 4 [] }).wf,
    (Instr.servoGroup 0 { goodGroup with lanes := List.replicate 4 (List.replicate 12 [0]) }).wf,
    (Instr.bandSlip 0 [[1]]).wf, (Instr.bandSlip 0 (List.replicate 8 [1])).wf, (Instr.bandAcquire 0 []).wf,
    (Instr.bandAcquire 0 (List.replicate 8 [])).wf, (Instr.multiblockReceived 0 0 [] 0).wf,
    (Instr.multiblockReceived 0 0 (List.replicate 32 [0]) 0).wf, (Instr.clkLockSet 0 [[0]]).wf,
    (Instr.clkLockLost 0 [[0]]).wf, (Instr.opcResult 0 goodLevels (List.replicate 8 0)).wf,
    (Instr.opcResult 0 [] (List.replicate 8 0)).wf, (Instr.opcResult 0 (List.replicate 8 []) (List.replicate 8 0)).wf,
    (Instr.opcResult 0 goodLevels []).wf] =
    [true, false, false, false, false, false, false, false, false, false, false, false, true, false, false, false] := by
  decide

theorem test_wf_calibration : [
    (Instr.calFullDone (List.replicate 4 goodHead)).wf, (Instr.calFullDone []).wf,
    (Instr.calFullDone (List.replicate 4 { goodHead with sweeps := some [] })).wf,
    (Instr.load (.ring 0) 5 [goodHead]).wf,
    (Instr.reinstate .host 0 .notAcked { goodHead with sweeps := some (List.replicate 5 [1]) }).wf] =
    [true, false, false, false, false] := by decide

theorem test_wf_host : [
    (Instr.commandFetch (.entries [0, 0])).wf, (Instr.commandFetch (.entries [0, 0, 0])).wf,
    (Instr.dataDescriptor (.ring 0) 3 [] .complete).wf, (Instr.dataDescriptor (.ring 0) 5 [] .complete).wf,
    (Instr.abort (.ring 0) 5 false).wf, (Instr.abort (.ring 0) 3 false).wf, (Instr.mergeFlush [(0, 0)]).wf,
    (Instr.scrubLine [(0, 0)]).wf, (Instr.cacheFillDone 0 [(0, 0)]).wf, (Instr.sramScrub [(0, 0)]).wf] =
    [true, false, true, false, true, false, false, false, false, false] := by decide

theorem test_wf_rest : [
    (Instr.packets goodFrame [0]).wf, (Instr.packets goodFrame []).wf,
    (Instr.packets goodFrame (List.replicate 129 0)).wf, (Instr.readReq goodFrame 0 0 4 0 [(0, 0)]).wf,
    (Instr.readResp goodFrame 0 [1, 2, 3]).wf, (Instr.readResp goodFrame 0 []).wf,
    (Instr.directory goodFrame ⟨0, 0, true, false, false, false, [⟨1, 0, []⟩]⟩).wf,
    (Instr.directory goodFrame ⟨0, 0, true, false, false, false, List.replicate 55 ⟨2, 0, List.replicate 32 0⟩⟩).wf,
    (Instr.thermalCheck 25 []).wf, (Instr.deviceReset ⟨0, true, [], 0⟩).wf,
    (Instr.i2cDone 0 false (List.replicate 257 0)).wf] =
    [true, false, false, false, false, false, false, false, false, false, false] := by decide

/-! ### The spec's worked examples -/

/-- 03_zrf_medium.md, "one bit of MLBA 200,000,037": where the block, its place and one of its bits lie. -/
theorem test_home_place : homeOf 200000037 = (⟨1, 3, 47096⟩, 37) ∧ placeWord 47096 = 844232 ∧
    placeTurn 47096 = 7410 ∧ interleave 37 1000 = (5, 17, 179) ∧ deinterleave 5 17 179 = (37, 1000) := by decide

/-- The same example's frame header: the ID, the RB number and the frame byte. -/
theorem test_frame_header : (headerInfo 1 3 5 47096 17 0 [] false).take 5 = [0x9D, 0x00, 0xB7, 0xF8, 0x44] := by decide

/-- 11_buffer_memory.md, "retiring bank 7": subchannel, bank, row and column line, before and after. -/
theorem test_locate : Dev.reset.locate 0x1_2345_6780 = ⟨2, 21, 9320, 39⟩ ∧
    ({ Dev.reset with buf.retired := 0x80 } : Dev).locate 0x1_2345_6780 = ⟨2, 11, 9621, 39⟩ := by decide

/-- 16_config_and_registers.md, "finding a register by its name": WRP_H3_S6_TRAIL2. -/
theorem test_trail_offset : rLead 3 6 5 = 0x40_31DC := by decide

/-- 14_fault_handling.md, "a bad pair from firmware": SPN_QUIET written without its complement at an act boundary. -/
theorem test_quiet_mismatch :
    let s := wd [(rCueStatus, 1)] fun d => { d with shadows := [(rSpnQuiet, 0x0BB8)], stagers := [(rSpnQuiet, 3)] }
    let t := match exec .actBoundary s with
      | .next t => t
      | _ => s
    t.dev.rd rSpnQuiet = 0xFFFF ∧ t.dev.cue.pending.map PendEvent.line = [30] ∧
      t.dev.flt.waiting.map (fun m => (m.engine, m.off, m.value, m.kept, m.writer)) = [(1, 0x60_001C, 0xBB8, 0xFFFF, 3)] := by
  decide

/-! ### Witnesses: for each clause of each statement, a state and operands that meet its hypotheses -/

/-- A CRC-12 that agrees with the lane's, and one that does not, whatever the lane's CRC-12 is. -/
theorem witness_multiblock_crc (x : List Byte) :
    (∃ crc, crc = Config.laneCrc x) ∧ ∃ crc, crc ≠ Config.laneCrc x :=
  ⟨⟨_, rfl⟩, Config.laneCrc x + 1, by bv_omega⟩

theorem crcBits_lt (n v reg : Nat) (h : reg < 2 ^ 64) : crcBits 64 0x42F0_E1EB_A9EA_3693 n v reg < 2 ^ 64 := by
  induction n generalizing reg with
  | zero => exact h
  | succ n ih =>
    refine ih _ ?_
    simp only [crcBit]
    split
    · exact Nat.xor_lt_two_pow (Nat.mod_lt _ (by decide)) (by decide)
    · exact Nat.mod_lt _ (by decide)

theorem crc64_lt (bs : List Byte) : crc64 bs < 2 ^ 64 := by
  refine Nat.xor_lt_two_pow ?_ (by decide)
  suffices h : ∀ r, r < 2 ^ 64 → bs.foldl (fun r b => crcBits 64 0x42F0_E1EB_A9EA_3693 8 b.toNat r) r < 2 ^ 64 from
    h _ (by decide)
  induction bs with
  | nil => exact fun r h => h
  | cons b bs ih => exact fun r h => ih _ (crcBits_lt _ _ _ h)

/-- Data with its CRC and tag, as a row held for LBA k. -/
def wPage (k : Nat) (data : List Byte) : Row :=
  { wHeld k false with body := ⟨data, BitVec.ofNat 64 (crc64 data), BitVec.ofNat 32 k, ~~~ BitVec.ofNat 32 k⟩ }

theorem wPage_good (k : Nat) (data : List Byte) : (wPage k data).body.good k = true := by
  have h := crc64_lt data
  simp only [wPage, Rec.good, BitVec.toNat_ofNat, Nat.mod_eq_of_lt h, BEq.rfl, Bool.and_true]

/-- A READ of LBAs 2 and 3, whose rows of one page each are held. -/
def wRead : Cmd := wCmd [(0, 1), (1, 0x10), (4, 5), (2, 8), (6, 1), (8, 2), (24, 2), (32, 0x1000), (40, 8192)]
def wReads (data : List Byte) : State := wHost [] [wRead] fun d => { d with hq.rows := [wPage 2 data, wPage 3 data] }

theorem wReads_ready : (wReads []).dev.mayRun wRead = true ∧ (wReads []).dev.nsFirst wRead.nsid + wRead.lba = 2 ∧
    (wReads []).dev.cue.used[3] + wRead.len * wRead.lbaBytes ≤ (wReads []).dev.fld (rBudget 3) 0 24 * 65536 := by decide

/-- The hypotheses of HostDataCommands' clause about READ are met. -/
theorem witness_HostDataCommands_read (data : List Byte) (h : data.length = 4096) :
    (wReads data).alone wRead (.ring 0) 5 0x10 ∧ wRead.nsid < 0x100 ∧ (wReads data).dev.mayRun wRead = true ∧
      (∀ k, k < wRead.len → (wReads data).dev.rowAt ((wReads data).dev.nsFirst wRead.nsid + (wRead.lba + k)) =
          some (wPage (2 + k) data) ∧ (wPage (2 + k) data).body.good (wRead.tagOf 0 + k) = true ∧
          (wPage (2 + k) data).body.data.length = 4096) ∧
      wRead.direct = true ∧ wRead.len * wRead.lbaBytes ≤ pDlen wRead.slot ∧ 0 < wRead.len ∧ wRead.offered = 0 ∧
      (wReads data).dev.cue.used[3] + wRead.len * wRead.lbaBytes ≤ (wReads data).dev.fld (rBudget 3) 0 24 * 65536 := by
  obtain ⟨hr, h0, hb⟩ := wReads_ready
  refine ⟨⟨rfl, by decide, by decide, by decide, by decide, by decide⟩, by decide, hr, ?_, by decide, by decide, by
    decide,
    by decide, hb⟩
  intro k hk
  have h2 : wRead.len = 2 := by decide
  have ht : wRead.tagOf 0 = 2 := by decide
  rw [ht]
  refine ⟨?_, wPage_good _ _, h⟩
  have hm : (wReads data).dev.nsFirst wRead.nsid + (wRead.lba + k) = 2 + k := by
    rw [← Nat.add_assoc]; exact congrArg (· + k) h0
  rw [hm]
  show [wPage 3 data, wPage 2 data].find? (fun r => r.mlba == 2 + k && !r.released) = _
  rcases (by omega : k = 0 ∨ k = 1) with rfl | rfl <;> simp [wPage, wHeld, wRow]
/-- The hypotheses of ModeRequestsAccepted are met. -/
theorem witness_ModeRequestsAccepted :
    (let s := ws [(rCalCtl, 8)]; s.dev.flag rPwrStat 8 = false ∧ s.dev.flag rTopMode 8 = false ∧
        s.dev.cue.fault = none ∧ s.dev.safeStopped = false ∧ s.dev.rehearsal = true ∧ s.dev.flag rCalCtl 3 = true) ∧
    (let s := ws [(rTopMode, 1)]; s.dev.flag rPwrStat 8 = false ∧ s.dev.flag rTopMode 8 = false ∧
        s.dev.cue.fault = none ∧ s.dev.safeStopped = false ∧ s.dev.performance = true) ∧
    (let s := ws [(rTopMode, 2)]; s.dev.flag rPwrStat 8 = false ∧ s.dev.flag rTopMode 8 = false ∧
        s.dev.cue.fault = none ∧ s.dev.safeStopped = false ∧ s.dev.ghostLight = true ∧ s.dev.spindleStopped = true) ∧
    (let s := ws [(rCueStatus, 1)]; s.dev.flag rPwrStat 8 = false ∧ s.dev.flag rTopMode 8 = false ∧
        s.dev.cue.fault = none ∧ s.dev.safeStopped = false ∧ s.dev.ghostLight = false) := by
  refine ⟨?_, ?_, ?_, ?_⟩ <;> decide

/-- The hypotheses of ModeRequestsRefused are met. -/
theorem witness_ModeRequestsRefused :
    (let s := ws [(rPwrStat, 0x100)]; s.dev.flag rPwrStat 8 = true) ∧
    (let s := wd [] fun d => { d with cue.fault := some { engine := 0, cause := 4, chain := 0xFF, slot := 0 } };
        s.dev.flag rPwrStat 8 = false ∧ s.dev.flag rTopMode 8 = false ∧ s.dev.cue.fault.isSome = true) ∧
    (let s := ws [(rTopMode, 0x100)]; s.dev.flag rPwrStat 8 = false ∧ s.dev.flag rTopMode 8 = true) ∧
    (let s := ws [(rTopMode, 1)]; s.dev.flag rPwrStat 8 = false ∧ s.dev.safeStopped = false ∧
        s.dev.flag rTopMode 8 = false ∧ s.dev.cue.fault = none ∧ s.dev.rehearsal = false) ∧
    (let s := State.reset; s.dev.flag rPwrStat 8 = false ∧ s.dev.safeStopped = false ∧ s.dev.flag rTopMode 8 = false ∧
        s.dev.cue.fault = none ∧ s.dev.rehearsal = true ∧ s.dev.flag rCalCtl 3 = false) ∧
    (let s := State.reset; s.dev.flag rPwrStat 8 = false ∧ s.dev.safeStopped = false ∧ s.dev.flag rTopMode 8 = false ∧
        s.dev.cue.fault = none ∧ s.dev.rehearsal = true) ∧
    (let s := ws [(rTopMode, 2), (rSpnStat, 2)]; s.dev.flag rPwrStat 8 = false ∧ s.dev.safeStopped = false ∧
        s.dev.flag rTopMode 8 = false ∧ s.dev.cue.fault = none ∧ s.dev.ghostLight = true ∧
        s.dev.spindleStopped = false) := by
  refine ⟨?_, ?_, ?_, ?_, ?_, ?_, ?_⟩ <;> decide

/-- The hypotheses of ModeChangesAtActBoundary are met. -/
theorem witness_ModeChangesAtActBoundary :
    (let s := wd [(rCueStatus, 1), (rTopMode, 0x100)] fun d => { d with cue.request := some 1 }; s.dev.atAct = true ∧
        s.dev.cue.fault = none ∧ s.dev.safeStopped = false ∧ s.dev.cue.request = some 1) ∧
    (let s := wd [(rCueStatus, 1), (rTopMode, 0x102)] fun d => { d with cue.request := some 2 }; s.dev.atAct = true ∧
        s.dev.cue.fault = none ∧ s.dev.safeStopped = false ∧ s.dev.cue.request = some 2 ∧ s.dev.ghostLight = true) ∧
    (let s := wd [(rCueStatus, 1), (rTopMode, 0x101)] fun d => { d with cue.request := some 2 }; s.dev.atAct = true ∧
        s.dev.cue.fault = none ∧ s.dev.safeStopped = false ∧ s.dev.cue.request = some 2 ∧ s.dev.ghostLight = false ∧
        s.dev.uncommitted = false ∧ s.dev.hq.cmds.any (·.started) = false) ∧
    (let s := State.reset; s.dev.cue.request = none) ∧
    (let s := wd [(rCueStatus, 1), (rTopMode, 0x100)] fun d => { d with cue.request := some 1, cue.beat := 1 };
        s.dev.atAct = false) := by
  refine ⟨?_, ?_, ?_, ?_, ?_⟩ <;> decide

/-- The hypotheses of QuietBeatAdvances are met. -/
theorem witness_QuietBeatAdvances :
    (let s := wd [(rCueStatus, 1)] fun d => { d with cue.beat := 0 }; s.dev.clockStands = false ∧
        s.dev.ghostLight = false ∧ s.dev.cue.fault = none ∧ s.dev.cue.running = [] ∧ s.dev.pwr.auto = 0 ∧
        s.dev.hq.cmds = [] ∧ (∀ r : RingId, s.dev.hq.rings[r].held = []) ∧
        (∀ h : Head, s.dev.heads[h].gateOff = false ∧ s.dev.heads[h].search = none) ∧
        (∀ x : Axis, s.dev.axState x ≠ 4 ∧ s.dev.axes[x].fade = none ∧ s.dev.axes[x].plan = []) ∧
        s.dev.cue.pending = []) ∧
    (let s := wd [(rCueStatus, 1)] fun d => { d with cue.beat := 1023 }; s.dev.clockStands = false ∧
        s.dev.ghostLight = false ∧ s.dev.cue.fault = none ∧ s.dev.cue.running = [] ∧ s.dev.pwr.auto = 0 ∧
        s.dev.hq.cmds = [] ∧ (∀ r : RingId, s.dev.hq.rings[r].held = []) ∧
        (∀ h : Head, s.dev.heads[h].gateOff = false ∧ s.dev.heads[h].search = none) ∧
        (∀ x : Axis, s.dev.axState x ≠ 4 ∧ s.dev.axes[x].fade = none ∧ s.dev.axes[x].plan = []) ∧
        s.dev.cue.pending = []) ∧
    (let s := wd [(rCueStatus, 1)] fun d => d.onHead 2 fun s => { s with wobble := { s.wobble with next := 123456, count := 1350000000 * 77, seen := true } };
        s.dev.clockStands = false ∧ s.dev.ghostLight = false ∧ s.dev.cue.fault = none ∧ s.dev.cue.running = [] ∧
        s.dev.pwr.auto = 0 ∧ s.dev.hq.cmds = [] ∧ (∀ r : RingId, s.dev.hq.rings[r].held = []) ∧
        (∀ h : Head, s.dev.heads[h].gateOff = false ∧ s.dev.heads[h].search = none) ∧
        (∀ x : Axis, s.dev.axState x ≠ 4 ∧ s.dev.axes[x].fade = none ∧ s.dev.axes[x].plan = []) ∧
        s.dev.cue.pending = []) ∧
    (let s := State.reset; s.dev.clockStands = true) := by
  refine ⟨?_, ?_, ?_, ?_⟩ <;> decide

/-- The hypotheses of PendingEventStartsItsChain are met. -/
theorem witness_PendingEventStartsItsChain :
    (let s := wChain fun d => { d with cue.pending := [wEv] }; s.dev.clockStands = false ∧ s.dev.ghostLight = false ∧
        s.dev.cue.fault = none ∧ s.dev.cue.running = [] ∧ s.dev.pwr.auto = 0 ∧ s.dev.hq.cmds = [] ∧
        (∀ r : RingId, s.dev.hq.rings[r].held = []) ∧ (∀ h : Head, s.dev.heads[h].gateOff = false ∧
        s.dev.heads[h].search = none) ∧ (∀ x : Axis, s.dev.axState x ≠ 4 ∧ s.dev.axes[x].fade = none ∧
        s.dev.axes[x].plan = []) ∧ s.dev.cue.pending = [wEv] ∧ s.dev.chainOf wEv.line = some wHdr) ∧
    (let s := wd [(rCueStatus, 1)] fun d => { d with cue.running := [wRun 100] }; s.dev.cue.running = [wRun 100] ∧
        100 ≤ (wRun 100).elapsed ∧ s.dev.cue.pending = []) ∧
    (let s := wd [(rCueStatus, 1)] fun d => { d with cue.running := [wRun 99] };
        (wRun 99).elapsed < (wRun 99).length ∧ s.dev.cue.running = [wRun 99]) := by
  refine ⟨?_, ?_, ?_⟩ <;> decide

/-- The hypotheses of StepRunsFrontCommand are met. -/
theorem witness_StepRunsFrontCommand :
    (let s := State.reset; s.pending = []) := by
  decide

/-- The hypotheses of MemoryFormHolds are met. -/
theorem witness_MemoryFormHolds :
    (let s := { wZone with pending := [.hotReset] }; s.mem.wf = true ∧ s.mem.sram ≠ [] ∧
        (match step s with | .next _ => true | _ => false) = true) := by
  decide

/-- The hypotheses of StoredCodewordReadsBack are met. -/
theorem witness_StoredCodewordReadsBack :
    (let s := [1, 2, 3, 4, 5, 6, 7, 255]; s.length = 8 ∧ ∀ x ∈ s, x < 256) := by
  decide

/-- The hypotheses of SingleSymbolErrorCorrected are met. -/
theorem witness_SingleSymbolErrorCorrected :
    (let s := [1, 2, 3, 4, 5, 6, 7, 255]; s.length = 8 ∧ (∀ x ∈ s, x < 256) ∧ (9 < 10 ∧ 0 < 255 ∧ 255 < 256)) := by
  decide

/-- The hypotheses of PrompterChecksClaims are met. -/
theorem witness_PrompterChecksClaims :
    (let s := ws [(rCueStatus, 1)]; s.dev.fabric = true ∧ s.dev.claimDone ⟨2, true, 5, none⟩ = true) ∧
    (let s := wd [(rCueStatus, 1)] fun d => { d with cue.beat := 7 }; s.dev.fabric = true ∧ s.dev.ghostLight = false ∧
        s.dev.cue.fault = none ∧ s.dev.wordOk 3 ⟨0x0000_0005_0000_0000, some 64⟩ = false) ∧
    (let s := ws [(rCueStatus, 1)]; s.dev.fabric = true ∧ s.dev.ghostLight = false ∧ s.dev.cue.fault = none ∧
        s.dev.claimDone ⟨2, false, 5, none⟩ = false) ∧
    (let s := State.reset; s.dev.flag (rCoreStat 1) 0 = false) ∧
    (let s := wd [(rCoreStat 1, 1), (rCoreCtl 1, 1)] fun d => { d with cue.halted := 0x200 };
        s.dev.engineHalted 9 = true) ∧
    (let s := ws [(rCoreStat 1, 1), (rCoreCtl 1, 1)]; s.dev.engineHalted 9 = false ∧
        s.dev.flag (rCoreStat 1) 0 = true ∧ s.dev.flag (rCoreCtl 1) 0 = true) ∧
    (let s := ws [(rCoreStat 1, 1), (rCoreCtl 1, 2)]; s.dev.engineHalted 9 = false ∧
        s.dev.flag (rCoreStat 1) 0 = true ∧ s.dev.flag (rCoreCtl 1) 0 = false) := by
  refine ⟨?_, ?_, ?_, ?_, ?_, ?_, ?_⟩ <;> decide

/-- The hypotheses of InjectedEventIsRaised are met. -/
theorem witness_InjectedEventIsRaised :
    (let s := ws [(rCueStatus, 1)]; 64 ≤ (64 : BitVec 8).toNat ∧ ¬ (s.dev.performance = true ∧
        s.dev.fld rLifecycle 0 2 = 1) ∧ s.dev.fabric = true ∧ s.dev.chainRuns 64 = false ∧ s.dev.cue.pending = []) ∧
    (let s := ws [(rCueStatus, 1)]; 64 ≤ (255 : BitVec 8).toNat ∧ ¬ (s.dev.performance = true ∧
        s.dev.fld rLifecycle 0 2 = 1) ∧ s.dev.fabric = true ∧ s.dev.chainRuns 255 = false ∧ s.dev.cue.pending = []) ∧
    (let s := wd [(rCueStatus, 1), (rSideCfg 0, 1)] fun d => { d.onSide 0 fun s => { s with mounted := true } with cue.banks := Vector.replicate 2 { CueImage.empty with injectable := BitVec.ofNat 256 (2 ^ 64 - 1) } };
        1 ≤ (13 : BitVec 8).toNat ∧ s.dev.image.injectable.getLsbD 13 = true ∧ s.dev.performance = false ∧
        s.dev.verified 0 = true) ∧
    (let s := wd [(rCueStatus, 1)] fun d => { d with cue.banks := Vector.replicate 2 { CueImage.empty with injectable := BitVec.ofNat 256 (2 ^ 64 - 1) }, hq.entries := [(.ring 0, 0), (.ring 1, 0)] };
        1 ≤ (32 : BitVec 8).toNat ∧ s.dev.image.injectable.getLsbD 32 = true ∧ s.dev.performance = false) ∧
    (let s := wd [(rCueStatus, 1)] fun d => { d with cue.banks := Vector.replicate 2 { CueImage.empty with injectable := BitVec.ofNat 256 (2 ^ 64 - 1) } };
        1 ≤ (34 : BitVec 8).toNat ∧ s.dev.image.injectable.getLsbD 34 = true ∧ s.dev.performance = false ∧
        s.dev.hq.curtain = none) ∧
    (let s := wd [(rCueStatus, 1)] fun d => { d with cue.banks := Vector.replicate 2 { CueImage.empty with injectable := BitVec.ofNat 256 (2 ^ 64 - 1) } };
        1 ≤ (7 : BitVec 8).toNat ∧ s.dev.image.injectable.getLsbD 7 = true ∧ s.dev.performance = false) ∧
    (let s := State.reset; ¬ (64 ≤ (63 : BitVec 8).toNat ∨ (1 ≤ (63 : BitVec 8).toNat ∧
        s.dev.image.injectable.getLsbD 63 = true))) ∧
    (let s := ws [(rTopMode, 1), (rLifecycle, 1)]; s.dev.performance = true ∧ s.dev.fld rLifecycle 0 2 = 1) := by
  refine ⟨?_, ?_, ?_, ?_, ?_, ?_, ?_, ?_⟩ <;> decide

/-- The hypotheses of CueOwnedWriteCounted are met. -/
theorem witness_CueOwnedWriteCounted :
    (let s := State.reset; ((regRow wOwned.toNat).map RegRow.cls) = some .cueOwned ∧ s.dev.cue.ownedEntry = false ∧
        s.dev.boardTwin 0x0101 0x0C = none) ∧
    (let s := wd [] fun d => { d with cue.ownedEntry := true }; s.dev.cue.ownedEntry = true) := by
  refine ⟨?_, ?_⟩ <;> decide

/-- The hypotheses of BankSwapAndGhostPhases are met. -/
theorem witness_BankSwapAndGhostPhases :
    (let s := wd [(rCueStatus, 1)] fun d => { d with cue.swap := some (CueImage.empty, 1) };
        s.dev.cue.swap = some (CueImage.empty, 1) ∧ s.dev.atAct = true ∧ s.dev.hq.activate = none ∧
        CueImage.empty.ranges = []) ∧
    (let s := wd [(rTopMode, 2)] fun d => { d.onHead 1 fun s => { s with lanes := true } with cue.glBeat := d.image.glRamp + 2 };
        s.dev.ghostLight = true ∧ s.dev.fld rCueStatus 4 2 = 0 ∧ s.dev.image.glRamp + 2 ≤ s.dev.cue.glBeat ∧
        s.dev.heads[(1 : Head)].lanes = true) ∧
    (let s := wd [(rTopMode, 2)] fun d => { d with cue.glBeat := d.image.glRamp + 1 }; s.dev.ghostLight = true ∧
        s.dev.fld rCueStatus 4 2 = 0 ∧ s.dev.cue.glBeat < s.dev.image.glRamp + 2) ∧
    (let s := wd [(rTopMode, 2), (rCueStatus, 0x10)] fun d => { d with axes := (List.finRange 8).foldl (fun v x => vmod v x fun a => { a with park := 2 }) d.axes };
        s.dev.ghostLight = true ∧ s.dev.fld rCueStatus 4 2 = 1 ∧ s.dev.sledsParked = true) ∧
    (let s := wd [(rTopMode, 2), (rCueStatus, 0x20)] fun d => d; s.dev.ghostLight = true ∧
        s.dev.fld rCueStatus 4 2 = 2 ∧ s.dev.spindleStopped = true) ∧
    (let s := wd [(rTopMode, 2), (rCueStatus, 0x20), (rSpnStat, 2)] fun d => d; s.dev.ghostLight = true ∧
        s.dev.fld rCueStatus 4 2 = 2 ∧ s.dev.spindleStopped = false) ∧
    (let s := ws [(rTopMode, 2), (rCueStatus, 0x10)]; s.dev.ghostLight = true ∧ s.dev.fld rCueStatus 4 2 = 1 ∧
        s.dev.sledsParked = false) ∧
    (let s := ws [(rTopMode, 2), (rCueStatus, 0x30)]; s.dev.fld rCueStatus 4 2 = 3) ∧
    (let s := State.reset; s.dev.ghostLight = false) ∧
    (let s := State.reset; s.dev.cue.swap = none) ∧
    (let s := wd [(rCueStatus, 1)] fun d => { d with cue.swap := some (CueImage.empty, 1), hq.cmds := [wCmd []], hq.activate := some (wCmd []).order };
        s.dev.cue.swap = some (CueImage.empty, 1) ∧ s.dev.atAct = true ∧ s.dev.hq.cmds = [wCmd []] ∧
        s.dev.hq.activate = some (wCmd []).order) := by
  refine ⟨?_, ?_, ?_, ?_, ?_, ?_, ?_, ?_, ?_, ?_, ?_⟩ <;> decide

/-- The hypotheses of RegisterWriteByClass are met. -/
theorem witness_RegisterWriteByClass :
    (let s := ws [(0x204, 0x1)]; (regRow 0x204).isSome = true ∧
        ((((s.ownLow .host 0x204 0xFFFF_FFFF).or (s.ownMem 0x204 0xFFFF_FFFF)).or (s.ownLink 0x204 0xFFFF_FFFF)).or (s.ownDrive .host 0x204 0xFFFF_FFFF)).isNone = true ∧
        (∀ ch, s.dev.dmaBusy ch = false)) ∧
    (let s := State.reset; (regRow 0x20C).map RegRow.cls = some .staged ∧
        ((((s.ownLow .host 0x20C 0xFFFF_FFFF).or (s.ownMem 0x20C 0xFFFF_FFFF)).or (s.ownLink 0x20C 0xFFFF_FFFF)).or (s.ownDrive .host 0x20C 0xFFFF_FFFF)).isNone = true ∧
        (∀ ch, s.dev.dmaBusy ch = false)) ∧
    (let s := ws [(0x204, 0x1)]; (regRow 0x204).isSome = true ∧ fabricRank .jtag < fabricRank (.core 1) ∧
        ((((s.ownLow .host 0x204 0xFFFF_FFFF).or (s.ownMem 0x204 0xFFFF_FFFF)).or (s.ownLink 0x204 0xFFFF_FFFF)).or (s.ownDrive .host 0x204 0xFFFF_FFFF)).isNone = true ∧
        (∀ ch, s.dev.dmaBusy ch = false)) ∧
    (let s := [(⟨.core 1, 0x204, 0xF, 9⟩ : RegWrite), ⟨.jtag, 0x204, 0xF, 7⟩]; (s.map fun x => fabricRank x.m).Nodup ∧
        s.Perm s.reverse) := by
  refine ⟨?_, ?_, ?_, ?_⟩ <;> decide

/-- The hypotheses of NarrowWriteDiscarded are met. -/
theorem witness_NarrowWriteDiscarded :
    (let s := State.reset; (regRow 0x204).isSome = true ∧ (0x7 : BitVec 4) ≠ 0xF ∧ (∀ ch, s.dev.dmaBusy ch = false) ∧
        s.dev.boardTwin 0x0161 0x18 = none) := by
  decide

/-- The hypotheses of ReadsClearAndLatch are met. -/
theorem witness_ReadsClearAndLatch :
    (let s := ws [(0x204, 0x5)]; (regRow 0x204).isSome = true ∧ (s.popPort 0x204).isNone = true ∧
        (s.coreStatRead 0x204 5).1 = s ∧ sfind s.dev.top.latches (latchKey .host 0x204) = none ∧
        latchPartners 0x204 = []) ∧
    (let s := wd [] fun d => { d with cue.act := 2 ^ 32 + 3 };
        sfind s.dev.top.latches (latchKey .host 0x10_0008) = none ∧ s.dev.cue.act < 2 ^ 64) := by
  refine ⟨?_, ?_⟩ <;> decide

/-- The hypotheses of ScratchSramAccess are met. -/
theorem witness_ScratchSramAccess :
    (let s := State.reset; 0xF_FFFF < 2 ^ 20 ∧ ([1, 2, 3, 4, 5, 6, 7, 8] : List Byte).length = 8 ∧
        (∀ ch, s.dev.dmaBusy ch = false)) ∧
    (let s := State.reset; rsDecode8 (symbolsAt s.mem.sram 0) = .clean (List.replicate 8 0)) := by
  refine ⟨?_, ?_⟩ <;> decide

/-- The hypotheses of UnmappedAccessAnswered are met. -/
theorem witness_UnmappedAccessAnswered :
    (¬ ((0x400_0000 : Addr).toNat + 4 ≤ 0x400_0000) ∧ ¬ (0x40_0000_0000 ≤ (0x400_0000 : Addr).toNat)) ∧
    (let s := State.reset; 0x900_0000 ≤ (0x900_0000 : Addr).toNat ∧ (0x900_0000 : Addr).toNat < 0x20_0000_0000 ∧
        s.dev.boardTwin 0x0100 0x17 = none ∧ (∀ ch, s.dev.dmaBusy ch = false)) ∧
    (let s := State.reset; 0x900_0000 ≤ (0x1F_FFFF_FFFF : Addr).toNat ∧
        (0x1F_FFFF_FFFF : Addr).toNat < 0x20_0000_0000 ∧ s.dev.boardTwin 0x0100 0x17 = none ∧
        (∀ ch, s.dev.dmaBusy ch = false)) ∧
    (let s := State.reset; ((0x120_0000 ≤ (0x280_0000 : Addr).toNat ∧
        (0x280_0000 : Addr).toNat < 0x200_0000) ∨ 0x280_0000 ≤ (0x280_0000 : Addr).toNat) ∧
        (0x280_0000 : Addr).toNat + 4 ≤ 0x400_0000 ∧ s.dev.boardTwin 0x0100 0x17 = none ∧
        (∀ ch, s.dev.dmaBusy ch = false)) ∧
    (let s := State.reset; ((0x120_0000 ≤ (0x3FF_FFFC : Addr).toNat ∧
        (0x3FF_FFFC : Addr).toNat < 0x200_0000) ∨ 0x280_0000 ≤ (0x3FF_FFFC : Addr).toNat) ∧
        (0x3FF_FFFC : Addr).toNat + 4 ≤ 0x400_0000 ∧ s.dev.boardTwin 0x0100 0x17 = none ∧
        (∀ ch, s.dev.dmaBusy ch = false)) ∧
    (let s := State.reset; ((0x120_0000 ≤ (0x120_0000 : Addr).toNat ∧
        (0x120_0000 : Addr).toNat < 0x200_0000) ∨ 0x280_0000 ≤ (0x120_0000 : Addr).toNat) ∧
        (0x120_0000 : Addr).toNat + 4 ≤ 0x400_0000 ∧ s.dev.boardTwin 0x0100 0x17 = none ∧
        (∀ ch, s.dev.dmaBusy ch = false)) := by
  refine ⟨?_, ?_, ?_, ?_, ?_, ?_⟩ <;> decide

/-- The hypotheses of StagedAppliedAtActBoundary are met. -/
theorem witness_StagedAppliedAtActBoundary :
    (let s := wd [] fun d => { d with shadows := [(0x20C, 0x1234)] }; s.dev.shadows = [(0x20C, 0x1234)] ∧
        setOf 0x20C = 0x20C ∧ s.dev.inRanges 0x20C (s.dev.proposed 0x20C 0x1234) = true ∧
        s.dev.hwAllows 0x20C (s.dev.proposed 0x20C 0x1234) = true ∧ pairOwner 0x20C = none ∧ budgetOf 0x20C = none) ∧
    (let s := wd [] fun d => { d with shadows := [(rBudget 1, 513)] }; s.dev.shadows = [(rBudget 1, 513)] ∧
        setOf (rBudget 1) = rBudget 1 ∧ s.dev.inRanges (rBudget 1) (s.dev.proposed (rBudget 1) 513) = true ∧
        s.dev.hwAllows (rBudget 1) (s.dev.proposed (rBudget 1) 513) = true ∧ pairOwner (rBudget 1) = none ∧
        budgetOf (rBudget 1) = some 1 ∧ s.dev.image.budgets.getD 1 0 < fget (s.dev.proposed (rBudget 1) 513) 0 24) ∧
    (let s := wd [] fun d => { d with shadows := [(rBudget 1, 512)] }; budgetOf (rBudget 1) = some 1 ∧
        s.dev.inRanges (rBudget 1) (s.dev.proposed (rBudget 1) 512) = true ∧
        s.dev.hwAllows (rBudget 1) (s.dev.proposed (rBudget 1) 512) = true ∧
        fget (s.dev.proposed (rBudget 1) 512) 0 24 ≤ s.dev.image.budgets.getD 1 0) ∧
    (let s := wd [] fun d => { d with shadows := [(0x20C, 9)], cue.banks := Vector.replicate 2 { CueImage.empty with ranges := [(0x20C, 0, 8)] } };
        s.dev.inRanges 0x20C (s.dev.proposed 0x20C 9) = false ∧ 0x20C ≠ rParamReject) := by
  refine ⟨?_, ?_, ?_, ?_⟩ <;> decide

/-- The hypotheses of ActBoundaryRuns are met. -/
theorem witness_ActBoundaryRuns :
    (let s := ws [(rCueStatus, 1)]; s.dev.atAct = true ∧ s.dev.cue.actDone = false ∧ s.dev.clockStands = false ∧
        (∀ ch, s.dev.dmaBusy ch = false)) ∧
    (let s := wd [(rCueStatus, 1)] fun d => { d with cue.actDone := true }; s.dev.cue.actDone = true) := by
  refine ⟨?_, ?_⟩ <;> decide

/-- The hypotheses of OffsetWithoutRegister are met. -/
theorem witness_OffsetWithoutRegister :
    (regRow 0xC = none) ∧
    (let s := State.reset; regRow 0xC = none ∧ (∀ ch, s.dev.dmaBusy ch = false)) := by
  refine ⟨?_, ?_⟩ <;> decide

/-- The hypotheses of BufferUpkeep are met. -/
theorem witness_BufferUpkeep :
    (let s := State.reset; s.mem.merge = []) ∧
    (let s := wMem [(rBufStat, 8)] fun m => { m with merge := [{ line := 3, bytes := (List.range 8).map fun i => (Fin.ofNat 64 (16 + i), BitVec.ofNat 8 (i + 1), 0) }] };
        s.mem.merge.length = 1 ∧
        (∀ i < 8, (({ line := 3, bytes := (List.range 8).map fun i => (Fin.ofNat 64 (16 + i), BitVec.ofNat 8 (i + 1), 0) } : MergeEntry).bytes.find? fun n => n.1.val / 8 == 2 && n.1.val % 8 == i).map (·.2.1) = ([1, 2, 3, 4, 5, 6, 7, 8] : List Byte)[i]?) ∧
        (({ line := 3, bytes := (List.range 8).map fun i => (Fin.ofNat 64 (16 + i), BitVec.ofNat 8 (i + 1), 0) } : MergeEntry).bytes.filter fun n => n.1.val / 8 == 2).length = 8) ∧
    (let s := ws [(rBufStat, 8), (rCueStatus, 1), (rScrubCfg, 1), (rScrubPos, 7)]; s.dev.fld rScrubCfg 0 16 ≠ 0 ∧
        s.dev.flag rBufStat 2 = false ∧ s.dev.flag rBufStat 3 = true ∧ s.dev.fabric = true ∧
        s.dev.pageRetired (s.dev.fld rScrubPos 0 31 * 64) = false ∧ s.mem.merge = [] ∧
        (∀ w : Fin 8, rsDecode8 (symbolsAt s.mem.dram (s.dev.dramKey (s.dev.fld rScrubPos 0 31 * 64 + 8 * w.val))) = .clean (List.replicate 8 0))) ∧
    (let s := ws [(rBufStat, 8), (rCueStatus, 1), (rScrubCfg, 1), (rScrubPos, 0x1FFF_FFFF)];
        s.dev.fld rScrubCfg 0 16 ≠ 0 ∧ s.dev.flag rBufStat 2 = false ∧ s.dev.flag rBufStat 3 = true ∧
        s.dev.fabric = true ∧ s.dev.pageRetired (s.dev.fld rScrubPos 0 31 * 64) = false ∧ s.mem.merge = [] ∧
        (∀ w : Fin 8, rsDecode8 (symbolsAt s.mem.dram (s.dev.dramKey (s.dev.fld rScrubPos 0 31 * 64 + 8 * w.val))) = .clean (List.replicate 8 0)) ∧
        s.dev.mappedBytes / 64 = 0x2000_0000) ∧
    (let s := wd [] fun d => { d with buf.sramPos := 1048575 }; s.dev.buf.sramPos < 1048576 ∧
        rsDecode8 (symbolsAt s.mem.sram (s.dev.buf.sramPos * 10)) = .clean (List.replicate 8 0)) ∧
    (let s := wMem [] fun m => { m with sram := [(3, 5)] };
        (match rsDecode8 (symbolsAt s.mem.sram (s.dev.buf.sramPos * 10)) with | .corrected b i _ _ => b == List.replicate 8 0 && i == 3 | _ => false) = true) := by
  refine ⟨?_, ?_, ?_, ?_, ?_, ?_⟩ <;> decide

/-- The hypotheses of RetirementSteps are met. -/
theorem witness_RetirementSteps :
    (let s := ws [(rBufStat, 8)]; s.dev.flag rRetireStat 16 = false ∧ s.dev.buf.pages = [] ∧
        65536 * 0x7FFFF < s.dev.mappedBytes ∧ s.dev.fwPage 0x7FFFF = false) ∧
    (let s := wd [(rBufStat, 8)] fun d => { d with buf.pages := [(5, false)] }; (5, false) ∈ s.dev.buf.pages) ∧
    (let s := ws [(rTopMode, 1)]; s.dev.flag rRetireStat 16 = false ∧ s.dev.rehearsal = false) ∧
    (let s := ws [(rBufStat, 8)]; s.dev.rehearsal = true ∧ s.dev.bufferHeld = false ∧ 28 < s.dev.nb ∧
        s.dev.buf.retired.getLsbD 31 = false ∧ (∀ k : Fin 4, s.mem.waits[k] = [])) ∧
    (let s := wMem [(rBufStat, 4)] fun m => { m with dram := [(1, 1)], sram := [(2, 2)] };
        s.dev.flag rBufStat 2 = true ∧ s.dev.buf.retiring = none) ∧
    (let s := wd [(rBufStat, 4)] fun d => { d with buf.retiring := some 3 }; s.dev.flag rBufStat 2 = true ∧
        s.dev.buf.retiring ≠ none) ∧
    (let s := wd [(rBufStat, 0), (rRetireStat, 0x1_0000)] fun d => { d with buf.retiring := some 3 };
        s.dev.buf.retiring = some 3 ∧ s.dev.flag rBufStat 2 = false) := by
  refine ⟨?_, ?_, ?_, ?_, ?_, ?_, ?_⟩ <;> decide

/-- The hypotheses of StageCacheCommands are met. -/
theorem witness_StageCacheCommands :
    (let s := wMem [(rBufStat, 8), (rScStat, 1)] fun m => { m with fills := m.fills.set 2 (some ⟨2, 0, true⟩) };
        s.mem.fills[(2 : Fin 4)] = some ⟨2, 0, true⟩ ∧ s.mem.waits[(2 : Fin 4)] = [] ∧ s.mem.way (2 * 64) = none ∧
        (s.bufRead (2 * 64) 64 0).2 = some (List.replicate 64 0)) ∧
    (let s := ws [(rTopMode, 1), (rScStat, 1)]; s.dev.flag rScMaintStat 0 = false ∧ fget 8 3 2 = 1 ∧
        s.dev.performance = true) ∧
    (let s := ws [(rScStat, 1)]; s.dev.flag rScMaintStat 0 = false ∧ fget 0x1E_0030 3 2 = 2 ∧
        s.dev.performance = false ∧ s.dev.scState = 1) ∧
    (let s := State.reset; s.dev.flag rScMaintStat 0 = false) ∧
    (let s := ws [(rScStat, 1), (rBufStat, 8), (rScMaintHi, 0x20), (rScMaintLo, 0x40)];
        s.dev.flag rScMaintStat 0 = false ∧ fget 0 3 2 = 0 ∧ s.dev.scState = 1 ∧ s.dev.flag rBufStat 3 = true ∧
        64 < s.dev.mappedBytes ∧
        (s.dev.rd rScMaintLo).toNat + s.dev.fld rScMaintHi 0 16 * 2 ^ 32 = 0x20_0000_0000 + 64) ∧
    (let s := wMem [(rScStat, 1), (rScMaintStat, 1)] fun m => { m with maint := some ⟨2, 2, 0, 0, 0⟩, lines := [(0, { tag := 0, dirty := false, data := List.replicate 64 0, presence := 0 })] };
        s.mem.maint = some ⟨2, 2, 0, 0, 0⟩ ∧ (∀ b : Fin 4, s.mem.fills[b] = none)) ∧
    (let s := ws [(rScStat, 1)]; s.dev.scState = 1) ∧
    (let s := wMem [(rScStat, 2)] fun m => { m with lines := [(0, { tag := 0, dirty := false, data := List.replicate 64 0, presence := 0 })] };
        s.dev.scState = 2 ∧ s.mem.maint = none ∧ (∀ b : Fin 4, s.mem.fills[b] = none) ∧
        (∀ l ∈ s.mem.lines, l.2.dirty = false) ∧ rising 0 s.mem.lines = true) ∧
    (let s := State.reset; s.dev.scState = 0) ∧
    (let s := ws [(rScStat, 2)]; s.dev.scState = 2) := by
  refine ⟨?_, ?_, ?_, ?_, ?_, ?_, ?_, ?_, ?_, ?_⟩ <;> decide

/-- The hypotheses of DmaChannelRuns are met. -/
theorem witness_DmaChannelRuns :
    (let s := ws [(rDma 3 + 4, 0x8000), (rDma 3 + 8, 0x800_0000), (rDma 3 + 0x10, 64)];
        (∀ k, s.dev.dmaBusy k = false) ∧ (let d : Dev := s.dev.wr (rDmaCtl 3) (0x4C8 &&& 0xFF_FFFC);
        let n := (d.rd (rDma 3 + 0x10)).toNat; n ≠ 0 ∧ d.dmaBadConfig 3 = false ∧ d.dmaSrc 3 % d.esize 3 = 0 ∧
        d.dmaDst 3 % d.esize 3 = 0 ∧ n % d.esize 3 = 0 ∧ d.dmaReq 3 ≠ 0) ∧ s.dev.flag (rDmaStat 3) 8 = false) ∧
    (let s := wd [(rDma 3 + 4, 0x8000), (rDma 3 + 8, 0x800_0000), (rDma 3 + 0x10, 128)] fun d => { d with pcie.busMaster := true };
        (∀ k, s.dev.dmaBusy k = false) ∧ (let d : Dev := s.dev.wr (rDmaCtl 3) (0xC8 &&& 0xFF_FFFC);
        let n := (d.rd (rDma 3 + 0x10)).toNat; n ≠ 0 ∧ d.dmaBadConfig 3 = false ∧ d.dmaSrc 3 % d.esize 3 = 0 ∧
        d.dmaDst 3 % d.esize 3 = 0 ∧ n % d.esize 3 = 0 ∧ d.dmaReq 3 = 0 ∧ inHost (d.dmaSrc 3) = true ∧
        d.flag (rDmaCtl 3) 6 = true) ∧ s.dev.flag (rDmaStat 3) 8 = false ∧ 64 ≤ s.dev.budgetLeft 2 ∧
        s.dev.pcie.busMaster = true) ∧
    (let s := wd [(rDmaStat 3, 1), (rDmaCtl 3, 0xE48)] fun d => { d with spn.adcPass := true, dma := vmod d.dma 3 fun _ => { left := 5, src := 2 ^ 47, dst := 0x800_0000, inFlight := 0, failing := none, linking := false, stopAt := 0, far := [], asked := 0, linkAt := 0, burst := 0 } };
        s.dev.pacedWait 3 = true ∧ s.dev.dma[(3 : Chan)].failing = none ∧ s.dev.lineAsserted 3 = true) ∧
    (let s := wd [(rDmaStat 3, 1)] fun d => { d with cue.beat := 0, dma := vmod d.dma 3 fun _ => { left := 0, src := 0, dst := 0, inFlight := 8, failing := none, linking := false, stopAt := 0, far := [], asked := 0, linkAt := 0, burst := 0 } };
        s.dev.dmaBusy 3 = true ∧ (∀ k, k ≠ 3 → s.dev.dmaBusy k = false) ∧ s.dev.dma[(3 : Chan)].left = 0 ∧
        s.dev.dma[(3 : Chan)].inFlight = 8 ∧ s.dev.dma[(3 : Chan)].failing = none ∧
        s.dev.dma[(3 : Chan)].linking = false ∧ s.dev.dmaLinks 3 = false ∧ s.dev.moved 3 + 8 < 2 ^ 64) ∧
    (let s := wd [(rDmaStat 3, 1)] fun d => { d with cue.beat := 0, dma := vmod d.dma 3 fun _ => { left := 4, src := 0, dst := 0, inFlight := 0, failing := none, linking := false, stopAt := 0, far := [], asked := 0, linkAt := 0, burst := 0 } };
        s.dev.dmaBusy 3 = true ∧ s.dev.dma[(3 : Chan)].inFlight = 0 ∧ s.dev.dma[(3 : Chan)].failing = none) ∧
    (let s := wd [(rDmaStat 3, 0x801)] fun d => { d with cue.beat := 50, dma := vmod d.dma 3 fun _ => { left := 0, src := 0, dst := 0, inFlight := 0, failing := none, linking := true, stopAt := 0, far := [], asked := 40, linkAt := 0, burst := 0 } };
        s.dev.dmaBusy 3 = true ∧ s.dev.dma[(3 : Chan)].inFlight = 0 ∧ s.dev.dma[(3 : Chan)].failing = none ∧
        s.dev.linkLate 3 = false) ∧
    (let s := wd [(rDmaStat 3, 0x801)] fun d => { d with cue.beat := 51, dma := vmod d.dma 3 fun _ => { left := 0, src := 0, dst := 0, inFlight := 0, failing := none, linking := true, stopAt := 0, far := [], asked := 40, linkAt := 0, burst := 0 } };
        s.dev.dmaBusy 3 = true ∧ s.dev.dma[(3 : Chan)].inFlight = 0 ∧ s.dev.dma[(3 : Chan)].failing = none ∧
        s.dev.linkLate 3 = true) ∧
    (let s := wd [(rDmaStat 3, 0x801), (rDma 3 + 0x20, 0x8000)] fun d => { d with pcie.busMaster := true, dma := vmod d.dma 3 fun _ => { left := 0, src := 0, dst := 0, inFlight := 0, failing := none, linking := true, stopAt := 0, far := [], asked := 40, linkAt := 0, burst := 0 } };
        s.dev.dmaBusy 3 = true ∧ s.dev.dma[(3 : Chan)].linking = true ∧ inHost (s.dev.dmaLink 3) = true ∧
        s.dev.pcie.busMaster = true) := by
  refine ⟨?_, ?_, ?_, ?_, ?_, ?_, ?_, ?_⟩ <;> decide

/-- The hypotheses of WobbleAddressFollowed are met. -/
theorem witness_WobbleAddressFollowed :
    (let s := wd [] fun d => d.onHead 0 fun h => { h with wobble := { h.wobble with seen := true, next := 7, count := 3 } };
        s.dev.decodesWobble 0 = false) ∧
    (let s := wd [(rWstat 0, 0x200), (rSrvStat 0, 2)] fun d => d.onHead 0 fun h => { h with trackClosed := true, wobble := { h.wobble with seen := true, next := 7, discards := 2 } };
        s.dev.decodesWobble 0 = true ∧ symbolAt (wSym syncSymbol wWord) 0 = syncSymbol ∧
        addressValid (addressBits (wSym syncSymbol wWord) s.dev.fresh) = true ∧
        s.dev.heads[(0 : Head)].wobble.seen = true ∧
        s.dev.heads[(0 : Head)].wobble.next = (addressBits (wSym syncSymbol wWord) s.dev.fresh).toNat / 2 ^ 21 % 2 ^ 22) ∧
    (let s := wd [(rWstat 0, 0x200), (rSrvStat 0, 2)] fun d => d.onHead 0 fun h => { h with trackClosed := true, wobble := { h.wobble with seen := true, next := 100, odd := some 7 } };
        s.dev.decodesWobble 0 = true ∧ symbolAt (wSym syncSymbol wWord) 0 = syncSymbol ∧
        addressValid (addressBits (wSym syncSymbol wWord) s.dev.fresh) = true ∧
        s.dev.heads[(0 : Head)].wobble.seen = true ∧
        s.dev.heads[(0 : Head)].wobble.next ≠ (addressBits (wSym syncSymbol wWord) s.dev.fresh).toNat / 2 ^ 21 % 2 ^ 22 ∧
        s.dev.heads[(0 : Head)].wobble.odd = some ((addressBits (wSym syncSymbol wWord) s.dev.fresh).toNat / 2 ^ 21 % 2 ^ 22) ∧
        s.dev.boardTwin 0x0123 0x02 = none) ∧
    (let s := wd [(rWstat 0, 0xFF), (rSrvStat 0, 2)] fun d => d.onHead 0 fun h => { h with trackClosed := true, wobble := { h.wobble with seen := true, next := 7, discards := 2 } };
        s.dev.decodesWobble 0 = true ∧ symbolAt (wSym 0 wWord) 0 ≠ syncSymbol) ∧
    (let s := wd [(rWstat 0, 0xFF), (rSrvStat 0, 2)] fun d => d.onHead 0 fun h => { h with trackClosed := true, wobble := { h.wobble with seen := true, next := 7, discards := 2 } };
        s.dev.decodesWobble 0 = true ∧ addressValid (addressBits (wSym syncSymbol (wWord ^^^ 1)) s.dev.fresh) = false) ∧
    (let s := wd [(rWstat 0, 0)] fun d => d.onHead 0 fun h => { h with wobble := { h.wobble with discards := 4 } };
        4 ≤ s.dev.heads[(0 : Head)].wobble.discards ∧ s.dev.flag (rWstat 0) 9 = false) ∧
    (let s := wd [(rWstat 0, 0)] fun d => d.onHead 0 fun h => { h with wobble := { h.wobble with discards := 3 } };
        s.dev.heads[(0 : Head)].wobble.discards < 4) ∧
    (let s := ws [(rSrvStat 3, 0xC)]; (1 : Fin 8) ≠ 0 ∧ s.dev.flag (rSrvStat 3) 2 = true) ∧
    (let s := ws [(rSrvStat 3, 0xC)]; (7 : Fin 8) ≠ 0 ∧ s.dev.flag (rSrvStat 3) 2 = true) ∧
    (slipOver (List.replicate 7 (List.replicate 8 1)) = none) ∧
    (slipOver (List.replicate 8 (List.replicate 8 0)) = none) ∧
    (slipOver (List.replicate 8 [1, 1, 1, 1, 1, 1, 1, 2]) = none) := by
  refine ⟨?_, ?_, ?_, ?_, ?_, ?_, ?_, ?_, ?_, ?_, ?_, ?_⟩ <;> decide

/-- The hypotheses of LanesAndDefects are met. -/
theorem witness_LanesAndDefects :
    (let s := wd [(rSrvStat 0, 7)] fun d => d.onHead 0 fun h => { h with crcRun := h.crcRun.set 2 8, recover := [wJob] };
        8 ≤ s.dev.heads[(0 : Head)].crcRun[2]) ∧
    (LaneCause.alignment ≠ .crc) ∧
    (let s := wd [(rSrvStat 0, 7)] fun d => d.onHead 0 fun h => { h with crcRun := h.crcRun.set 2 7 };
        s.dev.heads[(0 : Head)].crcRun[2] < 8) ∧
    (let s := wd [] fun d => d.onSpot 1 7 fun x => { x with chan := { x.chan with pos := 100, runs := x.chan.runs.set 0 40 } };
        s.dev.flag (rSpotStat 1 7) 3 = false ∧ 32 ≤ (s.dev.chan 1 7).runs[0]) ∧
    (let s := wd [] fun d => d.onSpot 1 7 fun x => { x with chan := { x.chan with pos := 100, runs := x.chan.runs.set 4 40 } };
        s.dev.flag (rSpotStat 1 7) 3 = false ∧ 32 ≤ (s.dev.chan 1 7).runs[4]) ∧
    (let s := wd [] fun d => d.onSpot 1 7 fun x => { x with chan := { x.chan with pos := 100, runs := x.chan.runs.set 0 31 } };
        (s.dev.chan 1 7).runs[0] < 32) ∧
    (let s := wd [(rSpotStat 1 7, 0x18)] fun d => d.onSpot 1 7 fun x => { x with span := some (90, true), chan := { x.chan with pos := 200, clear := 64 } };
        s.dev.heads[(1 : Head)].spots[(7 : Spot)].span = some (90, true) ∧ 64 ≤ (s.dev.chan 1 7).clear ∧
        decide (s.dev.fld (rDefCfg 1) 24 8 * 256 < (((200 : Int) - 64 - 1 + s.dev.fld (rDefCfg 1) 16 8) - (90) + 1).toNat) = false) ∧
    (let s := wd [(rSpotStat 1 7, 0x18)] fun d => d.onSpot 1 7 fun x => { x with span := some (-200000, true), chan := { x.chan with pos := 200, clear := 64 } };
        s.dev.heads[(1 : Head)].spots[(7 : Spot)].span = some (-200000, true) ∧ 64 ≤ (s.dev.chan 1 7).clear ∧
        decide (s.dev.fld (rDefCfg 1) 24 8 * 256 < (((200 : Int) - 64 - 1 + s.dev.fld (rDefCfg 1) 16 8) - (-200000) + 1).toNat) = true) ∧
    (let s := wd [(rSpotStat 1 7, 0x18)] fun d => d.onSpot 1 7 fun x => { x with span := some (0, true), chan := { x.chan with pos := 200, clear := 63 } };
        s.dev.heads[(1 : Head)].spots[(7 : Spot)].span = some (0, true) ∧ (s.dev.chan 1 7).clear < 64) ∧
    (let s := wZone.onDev fun d => d.onSpot 0 0 fun x => { x with load := some .acquisition, chan := { x.chan with pos := 640 } };
        s.dev.heads[(0 : Head)].spots[(0 : Spot)].load = some .acquisition ∧ (s.dev.chan 0 0).atSync = true ∧
        zoneEntryOk wZoneEntry = true ∧
        (((sideOf 0).val * 16 + s.dev.fld (rSrvStat 0) 12 4) * 32 + zoneOf (s.dev.fld (rWaddrHi 0) 0 15) % 32) * 8 = 0 ∧
        (let s1 := s.onDev fun d => d.onSpot 0 0 fun p => { p with load := none };
        s1.readInternal .format ((s.dev.rd rZoneBaseLo).toNat + s.dev.fld rZoneBaseHi 0 16 * 2 ^ 32) 64 = (s1, .ok wZoneEntry))) ∧
    (let s := wd [(rZoneBaseLo, 0x800_0000)] fun d => d.onSpot 0 0 fun x => { x with load := some .acquisition, chan := { x.chan with pos := 2048 } };
        s.dev.heads[(0 : Head)].spots[(0 : Spot)].load = some .acquisition ∧ (s.dev.chan 0 0).atSync = true ∧
        zoneEntryOk (List.replicate 64 0) = false ∧
        (let s1 := s.onDev fun d => d.onSpot 0 0 fun p => { p with load := none };
        s1.readInternal .format ((s.dev.rd rZoneBaseLo).toNat + s.dev.fld rZoneBaseHi 0 16 * 2 ^ 32) 64 = (s1, .ok (List.replicate 64 0)))) ∧
    (let s := wd [] fun d => d.onSpot 0 0 fun x => { x with load := some .acquisition, chan := { x.chan with pos := 639 } };
        s.dev.heads[(0 : Head)].spots[(0 : Spot)].load = some .acquisition ∧ (s.dev.chan 0 0).atSync = false) ∧
    (let s := wd [] fun d => d.onSpot 1 7 fun x => { x with chan := { x.chan with limits := x.chan.limits.set 0 1024 } };
        s.dev.diverges 1 7 .gain = true) ∧
    (let s := wd [] fun d => d.onSpot 1 7 fun x => { x with chan := { x.chan with limits := x.chan.limits.set 17 1024 } };
        s.dev.diverges 1 7 .timing = true) ∧
    (let s := wd [] fun d => d.onSpot 1 7 fun x => { x with chan := { x.chan with metricFrames := 4 } };
        s.dev.diverges 1 7 .metric = true) ∧
    (let s := State.reset; s.dev.diverges 1 7 .gain = false) := by
  refine ⟨?_, ?_, ?_, ?_, ?_, ?_, ?_, ?_, ?_, ?_, ?_, ?_, ?_, ?_, ?_, ?_⟩ <;> decide

/-- The hypotheses of SyncStateMachine are met. -/
theorem witness_SyncStateMachine :
    (let s := State.reset; s.dev.heads[(0 : Head)].job = none) ∧
    (let s := wSync [(rSyncCfg 0, 0x3000)] 2 0 (wFrame 5); s.dev.heads[(0 : Head)].job = some wJob ∧
        s.dev.heads[(0 : Head)].spots[(2 : Spot)].frame < 54 ∧ s.dev.fld (rSpotStat 0 2) 0 3 = 2 ∧
        s.dev.heads[(0 : Head)].spots[(2 : Spot)].predicted + s.dev.fld (rSyncCfg 0) 0 4 + 198 ≤ s.dev.heads[(0 : Head)].spots[(2 : Spot)].chan.soft.length ∧
        ((s.dev.candidates 0 2 s.dev.heads[(0 : Head)].spots[(2 : Spot)].predicted (s.dev.fld (rSyncCfg 0) 0 4)).any fun c => c.1 == 0) = true) ∧
    (let s := wSync [(rSyncCfg 0, 0x3000)] 3 0 (wFrame 5); s.dev.heads[(0 : Head)].job = some wJob ∧
        s.dev.heads[(0 : Head)].spots[(2 : Spot)].frame < 54 ∧ s.dev.fld (rSpotStat 0 2) 0 3 = 3 ∧
        s.dev.heads[(0 : Head)].spots[(2 : Spot)].predicted + s.dev.fld (rSyncCfg 0) 0 4 + 198 ≤ s.dev.heads[(0 : Head)].spots[(2 : Spot)].chan.soft.length ∧
        ((s.dev.candidates 0 2 s.dev.heads[(0 : Head)].spots[(2 : Spot)].predicted (s.dev.fld (rSyncCfg 0) 0 4)).any fun c => c.1 == 0) = true) ∧
    (let s := wSync [(rSyncCfg 0, 1)] 2 4 (List.replicate 5 1 ++ wFrame 5); s.dev.heads[(0 : Head)].job = some wJob ∧
        s.dev.heads[(0 : Head)].spots[(2 : Spot)].frame < 54 ∧ s.dev.fld (rSpotStat 0 2) 0 3 = 2 ∧
        s.dev.heads[(0 : Head)].spots[(2 : Spot)].predicted + s.dev.fld (rSyncCfg 0) 0 4 + 198 ≤ s.dev.heads[(0 : Head)].spots[(2 : Spot)].chan.soft.length ∧
        ((s.dev.candidates 0 2 s.dev.heads[(0 : Head)].spots[(2 : Spot)].predicted (s.dev.fld (rSyncCfg 0) 0 4)).all fun x => x.1 != 0) = true ∧
        bestCand (s.dev.candidates 0 2 s.dev.heads[(0 : Head)].spots[(2 : Spot)].predicted (s.dev.fld (rSyncCfg 0) 0 4)) = some (1, 0) ∧
        (s.dev.goodHeader 0 2 ⟨0, 0, 2528⟩ 5 (4 + 1 + 48)).isSome = true ∧
        (s.dev.goodHeader 0 2 ⟨0, 0, 2528⟩ 5 (4 + 0 + 48)).isSome = false) ∧
    (let s := wSync [(rSyncCfg 0, 0)] 2 0 (List.replicate 198 1); s.dev.heads[(0 : Head)].job = some wJob ∧
        s.dev.heads[(0 : Head)].spots[(2 : Spot)].frame < 54 ∧ s.dev.fld (rSpotStat 0 2) 0 3 = 2 ∧
        s.dev.heads[(0 : Head)].spots[(2 : Spot)].predicted + s.dev.fld (rSyncCfg 0) 0 4 + 198 ≤ s.dev.heads[(0 : Head)].spots[(2 : Spot)].chan.soft.length ∧
        (s.dev.candidates 0 2 s.dev.heads[(0 : Head)].spots[(2 : Spot)].predicted (s.dev.fld (rSyncCfg 0) 0 4)) = []) ∧
    (let s := wSync [(rSyncCfg 0, 0)] 3 0 (List.replicate 198 1); s.dev.heads[(0 : Head)].job = some wJob ∧
        s.dev.heads[(0 : Head)].spots[(2 : Spot)].frame < 54 ∧ s.dev.fld (rSpotStat 0 2) 0 3 = 3 ∧
        s.dev.heads[(0 : Head)].spots[(2 : Spot)].predicted + s.dev.fld (rSyncCfg 0) 0 4 + 198 ≤ s.dev.heads[(0 : Head)].spots[(2 : Spot)].chan.soft.length ∧
        (s.dev.candidates 0 2 s.dev.heads[(0 : Head)].spots[(2 : Spot)].predicted (s.dev.fld (rSyncCfg 0) 0 4)) = []) ∧
    (let s := wSync [(rSyncCfg 0, 0x10)] 1 4 (List.replicate 5 1 ++ wFrame 5);
        s.dev.heads[(0 : Head)].job = some wJob ∧ s.dev.heads[(0 : Head)].spots[(2 : Spot)].frame < 54 ∧
        s.dev.fld (rSpotStat 0 2) 0 3 = 1 ∧
        s.dev.heads[(0 : Head)].spots[(2 : Spot)].predicted + s.dev.fld (rSyncCfg 0) 4 8 + 198 ≤ s.dev.heads[(0 : Head)].spots[(2 : Spot)].chan.soft.length ∧
        bestCand ((s.dev.candidates 0 2 s.dev.heads[(0 : Head)].spots[(2 : Spot)].predicted (s.dev.fld (rSyncCfg 0) 4 8)).filter fun c => (s.dev.goodHeader 0 2 ⟨0, 0, 2528⟩ 5 (4 + c.1 + 48)).isSome) = some (1, 0)) ∧
    (let s := wSync [(rSyncCfg 0, 0x10)] 4 4 (List.replicate 5 1 ++ wFrame 5);
        s.dev.heads[(0 : Head)].job = some wJob ∧ s.dev.heads[(0 : Head)].spots[(2 : Spot)].frame < 54 ∧
        s.dev.fld (rSpotStat 0 2) 0 3 = 4 ∧
        s.dev.heads[(0 : Head)].spots[(2 : Spot)].predicted + s.dev.fld (rSyncCfg 0) 4 8 + 198 ≤ s.dev.heads[(0 : Head)].spots[(2 : Spot)].chan.soft.length ∧
        bestCand ((s.dev.candidates 0 2 s.dev.heads[(0 : Head)].spots[(2 : Spot)].predicted (s.dev.fld (rSyncCfg 0) 4 8)).filter fun c => (s.dev.goodHeader 0 2 ⟨0, 0, 2528⟩ 5 (4 + c.1 + 48)).isSome) = some (1, 0)) := by
  refine ⟨?_, ?_, ?_, ?_, ?_, ?_, ?_, ?_⟩ <;> decide

/-- The hypotheses of PlaceReadProceeds are met. -/
theorem witness_PlaceReadProceeds :
    (let s := wd [(rSrvStat 2, 5), (rWaddrLo 2, 0x8000_0000)] fun d => (d.onHead 2 fun s => { s with wobble := { s.wobble with side := 1, layer := 15, next := placeWord 166991 } }).onSide 1 fun s => { s with verifyQ := [⟨⟨1, 15, 166991⟩, ⟨1, 15, 166991⟩, 3, 0, 0, false⟩] };
        (∀ k : Fin 8, s.dev.contexts k + 9 ≤ 36) ∧ s.dev.engineHalted 3 = false ∧ s.dev.inService 2 = true ∧
        s.dev.heads[(2 : Head)].job = none ∧ s.dev.heads[(2 : Head)].resume = none ∧
        s.dev.atStart 2 ⟨1, 15, 166991⟩ = true ∧ s.dev.flag (rSrvStat 2) 2 = true ∧
        s.dev.rereadFor 2 ⟨1, 15, 166991⟩ = none ∧ s.dev.ladderHolds 2 = false ∧
        s.dev.mayRead 2 ⟨1, 15, 166991⟩ .verify = true) ∧
    (let s := wd [] fun d => let d := d.onHead 0 fun h => { h with job := some ({ wDone with progressive := 7 }) };
        d.each allSpots fun d j => d.onSpot 0 j fun x => { x with frame := 48 };
        s.dev.heads[(0 : Head)].job = some ({ wDone with progressive := 7 }) ∧ s.dev.engineHalted 4 = false ∧
        (({ wDone with progressive := 7 })).closed = false ∧ (({ wDone with progressive := 7 })).step = 0 ∧
        (({ wDone with progressive := 7 })).why ≠ .idleVerify ∧ s.dev.frameRead 0 (progressiveFrame 7) = true) ∧
    (let s := wd [] fun d => let d := d.onHead 0 fun h => { h with job := some (wDone) };
        d.each allSpots fun d j => d.onSpot 0 j fun x => { x with frame := 54 };
        s.dev.heads[(0 : Head)].job = some wDone ∧ s.dev.engineHalted 4 = false ∧ (wDone).closed = false ∧
        (wDone).step = 0 ∧ (wDone).why ≠ .idleVerify ∧ s.dev.frameRead 0 53 = true ∧
        (wDone.close (s.dev.placeLlrs 0)).failed = 0#72) ∧
    (let s := wd [] fun d => let d := d.onHead 0 fun h => { h with job := some ({ wDone with why := .verify }) };
        d.each allSpots fun d j => d.onSpot 0 j fun x => { x with frame := 54 };
        s.dev.heads[(0 : Head)].job = some ({ wDone with why := .verify }) ∧ s.dev.engineHalted 4 = false ∧
        (({ wDone with why := .verify })).closed = false ∧ (({ wDone with why := .verify })).step = 0 ∧
        (({ wDone with why := .verify })).why ≠ .idleVerify ∧ s.dev.frameRead 0 53 = true) ∧
    (let s := wd [(rBudget 6, 1)] fun d => d.onHead 0 fun h => { h with recover := [{ wDone with closed := true, step := 1 }] };
        s.dev.extending 0 = some ({ wDone with closed := true, step := 1 }) ∧ s.dev.engineHalted 4 = false ∧
        (s.dev.extendRows ({ wDone with closed := true, step := 1 })).2.2 = false ∧
        (s.dev.extendRows ({ wDone with closed := true, step := 1 })).2.1 = { wDone with closed := true, step := 1 } ∧
        ({ wDone with closed := true, step := 1 } : ReadJob).failed = 0#72) ∧
    (let s := wd [(rBudget 6, 1)] fun d => d.onHead 0 fun h => { h with recover := [{ wDone with closed := true, step := 2 }] };
        s.dev.extending 0 = some ({ wDone with closed := true, step := 2 }) ∧ s.dev.engineHalted 4 = false ∧
        (s.dev.extendRows ({ wDone with closed := true, step := 2 })).2.2 = false ∧
        (s.dev.extendRows ({ wDone with closed := true, step := 2 })).2.1 = { wDone with closed := true, step := 2 } ∧
        ({ wDone with closed := true, step := 2 } : ReadJob).failed = 0#72) ∧
    (let s := wd [(rBudget 6, 1)] fun d => d.onHead 0 fun h => { h with recover := [{ wDone with closed := true, step := 1 }] };
        s.dev.cue.used[6] ≤ s.dev.fld (rBudget 6) 0 24 * 64) ∧
    (let s := wd [(rBudget 6, 1)] fun d => d.onHead 0 fun h => { h with recover := [{ wDone with closed := true, step := 2, outer := true }] };
        s.dev.heads[(0 : Head)].recover.find? (fun x => x.outer) = some ({ wDone with closed := true, step := 2, outer := true }) ∧
        s.dev.engineHalted 4 = false ∧ ({ wDone with closed := true, step := 2, outer := true } : ReadJob).step = 2 ∧
        ({ wDone with closed := true, step := 2, outer := true } : ReadJob).restore.failed = 0#72) := by
  refine ⟨?_, ?_, ?_, ?_, ?_, ?_, ?_, ?_⟩ <;> decide

/-- The hypotheses of WriteGateAndClock are met. -/
theorem witness_WriteGateAndClock :
    (let s := wReady wHome (fun s => { s with horizon := [2528] }) (fun d => { d with hq.rows := [wRow] });
        s.dev.gateReady 0 = true ∧ s.dev.atPlace 0 wHome = true ∧ s.dev.homeWritable 0 wHome = true ∧
        (s.dev.checkPeaks 0).2 = true) ∧
    (let s := State.reset; s.dev.gateReady 0 = false) ∧
    (let s := State.reset; s.dev.heads[(1 : Head)].writing = none) ∧
    (let s := wd [(rWrpStat 1, 1), (rSideCfg 0, 1)] fun d => (d.onHead 1 fun h => { h with writing := some { place := wHome, home := some wHome, rows := [], type := 0, rpl := false, kind := 0, attempts := 0 } }).onSide 0 id;
        s.dev.heads[(1 : Head)].writing = some { place := wHome, home := some wHome, rows := [], type := 0, rpl := false, kind := 0, attempts := 0 } ∧
        s.dev.verified 0 = true) ∧
    (let s := wd [(rWrpStat 1, 1), (rSideCfg 0, 0)] fun d => (d.onHead 1 fun h => { h with writing := some { place := wHome, home := some wHome, rows := [], type := 0, rpl := false, kind := 0, attempts := 0 } }).onSide 0 id;
        s.dev.heads[(1 : Head)].writing = some { place := wHome, home := some wHome, rows := [], type := 0, rpl := false, kind := 0, attempts := 0 } ∧
        s.dev.verified 0 = false) ∧
    (let s := wd [(rWrpStat 1, 1), (rSideCfg 0, 1)] fun d => (d.onHead 1 fun h => { h with writing := some { place := logPlace 0 3056, home := none, rows := [], type := 1, rpl := false, kind := 0, attempts := 0 } }).onSide 0 fun s => { s with recFlight := some { type := 2, clean := false, index := 3056, committed := [2528], consumed := [], realloc := [], horizon := [2529], part := 0, writer := 1, failed := false, sent := false } };
        s.dev.heads[(1 : Head)].writing = some { place := logPlace 0 3056, home := none, rows := [], type := 1, rpl := false, kind := 0, attempts := 0 } ∧
        s.dev.sides[(0 : Side)].recFlight = some { type := 2, clean := false, index := 3056, committed := [2528], consumed := [], realloc := [], horizon := [2529], part := 0, writer := 1, failed := false, sent := false }) ∧
    (256 ≤ (wClk 256 (16)).length ∧ ((wClk 256 (16)).all fun c => decide ((clkError c).natAbs ≤ 16)) = true) ∧
    (256 ≤ (wClk 256 (-16)).length ∧ ((wClk 256 (-16)).all fun c => decide ((clkError c).natAbs ≤ 16)) = true) ∧
    ((wClk 255 (0)).length < 256) ∧
    (((wClk 1 (17)).any fun c => decide (16 < (clkError c).natAbs)) = true) ∧
    (8 ≤ (wClk 8 (33)).length ∧ ((wClk 8 (33)).all fun c => decide (32 < (clkError c).natAbs)) = true) ∧
    (8 ≤ (wClk 8 (-33)).length ∧ ((wClk 8 (-33)).all fun c => decide (32 < (clkError c).natAbs)) = true) ∧
    ((wClk 7 (33)).length < 8) ∧
    (((wClk 8 (32)).any fun c => decide ((clkError c).natAbs ≤ 32)) = true) ∧
    (let s := wd [] fun d => { d.onHead 2 fun h => { h with laserActs := [65, 64], laserBad := 8 } with cue.act := 127 };
        8 ≤ s.dev.heads[(2 : Head)].laserBad ∧
        2 ≤ (s.dev.heads[(2 : Head)].laserActs.filter fun a => decide (s.dev.cue.act < a + 64)).length) ∧
    (let s := wd [] fun d => { d.onHead 2 fun h => { h with laserActs := [65, 64], laserBad := 7 } with cue.act := 127 };
        s.dev.heads[(2 : Head)].laserBad < 8) := by
  refine ⟨?_, ?_, ?_, ?_, ?_, ?_, ?_, ?_, ?_, ?_, ?_, ?_, ?_, ?_, ?_, ?_⟩ <;> decide

/-- The hypotheses of PowerCalibrationAndVerify are met. -/
theorem witness_PowerCalibrationAndVerify :
    (let s := State.reset; (let l := s.dev.headLayer 2; s.dev.opcWanted 2 l ≠ .none)) ∧
    (let s := wReady wHome id id; (let l := s.dev.headLayer 0; s.dev.opcWanted 0 l = .none)) ∧
    (let s := wReady ⟨0, 0, 0⟩ (fun s => { s with opcUsed := [(0, 256), (1, 256)] }) fun d => d.onHead 0 fun h => { h with opcDue := .nearer };
        s.dev.gateReady 0 = true ∧ s.dev.sides[sideOf 0].mounted = true ∧
        s.dev.opcWanted 0 (s.dev.headLayer 0) ≠ .none ∧ s.dev.opcExhausted (sideOf 0) (s.dev.headLayer 0) = true) ∧
    (let s := wReady ⟨0, 0, 0⟩ id fun d => d.onHead 0 fun h => { h with opcDue := .nearer };
        s.dev.gateReady 0 = true ∧ s.dev.sides[sideOf 0].mounted = true ∧
        s.dev.opcWanted 0 (s.dev.headLayer 0) ≠ .none ∧ s.dev.opcExhausted (sideOf 0) (s.dev.headLayer 0) = false ∧
        s.dev.zoneServes (sideOf 0) (s.dev.headLayer 0) (s.dev.opcWanted 0 (s.dev.headLayer 0)) false = true ∧
        s.dev.opcPlace (sideOf 0) (s.dev.headLayer 0) false = some ⟨0, 0, 0⟩ ∧ s.dev.atPlace 0 ⟨0, 0, 0⟩ = true ∧
        s.dev.partnerBusy 0 ⟨0, 0, 0⟩ = false ∧ s.dev.placeState ⟨0, 0, 0⟩ = 0 ∧ (s.dev.checkPeaks 0).2 = true) ∧
    (let s := wReady ⟨0, 0, 0⟩ id fun d => d.onHead 0 fun h => { h with opcDue := .both }; s.dev.gateReady 0 = true ∧
        s.dev.sides[sideOf 0].mounted = true ∧ s.dev.opcWanted 0 (s.dev.headLayer 0) ≠ .none ∧
        s.dev.opcExhausted (sideOf 0) (s.dev.headLayer 0) = false ∧
        s.dev.zoneServes (sideOf 0) (s.dev.headLayer 0) (s.dev.opcWanted 0 (s.dev.headLayer 0)) false = true ∧
        s.dev.opcPlace (sideOf 0) (s.dev.headLayer 0) false = some ⟨0, 0, 0⟩ ∧ s.dev.atPlace 0 ⟨0, 0, 0⟩ = true ∧
        s.dev.partnerBusy 0 ⟨0, 0, 0⟩ = false ∧ s.dev.placeState ⟨0, 0, 0⟩ = 0 ∧ (s.dev.checkPeaks 0).2 = true) ∧
    (let s := wReady ⟨0, 0, 0⟩ id fun d => d.onHead 0 fun h => { h with opcDue := .zone false };
        s.dev.gateReady 0 = true ∧ s.dev.sides[sideOf 0].mounted = true ∧
        s.dev.opcWanted 0 (s.dev.headLayer 0) ≠ .none ∧ s.dev.opcExhausted (sideOf 0) (s.dev.headLayer 0) = false ∧
        s.dev.zoneServes (sideOf 0) (s.dev.headLayer 0) (s.dev.opcWanted 0 (s.dev.headLayer 0)) false = true ∧
        s.dev.opcPlace (sideOf 0) (s.dev.headLayer 0) false = some ⟨0, 0, 0⟩ ∧ s.dev.atPlace 0 ⟨0, 0, 0⟩ = true ∧
        s.dev.partnerBusy 0 ⟨0, 0, 0⟩ = false ∧ s.dev.placeState ⟨0, 0, 0⟩ = 0 ∧ (s.dev.checkPeaks 0).2 = true) ∧
    (let s := wd [(rOpcCfg, 5)] fun d => d.onHead 0 fun h => { h with opcRun := some (⟨0, 0, 0⟩, false), opcFails := 1 };
        s.dev.heads[(0 : Head)].opcRun = some (⟨0, 0, 0⟩, false) ∧ s.dev.heads[(0 : Head)].writing = none ∧
        (∀ j : Spot, (opcPower (s.dev.fld (rPeak 0 j) 0 16) (s.dev.fld rOpcCfg 0 8) (2 * s.dev.sfld rOpcCfg 8 10) (stepBetas ((List.replicate 8 ((List.range 54).map fun (i : Nat) => (((i : Int) + 110), ((i : Int) - 146)))).getD j.val []))).isSome = true)) ∧
    (let s := wd [(rOpcCfg, 5)] fun d => d.onHead 0 fun h => { h with opcRun := some (⟨0, 0, 0⟩, false), opcFails := 1 };
        s.dev.heads[(0 : Head)].opcRun = some (⟨0, 0, 0⟩, false) ∧ s.dev.heads[(0 : Head)].writing = none ∧
        (∃ j : Spot, opcPower (s.dev.fld (rPeak 0 j) 0 16) (s.dev.fld rOpcCfg 0 8) (2 * s.dev.sfld rOpcCfg 8 10) (stepBetas ((List.replicate 8 (List.replicate 54 ((256 : Int), (0 : Int)))).getD j.val [])) = none) ∧
        1 ≤ s.dev.heads[(0 : Head)].opcFails) ∧
    (let s := State.reset; s.dev.verifyJob 0 = none) ∧
    (let s := wChecked wHome .verify 0 (BitVec.allOnes 72) fun s => { s with verifyQ := [{ place := wHome, home := wHome, writer := 1, attempts := 0, kind := 0, early := false }] };
        (s.dev.verifyJob 0).map (fun j => (j.place, j.accepted)) = some (wHome, BitVec.allOnes 72) ∧
        (s.dev.sides[sideOf 0].verifyQ.find? fun v => v.place == wHome) = some { place := wHome, home := wHome, writer := 1, attempts := 0, kind := 0, early := false } ∧
        s.dev.verified (sideOf 0) = true ∧ wHome.side = sideOf 0 ∧
        ((s.dev.verifyJob 0).map (s.dev.verifyFails 0)) = some none) ∧
    (let s := wChecked wHome .verify 0 0 fun s => { s with verifyQ := [{ place := wHome, home := wHome, writer := 1, attempts := 0, kind := 0, early := false }] };
        (s.dev.verifyJob 0).map (fun j => (j.place, j.accepted)) = some (wHome, 0) ∧
        (s.dev.sides[sideOf 0].verifyQ.find? fun v => v.place == wHome) = some { place := wHome, home := wHome, writer := 1, attempts := 0, kind := 0, early := false } ∧
        s.dev.verified (sideOf 0) = true ∧ wHome.side = sideOf 0 ∧
        ((s.dev.verifyJob 0).map (s.dev.verifyFails 0)) = some (some 1)) ∧
    (let s := wd [(rSideCfg 0, 0), (rSrvStat 0, 5), (rWaddrLo 0, 0x8000_0000)] fun d => (wAt wHome (d.onSide 0 fun s => { s with verifyQ := [{ place := wHome, home := wHome, writer := 1, attempts := 0, kind := 0, early := false }] })).onHead 0 fun h => { h with freeBeats := 2047 };
        s.dev.sides[sideOf 0].verifyQ.head? = some { place := wHome, home := wHome, writer := 1, attempts := 0, kind := 0, early := false } ∧
        s.dev.verified (sideOf 0) = false ∧ s.dev.workClaimed 0 = false ∧
        s.dev.fld 0x88_0048 0 11 ≤ s.dev.heads[(0 : Head)].freeBeats ∧ (∀ k : Fin 8, s.dev.contexts k + 9 ≤ 36) ∧
        s.dev.engineHalted 3 = false ∧ s.dev.inService 0 = true ∧ s.dev.atStart 0 wHome = true ∧
        s.dev.flag (rSrvStat 0) 2 = true ∧ s.dev.rereadFor 0 wHome = none ∧ s.dev.ladderHolds 0 = false ∧
        s.dev.heads[(0 : Head)].resume = none) ∧
    (let s := wReady ⟨0, 0, 448⟩ (fun s => { s with replQ := [{ home := wHome, kind := 1, attempts := 0, spare := none }], horizon := [448] }) (fun d => { d with hq.rows := [wRow] });
        s.dev.nextRepl (sideOf 0) = some { home := wHome, kind := 1, attempts := 0, spare := none } ∧
        wHome.side = sideOf 0 ∧ s.dev.canReplace (sideOf 0) = true ∧
        s.dev.sides[sideOf 0].spareFor wHome = some ⟨0, 0, 448⟩ ∧ (s.dev.carried wHome).isSome = true ∧
        s.dev.gateReady 0 = true ∧ s.dev.atPlace 0 ⟨0, 0, 448⟩ = true ∧ s.dev.sides[sideOf 0].mounted = true ∧
        s.dev.sides[sideOf 0].horizon.contains (placeKey ⟨0, 0, 448⟩) = true ∧ s.dev.curtainOpen = true ∧
        s.dev.opcDone 0 0 = true ∧ s.dev.partnerBusy 0 ⟨0, 0, 448⟩ = false ∧ (s.dev.checkPeaks 0).2 = true) ∧
    (let s := wReady ⟨0, 0, 448⟩ (fun s => { s with replQ := [{ home := wHome, kind := 1, attempts := 0, spare := none }] }) fun d => d.setF (rSideSpare 0) 0 17 65536;
        s.dev.nextRepl (sideOf 0) = some { home := wHome, kind := 1, attempts := 0, spare := none } ∧
        wHome.side = sideOf 0 ∧ s.dev.canReplace (sideOf 0) = false) ∧
    (let s := wd [] fun d => { d with alloc := [(131071, (0x8000_0001_0000_0005, ~~~ 0x8000_0001_0000_0005))] };
        (s.dev.allocEntry 131071).2 = ~~~ (s.dev.allocEntry 131071).1) := by
  refine ⟨?_, ?_, ?_, ?_, ?_, ?_, ?_, ?_, ?_, ?_, ?_, ?_, ?_, ?_, ?_⟩ <;> decide

/-- The hypotheses of DiscInformationLog are met. -/
theorem witness_DiscInformationLog :
    (let s := State.reset; s.dev.sides[(0 : Side)].mounted = false) ∧
    (let s := wd [] fun d => d.onSide 0 fun s => { s with mounted := true }; s.dev.recordNext 0 = none) ∧
    (let s := wReady (logPlace 0 3056) (fun s => { s with recWanted := true, toCommit := [2528] }) (fun d => d.setF (rSideLog 0) 0 12 3056);
        s.dev.sides[(0 : Side)].mounted = true ∧ (s.dev.recordNext 0).isSome = true ∧
        s.dev.fld (rSideLog 0) 0 12 ≤ 3056 ∧ s.dev.logHead 0 (logPlace 0 (s.dev.fld (rSideLog 0) 0 12)) = some 0 ∧
        (s.dev.checkPeaks 0).2 = true) ∧
    (let s := wReady (logPlace 0 3056) (fun s => { s with recFlight := some { type := 2, clean := false, index := 3056, committed := [2528], consumed := [], realloc := [], horizon := [2529], part := 0, writer := 1, failed := true, sent := false } }) (fun d => d.setF (rSideLog 0) 0 12 3056);
        s.dev.sides[(0 : Side)].mounted = true ∧ (s.dev.recordNext 0).isSome = true ∧
        s.dev.fld (rSideLog 0) 0 12 ≤ 3056 ∧ s.dev.logHead 0 (logPlace 0 (s.dev.fld (rSideLog 0) 0 12)) = some 0 ∧
        (s.dev.checkPeaks 0).2 = true) ∧
    (let s := State.reset; s.dev.sides[(1 : Side)].recFlight = none) ∧
    (let s := wChecked (logPlace 0 3056) .verify 0 (BitVec.allOnes 72) fun s => { s with recFlight := some { type := 2, clean := false, index := 3056, committed := [2528], consumed := [], realloc := [], horizon := [2529], part := 0, writer := 1, failed := false, sent := true }, sequence := 9 };
        s.dev.sides[(0 : Side)].recFlight = some { type := 2, clean := false, index := 3056, committed := [2528], consumed := [], realloc := [], horizon := [2529], part := 0, writer := 1, failed := false, sent := true } ∧
        ((s.dev.recordJob 0 { type := 2, clean := false, index := 3056, committed := [2528], consumed := [], realloc := [], horizon := [2529], part := 0, writer := 1, failed := false, sent := true }).map fun q => s.dev.verifyFails q.1 q.2) = some none) ∧
    (let s := wChecked (logPlace 0 3056) .verify 0 (BitVec.allOnes 72) fun s => { s with recFlight := some { type := 3, clean := false, index := 3056, committed := [2528], consumed := [], realloc := [], horizon := [2529], part := 5, writer := 1, failed := false, sent := true }, sequence := 9 };
        s.dev.sides[(0 : Side)].recFlight = some { type := 3, clean := false, index := 3056, committed := [2528], consumed := [], realloc := [], horizon := [2529], part := 5, writer := 1, failed := false, sent := true } ∧
        ((s.dev.recordJob 0 { type := 3, clean := false, index := 3056, committed := [2528], consumed := [], realloc := [], horizon := [2529], part := 5, writer := 1, failed := false, sent := true }).map fun q => s.dev.verifyFails q.1 q.2) = some none) ∧
    (let s := wChecked (logPlace 0 3056) .verify 0 (BitVec.allOnes 72) fun s => { s with recFlight := some { type := 3, clean := false, index := 3056, committed := [2528], consumed := [], realloc := [], horizon := [2529], part := 6, writer := 1, failed := false, sent := true }, sequence := 9 };
        s.dev.sides[(0 : Side)].recFlight = some { type := 3, clean := false, index := 3056, committed := [2528], consumed := [], realloc := [], horizon := [2529], part := 6, writer := 1, failed := false, sent := true } ∧
        ((s.dev.recordJob 0 { type := 3, clean := false, index := 3056, committed := [2528], consumed := [], realloc := [], horizon := [2529], part := 6, writer := 1, failed := false, sent := true }).map fun q => s.dev.verifyFails q.1 q.2) = some none) ∧
    (let s := wChecked (logPlace 0 3056) .verify 0 0 fun s => { s with recFlight := some { type := 2, clean := false, index := 3056, committed := [2528], consumed := [], realloc := [], horizon := [2529], part := 0, writer := 1, failed := false, sent := true }, sequence := 9 };
        s.dev.sides[(0 : Side)].recFlight = some { type := 2, clean := false, index := 3056, committed := [2528], consumed := [], realloc := [], horizon := [2529], part := 0, writer := 1, failed := false, sent := true } ∧
        ((s.dev.recordJob 0 { type := 2, clean := false, index := 3056, committed := [2528], consumed := [], realloc := [], horizon := [2529], part := 0, writer := 1, failed := false, sent := true }).map fun q => s.dev.verifyFails q.1 q.2) = some (some 1)) ∧
    (let s := wReady (logPlace 0 3049) (fun s => { s with recsSinceSnap := 64, sequence := 9 }) (fun d => d.setF (rSideLog 0) 0 12 3049);
        s.dev.sides[(0 : Side)].mounted = true ∧ s.dev.snapshotDue 0 = true ∧
        s.dev.logHead 0 (logPlace 0 (s.dev.fld (rSideLog 0) 0 12)) = some 0 ∧ (s.dev.checkPeaks 0).2 = true) := by
  refine ⟨?_, ?_, ?_, ?_, ?_, ?_, ?_, ?_, ?_, ?_⟩ <;> decide

/-- The hypotheses of FlashCommandStarts are met. -/
theorem witness_FlashCommandStarts :
    (let s := wd [(rFlashLen, 256), (rFlashSlen, 64)] fun d => { d with cfg.busy := none };
        (((1 : Fin 6), Instr.flashRead .host) ∈ ([(1, .flashRead .host), (2, .flashProgram .host), (3, .flashErase .host), (4, .flashReadFifo .host), (5, .flashProgramFifo .host)] : List (Fin 6 × Instr))) ∧
        s.dev.flag rFlashStat 0 = false ∧ s.dev.flashBadLen 1 = false) ∧
    (let s := wd [(rFlashLen, 256), (rFlashSlen, 64)] fun d => { d with cfg.busy := some .boardCopy };
        (((1 : Fin 6), Instr.flashRead .host) ∈ ([(1, .flashRead .host), (2, .flashProgram .host), (3, .flashErase .host), (4, .flashReadFifo .host), (5, .flashProgramFifo .host)] : List (Fin 6 × Instr))) ∧
        s.dev.flag rFlashStat 0 = false ∧ s.dev.flashBadLen 1 = false) ∧
    (let s := wd [(rFlashLen, 256), (rFlashSlen, 64)] fun d => { d with cfg.busy := none };
        (((2 : Fin 6), Instr.flashProgram .host) ∈ ([(1, .flashRead .host), (2, .flashProgram .host), (3, .flashErase .host), (4, .flashReadFifo .host), (5, .flashProgramFifo .host)] : List (Fin 6 × Instr))) ∧
        s.dev.flag rFlashStat 0 = false ∧ s.dev.flashBadLen 2 = false) ∧
    (let s := wd [(rFlashLen, 256), (rFlashSlen, 64)] fun d => { d with cfg.busy := none };
        (((3 : Fin 6), Instr.flashErase .host) ∈ ([(1, .flashRead .host), (2, .flashProgram .host), (3, .flashErase .host), (4, .flashReadFifo .host), (5, .flashProgramFifo .host)] : List (Fin 6 × Instr))) ∧
        s.dev.flag rFlashStat 0 = false ∧ s.dev.flashBadLen 3 = false) ∧
    (let s := wd [(rFlashLen, 256), (rFlashSlen, 64)] fun d => { d with cfg.busy := none };
        (((4 : Fin 6), Instr.flashReadFifo .host) ∈ ([(1, .flashRead .host), (2, .flashProgram .host), (3, .flashErase .host), (4, .flashReadFifo .host), (5, .flashProgramFifo .host)] : List (Fin 6 × Instr))) ∧
        s.dev.flag rFlashStat 0 = false ∧ s.dev.flashBadLen 4 = false) ∧
    (let s := wd [(rFlashLen, 256), (rFlashSlen, 64)] fun d => { d with cfg.busy := some .boardCopy };
        (((4 : Fin 6), Instr.flashReadFifo .host) ∈ ([(1, .flashRead .host), (2, .flashProgram .host), (3, .flashErase .host), (4, .flashReadFifo .host), (5, .flashProgramFifo .host)] : List (Fin 6 × Instr))) ∧
        s.dev.flag rFlashStat 0 = false ∧ s.dev.flashBadLen 4 = false) ∧
    (let s := wd [(rFlashLen, 256), (rFlashSlen, 64)] fun d => { d with cfg.busy := none };
        (((5 : Fin 6), Instr.flashProgramFifo .host) ∈ ([(1, .flashRead .host), (2, .flashProgram .host), (3, .flashErase .host), (4, .flashReadFifo .host), (5, .flashProgramFifo .host)] : List (Fin 6 × Instr))) ∧
        s.dev.flag rFlashStat 0 = false ∧ s.dev.flashBadLen 5 = false) := by
  refine ⟨?_, ?_, ?_, ?_, ?_, ?_, ?_⟩ <;> decide

/-- The hypotheses of FlashCommandRefused are met. -/
theorem witness_FlashCommandRefused :
    (let s := ws [(rFlashStat, 1)]; s.dev.flag rFlashStat 0 = true) ∧
    (let s := ws [(rFlashLen, 2), (rFlashAddr, 255)]; s.dev.flag rFlashStat 0 = false ∧ s.dev.flashBadLen 2 = true) ∧
    (let s := ws [(rFlashLen, 4096)]; s.dev.flashBadLen 1 = false) := by
  refine ⟨?_, ?_, ?_⟩ <;> decide

/-- The hypotheses of FlashOperationEnds are met. -/
theorem witness_FlashOperationEnds :
    (let s := wd [(rFlashStat, 1)] fun d => { d with cfg.busy := some (.cfg 1 65532 4), cfg.buf := [(0, 0x5A)] };
        s.dev.cfg.busy = some (.cfg 1 65532 4)) ∧
    (let s := wd [(rFlashStat, 1)] fun d => { d with cfg.busy := some (.cfg 2 65532 4), cfg.buf := [(0, 0x5A)] };
        s.dev.cfg.busy = some (.cfg 2 65532 4)) ∧
    (let s := wd [(rFlashStat, 1)] fun d => { d with cfg.busy := some (.cfg 3 65532 4), cfg.buf := [(0, 0x5A)] };
        s.dev.cfg.busy = some (.cfg 3 65532 4)) := by
  refine ⟨?_, ?_, ?_⟩ <;> decide

/-- The hypotheses of FlashFifoPorts are met. -/
theorem witness_FlashFifoPorts :
    (let s := State.reset; s.dev.cfg.tx.length < 256) ∧
    (let s := wd [] fun d => { d with cfg.rx := [7, 8] }; s.dev.cfg.rx = 7 :: [8] ∧ s.dev.cfg.rxLeft = 0) := by
  refine ⟨?_, ?_⟩ <;> decide

/-- The hypotheses of I2cTransferRuns are met. -/
theorem witness_I2cTransferRuns :
    (let s := State.reset; s.dev.flag (rI2cStat 0) 0 = false ∧ 1 ≤ fget 512 9 9 ∧ fget 512 9 9 ≤ 256) ∧
    (let s := State.reset; s.dev.flag (rI2cStat 0) 0 = false ∧ 1 ≤ fget 131072 9 9 ∧ fget 131072 9 9 ≤ 256) ∧
    (let s := ws [(rI2cStat 0, 1)]; s.dev.flag (rI2cStat 0) 0 = true ∨ fget 512 9 9 = 0 ∨ 256 < fget 512 9 9) ∧
    (let s := State.reset; s.dev.flag (rI2cStat 0) 0 = true ∨ fget 0 9 9 = 0 ∨ 256 < fget 0 9 9) ∧
    (let s := State.reset; s.dev.flag (rI2cStat 0) 0 = true ∨ fget 131584 9 9 = 0 ∨ 256 < fget 131584 9 9) ∧
    (let s := wd [(rI2cStat 0, 1), (rI2cCtl 0, 512)] fun d => { d with top.i2c := vmod d.top.i2c (0 : Head) fun i => { i with tx := [9] } };
        s.dev.flag (rI2cStat 0) 0 = true ∧ s.dev.flag (rI2cCtl 0) 1 = false ∧
        s.dev.fld (rI2cCtl 0) 9 9 ≤ s.dev.top.i2c[(0 : Head)].tx.length) ∧
    (let s := ws [(rI2cStat 0, 1), (rI2cCtl 0, 514)]; s.dev.flag (rI2cStat 0) 0 = true ∧
        s.dev.flag (rI2cCtl 0) 1 = true ∧ [(5 : Byte)].length = s.dev.fld (rI2cCtl 0) 9 9 ∧
        s.dev.top.i2c[(0 : Head)].rx.length + 1 ≤ 256) ∧
    (let s := ws [(rI2cStat 0, 1)]; s.dev.flag (rI2cStat 0) 0 = true) := by
  refine ⟨?_, ?_, ?_, ?_, ?_, ?_, ?_, ?_⟩ <;> decide

/-- The hypotheses of SideBandAndGpioPorts are met. -/
theorem witness_SideBandAndGpioPorts :
    (let s := State.reset; s.dev.top.i2c[(3 : Head)].tx.length < 256) ∧
    (let s := wd [] fun d => { d with top.i2c := vmod d.top.i2c (0 : Head) fun i => { i with rx := [9] } };
        s.dev.top.i2c[(0 : Head)].rx = 9 :: []) ∧
    (let s := ws [(rTopMode, 0)]; s.dev.rehearsal = true) ∧
    (let s := ws [(rTopMode, 1)]; s.dev.rehearsal = false) ∧
    (let s := wd [(rSrvStat 0, 1)] fun d => { d with top.i2c := vmod d.top.i2c (0 : Head) fun i => { i with missed := 1 } };
        s.dev.inService 0 = true ∧ s.dev.flag (rI2cStat 0) 0 = false ∧ (0 : Byte).toNat = s.dev.headTypeOf 0) ∧
    (let s := ws [(rGpioCapCfg, 1)]; s.dev.fld rGpioIn 0 16 = 0 ∧ s.dev.fld rGpioCapCfg 0 16 = 1 ∧
        s.dev.top.cap.length < 64) ∧
    (let s := State.reset; s.dev.fld rGpioCapCfg 0 16 = 0) ∧
    (let s := wd [] fun d => { d with top.cap := [(1, 5)] }; s.dev.top.cap = (1, 5) :: []) := by
  refine ⟨?_, ?_, ?_, ?_, ?_, ?_, ?_, ?_⟩ <;> decide

/-- The hypotheses of FltPostMakesEntry are met. -/
theorem witness_FltPostMakesEntry :
    (let s := State.reset; 0x8000 ≤ (0x8000 : BitVec 16).toNat ∧ s.dev.boardTwin 0x8000 0x1F = none) ∧
    (let s := State.reset.onDev fun d => d.post 0x8000 0x1F 0 0 0 0;
        (s.dev.boardTwin 0x8000 0x1F).map Entry.d0 = some (s.dev.rd64 (rPostData 0))) ∧
    ((0x7FFF : BitVec 16).toNat < 0x8000) := by
  refine ⟨?_, ?_, ?_⟩ <;> decide

/-- The hypotheses of ServoBeatAndHolds are met. -/
theorem witness_ServoBeatAndHolds :
    (let s := wd [] fun d => d.onHead 0 fun h => { h with grouped := true }; s.dev.heads[(0 : Head)].grouped = true) ∧
    (let s := wd [] fun d => { d with cue.halted := BitVec.allOnes 12 }; s.dev.engineHalted 0 = true) ∧
    (let s := wd [(rSrvSum 0, 1000)] fun d => d.onHead 0 fun h => { h with hold := some { beats := 3, raised := true, first := 0, ended := false }, lanes := true };
        s.dev.engineHalted 0 = false ∧ s.dev.heads[(0 : Head)].grouped = false ∧ s.dev.cue.glBeat < 2 ∧
        s.dev.chainElapsed (headLine 5 0) < 2 ∧
        (s.dev.holdTest 0 (s.dev.signals 0 ({ lanes := [], bad := false })) false).heads[(0 : Head)].frozen = true ∧
        s.dev.heads[(0 : Head)].jump = none ∧ s.dev.heads[(0 : Head)].seek = none ∧
        s.dev.heads[(0 : Head)].search = none ∧ (∀ l : Fin 5, s.dev.heads[(0 : Head)].loops[l].again = false)) ∧
    (let s := wd [] fun d => d.onHead 0 fun h => { h with lanes := false }; s.dev.engineHalted 0 = false ∧
        s.dev.heads[(0 : Head)].grouped = false ∧ s.dev.cue.glBeat < 2 ∧ s.dev.chainElapsed (headLine 5 0) < 2 ∧
        (s.dev.holdTest 0 (s.dev.signals 0 ({ lanes := [], bad := true })) true).heads[(0 : Head)].frozen = true ∧
        s.dev.heads[(0 : Head)].jump = none ∧ s.dev.heads[(0 : Head)].seek = none ∧
        s.dev.heads[(0 : Head)].search = none ∧ (∀ l : Fin 5, s.dev.heads[(0 : Head)].loops[l].again = false)) ∧
    (let s := wd [(rLoopCtl 0 0, 1), (rLoopLimit 0 0, 0x8001_7FFF), (rLoopSlew 0 0, 4), (rLoopOut 0 0, 0x7FFF)] fun d => d.onHead 0 fun h => { h with focusClosed := true };
        s.dev.engineHalted 0 = false ∧ s.dev.heads[(0 : Head)].grouped = false ∧ s.dev.cue.glBeat < 2 ∧
        s.dev.chainElapsed (headLine 5 0) < 2 ∧
        (s.dev.holdTest 0 (s.dev.signals 0 ({ lanes := [], bad := false })) false).heads[(0 : Head)].frozen = false ∧
        s.dev.heads[(0 : Head)].focusClosed = true ∧ s.dev.flag (rLoopCtl 0 0) 0 = true ∧
        s.dev.sfld (rLoopLimit 0 0) 16 16 ≤ s.dev.lastCode 0 0 ∧
        s.dev.lastCode 0 0 ≤ s.dev.sfld (rLoopLimit 0 0) 0 16) ∧
    (let s := wd [(rLoopSlew 0 0, 0xFFF0_0004)] fun d => { d.onHead 0 fun h => { h with rampFrom := some (5, 6) } with cue.glBeat := 11, cue.banks := Vector.replicate 2 { CueImage.empty with glRamp := 10 } };
        s.dev.engineHalted 0 = false ∧ s.dev.heads[(0 : Head)].grouped = false ∧ 2 ≤ s.dev.cue.glBeat ∧
        s.dev.heads[(0 : Head)].rampFrom = some (5, 6) ∧ 0 < s.dev.image.glRamp ∧
        s.dev.image.glRamp < s.dev.cue.glBeat) ∧
    (let s := wd [] fun d => d.onHead 0 fun h => { h with quals := (9, 2) }; s.dev.heads[(0 : Head)].hold = none ∧
        2 ≤ s.dev.heads[(0 : Head)].quals.2) ∧
    (let s := wd [] fun d => d.onHead 0 fun h => { h with quals := (9, 1) }; s.dev.heads[(0 : Head)].quals.2 < 2) ∧
    (let s := wd [] fun d => d.onHead 0 fun h => { h with quals := (9, 2), hold := some { beats := 0, raised := false, first := 0, ended := false } };
        s.dev.heads[(0 : Head)].hold ≠ none) ∧
    (let s := wd [(rSrvStat 0, 0x11)] fun d => d.onHead 0 fun h => { h with hold := some { beats := 160, raised := true, first := 0, ended := true } };
        s.dev.heads[(0 : Head)].hold = some { beats := 160, raised := true, first := 0, ended := true }) ∧
    (let s := wd [(rSrvStat 0, 0x11)] fun d => d.onHead 0 fun h => { h with hold := some { beats := 160, raised := true, first := 0, ended := false } };
        s.dev.heads[(0 : Head)].hold = some { beats := 160, raised := true, first := 0, ended := false }) ∧
    (let s := wd [] fun d => { d.onHead 0 fun h => { h with groupBeat := 159, hold := some { beats := 160, raised := false, first := 0, ended := false } } with cue.beat := 159 };
        s.dev.holdLong 0 = true) ∧
    (let s := wd [] fun d => d.onHead 0 fun h => { h with hold := some { beats := 160, raised := true, first := 0, ended := false } };
        s.dev.heads[(0 : Head)].hold = some { beats := 160, raised := true, first := 0, ended := false } ∧
        s.dev.heads[(0 : Head)].limitBeats = 0) ∧
    (let s := wd [(rWrpStat 0, 1), (rHoldCfg 0, 0x1000)] fun d => d.onHead 0 fun h => { h with hold := some { beats := 16, raised := false, first := 0, ended := false } };
        s.dev.heads[(0 : Head)].hold = some { beats := 16, raised := false, first := 0, ended := false } ∧
        s.dev.flag (rWrpStat 0) 0 = true ∧ s.dev.fld (rHoldCfg 0) 8 8 ≤ 16) ∧
    (let s := wd [(rWrpStat 0, 1), (rHoldCfg 0, 0x1000)] fun d => d.onHead 0 fun h => { h with hold := some { beats := 15, raised := false, first := 0, ended := false } };
        s.dev.heads[(0 : Head)].hold = some { beats := 15, raised := false, first := 0, ended := false } ∧
        15 < s.dev.fld (rHoldCfg 0) 8 8) ∧
    (let s := wd [(rLoopCtl 0 0, 1)] fun d => d.onHead 0 fun h => { h with good := #v[64, 0, 0], focusClosed := true, search := some 9 };
        s.dev.heads[(0 : Head)].frozen = false ∧ 64 ≤ s.dev.heads[(0 : Head)].good[0] ∧
        s.dev.heads[(0 : Head)].focusClosed = true ∧ s.dev.flag (rLoopCtl 0 0) 0 = true ∧
        s.dev.heads[(0 : Head)].search ≠ none) ∧
    (let s := wd [(rLoopCtl 0 0, 1)] fun d => d.onHead 0 fun h => { h with good := #v[63, 0, 0], focusClosed := true };
        s.dev.heads[(0 : Head)].frozen = false ∧ s.dev.heads[(0 : Head)].good[0] < 64) ∧
    (let s := wd [(rLoopCtl 0 0, 1)] fun d => d.onHead 0 fun h => { h with good := #v[64, 0, 0], focusClosed := false };
        s.dev.heads[(0 : Head)].frozen = false ∧ s.dev.heads[(0 : Head)].focusClosed = false) ∧
    (let s := wd [(rSrvStat 0, 7)] fun d => d.onHead 0 fun h => { h with good := #v[0, 0, 256] };
        s.dev.heads[(0 : Head)].frozen = false ∧ 256 ≤ s.dev.heads[(0 : Head)].good[2] ∧
        s.dev.flag (rSrvStat 0) 2 = true) ∧
    (let s := wd [(rSrvStat 0, 0x23)] fun d => d.onHead 0 fun h => { h with good := #v[0, 64, 0], bandOk := true, trackClosed := true, seek := some { layer := 0, turn := 5, attempt := 1, start := 0, stage := 3, timer := 0, code := 0 } };
        s.dev.heads[(0 : Head)].frozen = false ∧ 64 ≤ s.dev.heads[(0 : Head)].good[1] ∧
        s.dev.heads[(0 : Head)].bandOk = true ∧ s.dev.heads[(0 : Head)].trackClosed = true ∧
        s.dev.flag (rSrvStat 0) 1 = true ∧ s.dev.heads[(0 : Head)].seek ≠ none) ∧
    (let s := wd [(rSrvStat 0, 0xF)] fun d => d.onHead 0 fun h => { h with bad := #v[0, 8, 0] };
        s.dev.heads[(0 : Head)].frozen = false ∧ 8 ≤ s.dev.heads[(0 : Head)].bad[1]) ∧
    (let s := wd [(rSrvStat 0, 0xF)] fun d => d.onHead 0 fun h => { h with hold := some { beats := 0, raised := true, first := 0, ended := false }, good := #v[256, 256, 256], bad := #v[256, 256, 256] };
        s.dev.heads[(0 : Head)].frozen = true) := by
  refine ⟨?_, ?_, ?_, ?_, ?_, ?_, ?_, ?_, ?_, ?_, ?_, ?_, ?_, ?_, ?_, ?_, ?_, ?_, ?_, ?_, ?_, ?_⟩ <;> decide

/-- The hypotheses of SeeksAndJumps are met. -/
theorem witness_SeeksAndJumps :
    (let s := ws [(rSrvStat 0, 1), (rTopMode, 1), (rJumpCfg 0, 0x0300_0020)]; s.dev.inService 0 = true ∧
        s.dev.ghostLight = false ∧ s.dev.ladderAllows 0 0 0 = true ∧ s.dev.layerOf 0 = 0 ∧ s.dev.turnNow 0 = 0 ∧
        s.dev.fld (rJumpCfg 0) 0 8 = 32) ∧
    (let s := ws [(rSrvStat 0, 1), (rTopMode, 1), (rJumpCfg 0, 0x0300_0020)]; s.dev.inService 0 = true ∧
        s.dev.ghostLight = false ∧ s.dev.ladderAllows 0 0 32 = true ∧ s.dev.layerOf 0 = 0 ∧ s.dev.turnNow 0 = 0 ∧
        s.dev.fld (rJumpCfg 0) 0 8 = 32) ∧
    (let s := ws [(rSrvStat 0, 1), (rTopMode, 1), (rJumpCfg 0, 0x0300_0020)]; s.dev.inService 0 = true ∧
        s.dev.ghostLight = false ∧ s.dev.ladderAllows 0 0 33 = true ∧ s.dev.layerOf 0 = 0 ∧ s.dev.turnNow 0 = 0 ∧
        s.dev.fld (rJumpCfg 0) 0 8 = 32) ∧
    (let s := ws [(rSrvStat 0, 1), (rTopMode, 1), (rJumpCfg 0, 0x0300_0020)]; s.dev.inService 0 = true ∧
        s.dev.ghostLight = false ∧ s.dev.ladderAllows 0 1 0 = true ∧ s.dev.layerOf 0 = 0 ∧ s.dev.turnNow 0 = 0 ∧
        s.dev.fld (rJumpCfg 0) 0 8 = 32) ∧
    (let s := ws [(rSrvStat 0, 5), (rTopMode, 1)]; s.dev.inService 0 = true ∧ s.dev.ghostLight = false ∧
        s.dev.ladderAllows 0 0 0 = true ∧ s.dev.layerOf 0 = 0 ∧ s.dev.turnNow 0 = 0 ∧
        s.dev.flag (rSrvStat 0) 2 = true) ∧
    (let s := ws [(rSrvStat 0, 0)]; s.dev.inService 0 = false) ∧
    (let s := ws [(rSrvStat 0, 1), (rTopMode, 2)]; s.dev.ghostLight = true) ∧
    (let s := wd [(rSrvStat 0, 1), (rTopMode, 1), (rJumpCfg 0, 0x0300_0020)] fun d => d.onHead 0 fun h => { h with recover := [{ wJob with step := 3 }] };
        s.dev.ladderAllows 0 1 5 = false) ∧
    (let s := wd [(rSrvStat 0, 1), (rTopMode, 1), (rJumpCfg 0, 0x0300_0020)] fun d => { d.onHead 0 fun h => { h with seek := some { layer := 0, turn := 5, attempt := 1, start := 0, stage := 3, timer := 0, code := 0 } } with cue.act := 62 };
        s.dev.heads[(0 : Head)].seek = some { layer := 0, turn := 5, attempt := 1, start := 0, stage := 3, timer := 0, code := 0 } ∧
        s.dev.beats < 0 + 64000) ∧
    (let s := wd [(rSrvStat 0, 1), (rTopMode, 1), (rJumpCfg 0, 0x0300_0020)] fun d => { d.onHead 0 fun h => { h with seek := some { layer := 0, turn := 5, attempt := 3, start := 0, stage := 3, timer := 0, code := 0 } } with cue.act := 64 };
        s.dev.heads[(0 : Head)].seek = some { layer := 0, turn := 5, attempt := 3, start := 0, stage := 3, timer := 0, code := 0 } ∧
        0 + 64000 ≤ s.dev.beats ∧ 3 ≤ s.dev.fld (rJumpCfg 0) 24 4) ∧
    (let s := wd [(rSrvStat 0, 1), (rTopMode, 1), (rJumpCfg 0, 0x0300_0020)] fun d => { d.onHead 0 fun h => { h with seek := some { layer := 0, turn := 5, attempt := 4, start := 0, stage := 3, timer := 0, code := 0 } } with cue.act := 64 };
        s.dev.heads[(0 : Head)].seek = some { layer := 0, turn := 5, attempt := 4, start := 0, stage := 3, timer := 0, code := 0 } ∧
        0 + 64000 ≤ s.dev.beats ∧ s.dev.fld (rJumpCfg 0) 24 4 < 4) ∧
    (let s := wd [(rSrvStat 0, 1), (rTopMode, 1), (rJumpCfg 0, 0x0300_0020)] fun d => { d.onHead 0 fun h => { h with seek := some { layer := 0, turn := 5, attempt := 4, start := 0, stage := 3, timer := 0, code := 0 } } with cue.act := 0 };
        s.dev.mayJump 0 = true ∧ (-32 : Int) ≠ 0 ∧ (-32 : Int).natAbs ≤ s.dev.fld (rJumpCfg 0) 0 8 ∧
        s.dev.heads[(0 : Head)].seek ≠ none) ∧
    (let s := wd [(rSrvStat 0, 1), (rTopMode, 1), (rJumpCfg 0, 0x0300_0020)] fun d => { d.onHead 0 fun h => { h with seek := some { layer := 0, turn := 5, attempt := 4, start := 0, stage := 3, timer := 0, code := 0 } } with cue.act := 0 };
        s.dev.mayJump 0 = true ∧ (32 : Int) ≠ 0 ∧ (32 : Int).natAbs ≤ s.dev.fld (rJumpCfg 0) 0 8 ∧
        s.dev.heads[(0 : Head)].seek ≠ none) ∧
    (let s := wd [(rSrvStat 0, 1), (rTopMode, 1), (rJumpCfg 0, 0x0300_0020)] fun d => { d.onHead 0 fun h => { h with seek := some { layer := 0, turn := 5, attempt := 4, start := 0, stage := 3, timer := 0, code := 0 } } with cue.act := 0 };
        s.dev.mayJump 0 = true ∧ (2 : Layer).val ≠ s.dev.layerOf 0 ∧ s.dev.heads[(0 : Head)].seek ≠ none) ∧
    (let s := State.reset; s.dev.mayJump 0 = false) ∧
    (let s := wd [(rSrvStat 0, 3), (rTopMode, 1), (rJumpCfg 0, 0x0300_0020)] fun d => d.onHead 0 fun h => { h with trackClosed := true };
        s.dev.mayJump 0 = true ∧ s.dev.heads[(0 : Head)].trackClosed = true ∧ s.dev.flag (rSrvStat 0) 1 = true ∧
        s.dev.flag (rSrvStat 0) 2 = false ∧ (4 : Fin 8) ≠ 0) ∧
    (let s := wd [(rSrvStat 0, 3), (rTopMode, 1), (rJumpCfg 0, 0x0300_0020)] fun d => d.onHead 0 fun h => { h with trackClosed := true };
        s.dev.mayJump 0 = true ∧ s.dev.heads[(0 : Head)].trackClosed = true ∧ s.dev.flag (rSrvStat 0) 1 = true ∧
        s.dev.flag (rSrvStat 0) 2 = false ∧ (5 : Fin 8) ≠ 0) ∧
    (let s := wd [(rSrvStat 0, 3), (rTopMode, 1), (rJumpCfg 0, 0x0300_0020), (rWaddrLo 0, 0x8000_0000), (rWaddrHi 0, 5)] fun d => d.onHead 0 fun h => { h with trackClosed := true, seek := some { layer := 0, turn := 5, attempt := 1, start := 0, stage := 3, timer := 0, code := 0 } };
        s.dev.mayJump 0 = true ∧ s.dev.heads[(0 : Head)].trackClosed = true ∧ s.dev.flag (rSrvStat 0) 1 = true ∧
        s.dev.flag (rSrvStat 0) 2 = false ∧ s.dev.placed 0 = true ∧
        s.dev.heads[(0 : Head)].seek = some { layer := 0, turn := 5, attempt := 1, start := 0, stage := 3, timer := 0, code := 0 } ∧
        s.dev.turnNow 0 = 5 ∧ s.dev.fld (rWaddrHi 0) 16 4 = 0 ∧ s.dev.heads[(0 : Head)].resume = none) := by
  refine ⟨?_, ?_, ?_, ?_, ?_, ?_, ?_, ?_, ?_, ?_, ?_, ?_, ?_, ?_, ?_, ?_, ?_, ?_⟩ <;> decide

/-- The hypotheses of HeadFaultAndReinstate are met. -/
theorem witness_HeadFaultAndReinstate :
    (let s := ws [(rTopMode, 1)]; s.dev.rehearsal = false) ∧
    (let s := ws [(rTopMode, 0), (rSrvStat 0, 1)]; s.dev.inService 0 = true) ∧
    (let s := wd [(rTopMode, 0)] fun d => { d with cue.banks := Vector.replicate 2 { CueImage.empty with headTypes := 0x21 } };
        s.dev.rehearsal = true ∧ s.dev.inService 0 = false ∧ (0x21 : Byte) ≠ 0 ∧
        (0x21 : Byte).toNat = s.dev.headTypeOf 0 ∧ ~~~ (0x21 : Byte) = 0xDE ∧
        s.dev.calPassed { ok := true, failStep := 2, sweeps := none } = true) ∧
    (let s := wd [(rTopMode, 0)] fun d => { d with cue.banks := Vector.replicate 2 { CueImage.empty with headTypes := 0x21 } };
        s.dev.rehearsal = true ∧ s.dev.inService 0 = false ∧ (0x21 : Byte).toNat = s.dev.headTypeOf 0 ∧
        s.dev.calPassed { ok := false, failStep := 2, sweeps := none } = false) ∧
    (let s := wd [(rTopMode, 0)] fun d => { d with cue.banks := Vector.replicate 2 { CueImage.empty with headTypes := 0x21 } };
        s.dev.rehearsal = true ∧ s.dev.inService 0 = false ∧ True) ∧
    (let s := wd [(rTopMode, 0)] fun d => { d with cue.banks := Vector.replicate 2 { CueImage.empty with headTypes := 0x21 } };
        s.dev.rehearsal = true ∧ s.dev.inService 0 = false ∧ (0x22 : Byte).toNat ≠ s.dev.headTypeOf 0 ∧
        ~~~ (0x22 : Byte) = 0xDD) := by
  refine ⟨?_, ?_, ?_, ?_, ?_, ?_⟩ <;> decide

/-- The hypotheses of BusAndPwmPeriods are met. -/
theorem witness_BusAndPwmPeriods :
    (let s := wd [(rVbusLimit, 0x0FFF_0000), (rRamp, 0x0005_0007), (rChopCfg, 0x9_0200), (rCueStatus, 1)] fun d => { d with pwr.forced := true };
        s.dev.outputsHeld = true) ∧
    (let s := wd [(rVbusLimit, 0x0FFF_0000), (rRamp, 0x0005_0007), (rChopCfg, 0x9_0200), (rCueStatus, 1)] fun d => { d with cue.beat := 19 };
        s.dev.beats % 20 ≠ 0) ∧
    (let s := wd [(rVbusLimit, 0x0FFF_0000), (rRamp, 0x0005_0007), (rChopCfg, 0x9_0200), (rCueStatus, 1)] fun d => { d with spn.zeroBeat := some 0 };
        s.dev.spn.zeroBeat = some s.dev.beats) ∧
    (let s := wd [(rVbusLimit, 0x0FFF_0000), (rRamp, 0x0005_0007), (rChopCfg, 0x9_0200), (rCueStatus, 1)] fun d => { d with cue.beat := 9 };
        s.dev.beats % 20 ≠ 10) ∧
    (let s := wd [(rVbusLimit, 0x0FFF_0000), (rRamp, 0x0005_0007), (rChopCfg, 0x9_0200), (rCueStatus, 1)] fun d => { d with cue.beat := 10, spn.peakBeat := some 10 };
        s.dev.spn.peakBeat = some s.dev.beats) ∧
    (let s := wd [(rVbusLimit, 0x0FFF_0000), (rRamp, 0x0005_0007), (rChopCfg, 0x9_0200), (rCueStatus, 1), (rSpnStat, 2)] fun d => { d with spn.driven := true };
        s.dev.fabric = true ∧ s.dev.outputsHeld = false ∧ s.dev.beats % 20 = 0 ∧
        s.dev.spn.zeroBeat ≠ some s.dev.beats ∧ s.dev.fld rVbusLimit 16 16 ≤ 4095 ∧ s.dev.turning = true ∧
        s.dev.spn.off ≠ 1) ∧
    (let s := wd [(rVbusLimit, 0x0FFF_0000), (rRamp, 0x0005_0007), (rChopCfg, 0x9_0200), (rCueStatus, 1), (rSpnStat, 2)] fun d => { d with spn.driven := true };
        s.dev.fabric = true ∧ s.dev.outputsHeld = false ∧ s.dev.beats % 20 = 0 ∧
        s.dev.spn.zeroBeat ≠ some s.dev.beats ∧ 1499 < s.dev.fld rVbusLimit 16 16 ∧ s.dev.turning = true) ∧
    (let s := wd [(rVbusLimit, 0x0FFF_0000), (rRamp, 0x0005_0007), (rChopCfg, 0x9_0200), (rCueStatus, 1), (rSpnStat, 2)] fun d => { d with spn.nextCompare := #v[7, 8, 9] };
        s.dev.fabric = true ∧ s.dev.outputsHeld = false ∧ s.dev.beats % 20 = 0 ∧
        s.dev.spn.zeroBeat ≠ some s.dev.beats ∧ 1500 < s.dev.fld rVbusLimit 16 16 ∧ s.dev.spn.chopBad = false) ∧
    (let s := wd [(rVbusLimit, 0x0FFF_0000), (rRamp, 0x0005_0007), (rChopCfg, 0x9_0200), (rCueStatus, 1), (rSpnStat, 2)] fun d => { d with spn.nextCompare := #v[7, 8, 9] };
        s.dev.fabric = true ∧ s.dev.outputsHeld = false ∧ s.dev.beats % 20 = 0 ∧
        s.dev.spn.zeroBeat ≠ some s.dev.beats ∧ 4094 < s.dev.fld rVbusLimit 16 16 ∧ s.dev.spn.chopBad = false) ∧
    (let s := wd [(rVbusLimit, 0x0FFF_0000), (rRamp, 0x0005_0007), (rChopCfg, 0x9_0200), (rCueStatus, 1), (rSpnStat, 3)] fun d => { d with spn.off := 1, spn.busSince := some 0, cue.act := 0, cue.beat := 800 };
        s.dev.outputsHeld = false ∧ s.dev.spnState = 3 ∧ s.dev.spn.busSince = some 0 ∧ s.dev.spn.off = 1 ∧
        0 + 800 ≤ s.dev.beats) ∧
    (let s := wd [(rVbusLimit, 0x0FFF_0000), (rRamp, 0x0005_0007), (rChopCfg, 0x9_0200), (rCueStatus, 1), (rSpnStat, 3)] fun d => { d with spn.off := 2, spn.busSince := some 0, cue.act := 7, cue.beat := 832 };
        s.dev.outputsHeld = false ∧ s.dev.spnState = 3 ∧ s.dev.spn.busSince = some 0 ∧ s.dev.spn.off = 2 ∧
        0 + 8000 ≤ s.dev.beats) ∧
    (let s := ws [(rVbusLimit, 0x0FFF_0000), (rRamp, 0x0005_0007), (rChopCfg, 0x9_0200), (rCueStatus, 1), (rSpnStat, 2)];
        s.dev.spnState ≠ 3) ∧
    (let s := ws [(rVbusLimit, 0x0FFF_0000), (rRamp, 0x0005_0007), (rChopCfg, 0x9_0200), (rCueStatus, 1), (rSpnStat, 3)];
        s.dev.spn.busSince = none) ∧
    (let s := wd [(rVbusLimit, 0x0FFF_0000), (rRamp, 0x0005_0007), (rChopCfg, 0x9_0200), (rCueStatus, 1), (rSpnStat, 2)] fun d => { d with spn.driven := true, spn.openRun := 4 };
        s.dev.chopperMet .openCircuit = true) ∧
    (let s := wd [(rVbusLimit, 0x0FFF_0000), (rRamp, 0x0005_0007), (rChopCfg, 0x9_0200), (rCueStatus, 1), (rSpnStat, 2)] fun d => { d with spn.driven := true, spn.stuckRun := 4 };
        s.dev.chopperMet .stuckOn = true) ∧
    (let s := wd [(rVbusLimit, 0x0FFF_0000), (rRamp, 0x0005_0007), (rChopCfg, 0x9_0200), (rCueStatus, 1), (rSpnStat, 2)] fun d => { d with spn.driven := true, spn.weakSince := some 0, cue.act := 2 };
        s.dev.chopperMet .ineffective = true) ∧
    (let s := wd [(rVbusLimit, 0x0FFF_0000), (rRamp, 0x0005_0007), (rChopCfg, 0x9_0200), (rCueStatus, 1), (rSpnStat, 2)] fun d => { d with spn.openRun := 3 };
        s.dev.chopperMet .openCircuit = false) ∧
    (let s := wd [(rVbusLimit, 0x0FFF_0000), (rRamp, 0x0005_0007), (rChopCfg, 0x9_0200), (rCueStatus, 1), (rSpnStat, 2)] fun d => { d with spn.stuckRun := 3 };
        s.dev.chopperMet .stuckOn = false) ∧
    (let s := wd [(rVbusLimit, 0x0FFF_0000), (rRamp, 0x0005_0007), (rChopCfg, 0x9_0200), (rCueStatus, 1), (rSpnStat, 2)] fun d => { d with spn.weakSince := some 0, cue.act := 1 };
        s.dev.chopperMet .ineffective = false) ∧
    (let s := wd [(rVbusLimit, 0x0FFF_0000), (rRamp, 0x0005_0007), (rChopCfg, 0x9_0200), (rCueStatus, 1), (rSpnStat, 4)] fun d => { d with cue.beat := 10 };
        s.dev.fabric = true ∧ s.dev.outputsHeld = false ∧ s.dev.beats % 20 = 10 ∧
        s.dev.spn.peakBeat ≠ some s.dev.beats ∧ 3000 < s.dev.fld rVbusLimit 16 16 ∧ s.dev.spnState ≠ 2 ∧
        s.dev.spn.driven = false) ∧
    (let s := wd [(rVbusLimit, 0x0FFF_0000), (rRamp, 0x0005_0007), (rChopCfg, 0x9_0200), (rCueStatus, 1), (rSpnStat, 2), (rSpnSpeed, 65601536), (rSpeedCmd, 4229366760)] fun d => { d with spn.setpt := 10000000, cue.beat := 10 };
        s.dev.fabric = true ∧ s.dev.outputsHeld = false ∧ s.dev.beats % 20 = 10 ∧
        s.dev.spn.peakBeat ≠ some s.dev.beats ∧ 3000 < s.dev.fld rVbusLimit 16 16 ∧ s.dev.spnState = 2 ∧
        s.dev.engineHalted 1 = false ∧ s.dev.beats / 20 % 4 = 0 ∧ s.dev.pairHolds rSpeedCmd = true ∧
        s.dev.fld rSpeedCmd 0 16 = (quot s.dev.spn.setpt 10000).toNat ∧ 0 < s.dev.targetNow) ∧
    (let s := wd [(rVbusLimit, 0x0FFF_0000), (rRamp, 0x0005_0007), (rChopCfg, 0x9_0200), (rCueStatus, 1), (rSpnStat, 2), (rSpnSpeed, 65536000), (rSpeedCmd, 4229301225)] fun d => { d with spn.setpt := 10010000, cue.beat := 10 };
        s.dev.fabric = true ∧ s.dev.outputsHeld = false ∧ s.dev.beats % 20 = 10 ∧
        s.dev.spn.peakBeat ≠ some s.dev.beats ∧ 3000 < s.dev.fld rVbusLimit 16 16 ∧ s.dev.spnState = 2 ∧
        s.dev.engineHalted 1 = false ∧ s.dev.beats / 20 % 4 = 0 ∧ s.dev.pairHolds rSpeedCmd = true ∧
        s.dev.fld rSpeedCmd 0 16 = (quot s.dev.spn.setpt 10000).toNat ∧ 0 < s.dev.targetNow) ∧
    (let s := wd [(rVbusLimit, 0x0FFF_0000), (rRamp, 0x0005_0007), (rChopCfg, 0x9_0200), (rCueStatus, 1), (rSpnStat, 2), (rSpnSpeed, 65536000), (rSpeedCmd, 4229366760)] fun d => { d with spn.setpt := 10000000, cue.beat := 10 };
        s.dev.fabric = true ∧ s.dev.outputsHeld = false ∧ s.dev.beats % 20 = 10 ∧
        s.dev.spn.peakBeat ≠ some s.dev.beats ∧ 3000 < s.dev.fld rVbusLimit 16 16 ∧ s.dev.spnState = 2 ∧
        s.dev.engineHalted 1 = false ∧ s.dev.beats / 20 % 4 = 0 ∧ s.dev.pairHolds rSpeedCmd = true ∧
        s.dev.fld rSpeedCmd 0 16 = (quot s.dev.spn.setpt 10000).toNat ∧ 0 < s.dev.targetNow) := by
  refine ⟨?_, ?_, ?_, ?_, ?_, ?_, ?_, ?_, ?_, ?_, ?_, ?_, ?_, ?_, ?_, ?_, ?_, ?_, ?_, ?_, ?_, ?_, ?_⟩ <;> decide

/-- The hypotheses of SpindleStartsAndLosses are met. -/
theorem witness_SpindleStartsAndLosses :
    (let s := wd [(rVbusLimit, 0x0FFF_0000), (rRamp, 0x0005_0007), (rChopCfg, 0x9_0200), (rCueStatus, 1), (rSpnStat, 1), (rStartCfg, 0x1_2C01)] fun d => { d with spn.phase := 1, cue.act := 8 };
        s.dev.spnState = 1 ∧ s.dev.spn.phase = 1 ∧ s.dev.spnPast (s.dev.fld rStartCfg 0 8 * 8000) = true) ∧
    (let s := wd [(rVbusLimit, 0x0FFF_0000), (rRamp, 0x0005_0007), (rChopCfg, 0x9_0200), (rCueStatus, 1), (rSpnStat, 1), (rStartCfg, 0x1_2C01)] fun d => { d with spn.phase := 1, cue.act := 7 };
        s.dev.spnPast (s.dev.fld rStartCfg 0 8 * 8000) = false) ∧
    (let s := wd [(rVbusLimit, 0x0FFF_0000), (rRamp, 0x0005_0007), (rChopCfg, 0x9_0200), (rCueStatus, 1), (rSpnStat, 1), (rStartCfg, 0x1_2C00)] fun d => { d with spn.phase := 2, spn.ramp := 3000000, spn.obs.good := 20, spn.obs.near := 20 };
        s.dev.spnState = 1 ∧ s.dev.spn.phase = 2 ∧ s.dev.spn.ramp = s.dev.fld rStartCfg 8 12 * 10000 ∧
        20 ≤ s.dev.spn.obs.good ∧ 20 ≤ s.dev.spn.obs.near) ∧
    (let s := wd [(rVbusLimit, 0x0FFF_0000), (rRamp, 0x0005_0007), (rChopCfg, 0x9_0200), (rCueStatus, 1), (rSpnStat, 1), (rStartCfg, 0x1_2C00)] fun d => { d with spn.phase := 2, spn.ramp := 3000000, spn.startFails := 1, cue.act := 79 };
        s.dev.spnState = 1 ∧ s.dev.spn.phase = 2 ∧ s.dev.spn.ramp = s.dev.fld rStartCfg 8 12 * 10000 ∧
        s.dev.spnPast 80000 = true ∧ s.dev.spn.startFails < 2) ∧
    (let s := wd [(rVbusLimit, 0x0FFF_0000), (rRamp, 0x0005_0007), (rChopCfg, 0x9_0200), (rCueStatus, 1), (rSpnStat, 1), (rStartCfg, 0x1_2C00)] fun d => { d with spn.phase := 2, spn.ramp := 3000000, spn.startFails := 2, cue.act := 79 };
        s.dev.spnState = 1 ∧ s.dev.spn.phase = 2 ∧ s.dev.spn.ramp = s.dev.fld rStartCfg 8 12 * 10000 ∧
        s.dev.spnPast 80000 = true ∧ 2 ≤ s.dev.spn.startFails) ∧
    (let s := wd [(rVbusLimit, 0x0FFF_0000), (rRamp, 0x0005_0007), (rChopCfg, 0x9_0200), (rCueStatus, 1), (rSpnStat, 1), (rStartCfg, 0x1_2C00)] fun d => { d with spn.phase := 2, spn.ramp := 3000000, cue.act := 78 };
        s.dev.spnState = 1 ∧ s.dev.spn.phase = 2 ∧ s.dev.spn.ramp = s.dev.fld rStartCfg 8 12 * 10000 ∧
        s.dev.spnPast 80000 = false) ∧
    (let s := wd [(rVbusLimit, 0x0FFF_0000), (rRamp, 0x0005_0007), (rChopCfg, 0x9_0200), (rCueStatus, 1), (rSpnStat, 1)] fun d => { d with spn.phase := 3, cue.act := 1563 };
        s.dev.spnState = 1 ∧ s.dev.spn.phase = 3 ∧ s.dev.spnPast 1600000 = true ∧ s.dev.turnsStill 3000 0 0 = true) ∧
    (let s := wd [(rVbusLimit, 0x0FFF_0000), (rRamp, 0x0005_0007), (rChopCfg, 0x9_0200), (rCueStatus, 1), (rSpnStat, 1)] fun d => { d with spn.phase := 3, cue.act := 1563 };
        s.dev.spnState = 1 ∧ s.dev.spn.phase = 3 ∧ s.dev.spnPast 1600000 = true ∧ s.dev.turnsStill 0 0 0 = false) ∧
    (let s := wd [(rVbusLimit, 0x0FFF_0000), (rRamp, 0x0005_0007), (rChopCfg, 0x9_0200), (rCueStatus, 1), (rSpnStat, 3), (rRecatchCfg, 0x10_0000)] fun d => { d with spn.off := 3, spn.stillSince := some 0, cue.act := 1 };
        s.dev.spnState = 3 ∧ s.dev.spn.off = 3 ∧ s.dev.hq.cmds = [] ∧ s.dev.spn.stillSince = some 0 ∧
        max 0 s.dev.spn.since + s.dev.fld rRecatchCfg 20 12 * 800 ≤ s.dev.beats) ∧
    (let s := wd [(rVbusLimit, 0x0FFF_0000), (rRamp, 0x0005_0007), (rChopCfg, 0x9_0200), (rCueStatus, 1), (rSpnStat, 3)] fun d => { d with spn.off := 3 };
        s.dev.spnState = 3 ∧ s.dev.spn.off = 3 ∧ s.dev.spn.stillSince = none) ∧
    (let s := wd [(rVbusLimit, 0x0FFF_0000), (rRamp, 0x0005_0007), (rChopCfg, 0x9_0200), (rCueStatus, 1), (rSpnStat, 4), (rSpnSpeed, 0x3E8_0000), (rRecatchCfg, 0x10_0000)] fun d => { d with spn.still := true, cue.act := 1 };
        s.dev.spnState = 4 ∧ s.dev.spn.still = true ∧ 0 < s.dev.targetNow ∧
        s.dev.spnPast (s.dev.fld rRecatchCfg 20 12 * 800) = true) ∧
    (let s := wd [(rVbusLimit, 0x0FFF_0000), (rRamp, 0x0005_0007), (rChopCfg, 0x9_0200), (rCueStatus, 1), (rSpnStat, 4)] fun d => { d with spn.lines := some (10, 20, 30), spn.sampled := some 0, cue.beat := 4, spn.crossings := [(5, 2), (4, 1)] };
        s.dev.spnState = 4 ∧ s.dev.flag rSpnStat 11 = false ∧ s.dev.spn.still = false ∧ s.dev.spn.driven = false ∧
        s.dev.engineHalted 1 = false ∧ s.dev.spn.sampled = some 0 ∧ 0 + 4 ≤ s.dev.beats ∧
        s.dev.spn.lines = some (10, 20, 30) ∧ newCrossings (10, 20, 30) (20, 10, 30) ≠ []) ∧
    (let s := ws [(rVbusLimit, 0x0FFF_0000), (rRamp, 0x0005_0007), (rChopCfg, 0x9_0200), (rCueStatus, 1), (rSpnStat, 4)];
        s.dev.spnState = 4 ∧ s.dev.flag rSpnStat 11 = false ∧ s.dev.spn.still = false ∧ s.dev.attemptStands = 0) ∧
    (let s := wd [(rVbusLimit, 0x0FFF_0000), (rRamp, 0x0005_0007), (rChopCfg, 0x9_0200), (rCueStatus, 1), (rSpnStat, 4), (rSpnSpeed, 900)] fun d => { d with spn.driven := true, spn.obs.good := 20 };
        s.dev.spnState = 4 ∧ s.dev.flag rSpnStat 11 = false ∧ s.dev.spn.still = false ∧ s.dev.attemptStands = 1) ∧
    (let s := wd [(rVbusLimit, 0x0FFF_0000), (rRamp, 0x0005_0007), (rChopCfg, 0x9_0200), (rCueStatus, 1), (rSpnStat, 0x2004)] fun d => { d with spn.muddled := true };
        s.dev.spnState = 4 ∧ s.dev.flag rSpnStat 11 = false ∧ s.dev.spn.still = false ∧ s.dev.attemptStands = 2 ∧
        s.dev.spn.phase ≠ 4 ∧ s.dev.fld rSpnStat 13 2 < 2) ∧
    (let s := wd [(rVbusLimit, 0x0FFF_0000), (rRamp, 0x0005_0007), (rChopCfg, 0x9_0200), (rCueStatus, 1), (rSpnStat, 4)] fun d => { d with cue.act := 16 };
        s.dev.spnState = 4 ∧ s.dev.flag rSpnStat 11 = false ∧ s.dev.spn.still = false ∧ s.dev.attemptStands = 3 ∧
        s.dev.spn.phase ≠ 4) ∧
    (let s := wd [(rVbusLimit, 0x0FFF_0000), (rRamp, 0x0005_0007), (rChopCfg, 0x9_0200), (rCueStatus, 1), (rSpnStat, 0x2002), (rObsCfg, 0x100_0000)] fun d => { d with spn.driven := true, spn.obs.lost := 40 };
        (s.dev.spnState = 2 ∨ s.dev.spnState = 4) ∧ s.dev.spn.driven = true ∧
        s.dev.fld rObsCfg 24 8 * 40 ≤ s.dev.spn.obs.lost ∧ s.dev.fld rSpnStat 13 2 < 2) ∧
    (let s := wd [(rVbusLimit, 0x0FFF_0000), (rRamp, 0x0005_0007), (rChopCfg, 0x9_0200), (rCueStatus, 1), (rSpnStat, 0x4004), (rObsCfg, 0x100_0000)] fun d => { d with spn.driven := true, spn.obs.lost := 40 };
        (s.dev.spnState = 2 ∨ s.dev.spnState = 4) ∧ s.dev.spn.driven = true ∧
        s.dev.fld rObsCfg 24 8 * 40 ≤ s.dev.spn.obs.lost ∧ 2 ≤ s.dev.fld rSpnStat 13 2) ∧
    (let s := wd [(rVbusLimit, 0x0FFF_0000), (rRamp, 0x0005_0007), (rChopCfg, 0x9_0200), (rCueStatus, 1), (rSpnStat, 2), (rObsCfg, 0x100_0000)] fun d => { d with spn.driven := true, spn.obs.lost := 39 };
        (s.dev.spnState = 2 ∨ s.dev.spnState = 4) ∧ s.dev.spn.driven = true ∧
        s.dev.spn.obs.lost < s.dev.fld rObsCfg 24 8 * 40) ∧
    (let s := wd [(rVbusLimit, 0x0FFF_0000), (rRamp, 0x0005_0007), (rChopCfg, 0x9_0200), (rCueStatus, 1)] fun d => { d with spn.driven := true };
        s.dev.turning = false) ∧
    (let s := wd [(rVbusLimit, 0x0FFF_0000), (rRamp, 0x0005_0007), (rChopCfg, 0x9_0200), (rCueStatus, 1), (rSpnStat, 2)] fun d => { d with spn.driven := true };
        s.dev.spnState = 2 ∧ s.dev.fld rSpnStat 13 2 < 2) ∧
    (let s := wd [(rVbusLimit, 0x0FFF_0000), (rRamp, 0x0005_0007), (rChopCfg, 0x9_0200), (rCueStatus, 1), (rSpnStat, 0x4002)] fun d => { d with cue.act := 782 };
        s.dev.spnState = 2 ∧ s.dev.spnPast 800000 = true) ∧
    (let s := wd [(rVbusLimit, 0x0FFF_0000), (rRamp, 0x0005_0007), (rChopCfg, 0x9_0200), (rCueStatus, 1), (rSpnStat, 0x4002)] fun d => { d with cue.act := 781 };
        s.dev.spnPast 800000 = false) ∧
    (let s := wd [(rVbusLimit, 0x0FFF_0000), (rRamp, 0x0005_0007), (rChopCfg, 0x9_0200), (rCueStatus, 1), (rSpnStat, 5)] fun d => { d with spn.lowSince := some 0, cue.act := 782 };
        s.dev.spnState = 5 ∧ s.dev.spn.lowSince = some 0 ∧ 0 + 800000 ≤ s.dev.beats) ∧
    (let s := wd [(rVbusLimit, 0x0FFF_0000), (rRamp, 0x0005_0007), (rChopCfg, 0x9_0200), (rCueStatus, 1), (rSpnStat, 5)] fun d => { d with spn.lowSince := some 0, cue.act := 781 };
        s.dev.spn.lowSince = some 0 ∧ s.dev.beats < 0 + 800000) := by
  refine ⟨?_, ?_, ?_, ?_, ?_, ?_, ?_, ?_, ?_, ?_, ?_, ?_, ?_, ?_, ?_, ?_, ?_, ?_, ?_, ?_, ?_, ?_, ?_, ?_, ?_⟩ <;>
    decide

/-- The hypotheses of AuxiliaryMotors are met. -/
theorem witness_AuxiliaryMotors :
    (let s := wd [(rAuxStat 0, 0), (rAuxPos 0, 5)] fun d => { d with cue.beat := 3 };
        ((1, (3 : BitVec 3)) ∈ [(0, (1 : BitVec 3)), (1, 3), (2, 2), (3, 6), (4, 4), (5, 5)]) ∧
        s.dev.fld (rAuxStat 0) 0 3 = 0) ∧
    (let s := wd [(rAuxStat 0, 0), (rAuxPos 0, 5)] fun d => { d with cue.beat := 3 };
        ((5, (5 : BitVec 3)) ∈ [(0, (1 : BitVec 3)), (1, 3), (2, 2), (3, 6), (4, 4), (5, 5)]) ∧
        s.dev.fld (rAuxStat 0) 0 3 = 0) ∧
    (let s := wd [(rAuxStat 0, 0), (rAuxPos 0, 5)] fun d => { d with cue.beat := 3 };
        ((3, (6 : BitVec 3)) ∈ [(0, (1 : BitVec 3)), (1, 3), (2, 2), (3, 6), (4, 4), (5, 5)]) ∧
        s.dev.fld (rAuxStat 0) 0 3 = 0) ∧
    ((0 : BitVec 3) = 0 ∨ (0 : BitVec 3) = 7) ∧
    ((7 : BitVec 3) = 0 ∨ (7 : BitVec 3) = 7) ∧
    (let s := wd [(rCueStatus, 1), (rAuxCtl 0, 0x100_0001), (rAuxLimit 0, 0x1_0200), (rAuxSpeed 0, 0x10_0000), (rAuxTarget 0, 5000), (rAuxCfg 0, 0)] fun d => { d.onAux 0 fun a => { a with moving := true } with sampled := [(rAuxCtl 0, 0x100_0001)] };
        s.dev.fabric = true ∧ s.dev.auxOn 0 = true ∧ s.dev.engineHalted 1 = false ∧
        s.dev.beats % 20 = s.dev.fld (rAuxCfg 0) 16 16 / 1250 % 20 ∧ s.dev.aux[(0 : Aux)].period ≠ some s.dev.beats ∧
        s.dev.aux[(0 : Aux)].moving = true) ∧
    (let s := wd [(rCueStatus, 1), (rAuxCtl 0, 0x100_0001), (rAuxLimit 0, 0x1_0200), (rAuxSpeed 0, 0x10_0000), (rAuxTarget 0, 5000), (rAuxCfg 0, 0)] fun d => { d.onAux 0 fun a => { a with quietSince := 1 } with sampled := [(rAuxCtl 0, 0x100_0001)], cue.act := 8 };
        s.dev.auxOn 0 = true ∧ 0 < s.dev.fld (rAuxSpeed 0) 16 16 ∧
        s.dev.aux[(0 : Aux)].quietSince + s.dev.fld (rAuxLimit 0) 16 8 * 10000000 ≤ s.dev.beats * 1250) ∧
    (let s := wd [(rCueStatus, 1), (rAuxCtl 0, 0x100_0001), (rAuxLimit 0, 0x1_0200), (rAuxSpeed 0, 0x10_0000), (rAuxTarget 0, 5000), (rAuxCfg 0, 0)] fun d => { d.onAux 0 fun a => { a with quietSince := 1 } with sampled := [(rAuxCtl 0, 0x100_0001)], cue.act := 7 };
        s.dev.auxOn 0 = true ∧ 0 < s.dev.fld (rAuxSpeed 0) 16 16 ∧
        s.dev.beats * 1250 < s.dev.aux[(0 : Aux)].quietSince + s.dev.fld (rAuxLimit 0) 16 8 * 10000000) ∧
    (let s := wd [(rAuxCtl 0, 1)] fun d => d.onAux 0 fun a => { a with latched := true };
        s.dev.aux[(0 : Aux)].latched = true) ∧
    (let s := wd [(rAuxLimit 0, 0x100_0000)] fun d => { d.onAux 0 fun a => { a with holding := true } with cue.act := 8 };
        s.dev.aux[(0 : Fin 2)].holding = true ∧
        s.dev.aux[(0 : Fin 2)].holdSince + s.dev.fld (rAuxLimit 0) 24 8 * 8000 ≤ s.dev.beats) ∧
    (let s := wd [(rAuxLimit 0, 0x100_0000)] fun d => { d.onAux 0 fun a => { a with holding := true } with cue.act := 7 };
        s.dev.aux[(0 : Fin 2)].holding = true ∧
        s.dev.beats < s.dev.aux[(0 : Fin 2)].holdSince + s.dev.fld (rAuxLimit 0) 24 8 * 8000) := by
  refine ⟨?_, ?_, ?_, ?_, ?_, ?_, ?_, ?_, ?_, ?_, ?_⟩ <;> decide

/-- The hypotheses of AxisMovesAndStops are met. -/
theorem witness_AxisMovesAndStops :
    (let s := wd [(rAxStat 0, 1), (rAxPos 0, 10), (rAxTarget 0, 4096), (rAxVlimLo 0, 0xFFFF_F000), (rAxVlimHi 0, 0x1000)] fun d => d.onAx 0 fun a => { a with p := 10 * 2 ^ 24 };
        s.dev.axState 0 = 1 ∧ s.dev.axes[(0 : Axis)].phase = 0 ∧ s.dev.axes[(0 : Axis)].p = s.dev.axPos 0 * 2 ^ 24 ∧
        (4294963199 : W32) = ~~~ s.dev.rd (rAxTarget 0) ∧ s.dev.axUncertain 0 = false ∧
        s.dev.inLimits 0 (s.dev.rd (rAxTarget 0)).toInt = true ∧
        s.dev.towardSwitch 0 (s.dev.rd (rAxTarget 0)).toInt = false) ∧
    (let s := wd [(rAxStat 0, 1), (rAxPos 0, 10), (rAxTarget 0, 4294963200), (rAxVlimLo 0, 0xFFFF_F000), (rAxVlimHi 0, 0x1000)] fun d => d.onAx 0 fun a => { a with p := 10 * 2 ^ 24 };
        s.dev.axState 0 = 1 ∧ s.dev.axes[(0 : Axis)].phase = 0 ∧ s.dev.axes[(0 : Axis)].p = s.dev.axPos 0 * 2 ^ 24 ∧
        (4095 : W32) = ~~~ s.dev.rd (rAxTarget 0) ∧ s.dev.axUncertain 0 = false ∧
        s.dev.inLimits 0 (s.dev.rd (rAxTarget 0)).toInt = true ∧
        s.dev.towardSwitch 0 (s.dev.rd (rAxTarget 0)).toInt = false) ∧
    (let s := wd [(rAxStat 0, 1), (rAxPos 0, 10), (rAxVlimLo 0, 0xFFFF_F000), (rAxVlimHi 0, 0x1000)] fun d => d.onAx 0 fun a => { a with p := 10 * 2 ^ 24 };
        s.dev.axState 0 = 1 ∧ s.dev.axes[(0 : Axis)].phase = 0 ∧ s.dev.axes[(0 : Axis)].p = s.dev.axPos 0 * 2 ^ 24 ∧
        pairOk 16 (fget 4294574085 0 16) (fget 4294574085 16 16) = true ∧ s.dev.inLimits 0 15 = true ∧
        s.dev.towardSwitch 0 15 = false) ∧
    (let s := ws [(rAxStat 0, 9), (rAxTarget 0, 5)]; (0xFFFF_FFFA : W32) = ~~~ s.dev.rd (rAxTarget 0) ∧
        (s.dev.axUncertain 0 = true ∨ s.dev.axState 0 = 0)) ∧
    (let s := ws [(rAxStat 0, 0), (rAxTarget 0, 5)]; (0xFFFF_FFFA : W32) = ~~~ s.dev.rd (rAxTarget 0) ∧
        (s.dev.axUncertain 0 = true ∨ s.dev.axState 0 = 0)) ∧
    (let s := ws [(rAxStat 0, 1), (rAxTarget 0, 5)]; (5 : W32) ≠ ~~~ s.dev.rd (rAxTarget 0) ∧
        s.dev.chainRuns 30 = false) ∧
    (let s := wd [] fun d => { d with cue.halted := 2 }; s.dev.cue.halted.getLsbD 1 = true) ∧
    (let s := wd [(rTopMode, 1), (rAxStat 0, 2), (rAxVmax 0, 100000), (rAxAccel 0, 4000000), (rAxDecel 0, 4000), (rAxVlimLo 0, 0xFFFF_F000), (rAxVlimHi 0, 0x1000)] fun d => { d.onAx 0 fun a => { a with phase := 1, target := 100, v := 30000000, p := 0 } with sampled := d.regs };
        s.dev.cue.halted.getLsbD 1 = false ∧ s.dev.outputsHeld = false ∧ s.dev.ghostLight = false ∧
        s.dev.spn.tickBeat ≠ some s.dev.beats ∧ s.dev.axState 0 = 2 ∧ s.dev.axes[(0 : Axis)].home = none ∧
        s.dev.axes[(0 : Axis)].plan = []) ∧
    (let s := wd [(rTopMode, 1), (rAxStat 0, 2), (rAxVmax 0, 100000), (rAxAccel 0, 4000000), (rAxDecel 0, 4000), (rAxVlimLo 0, 0xFFFF_F000), (rAxVlimHi 0, 0x1000)] fun d => { d.onAx 0 fun a => { a with phase := 1, target := 100, v := 30000000, p := 0 } with sampled := d.regs, spn.tickBeat := some 0 };
        s.dev.spn.tickBeat = some s.dev.beats) ∧
    (let s := wd [(rAxStat 0, 2), (rAxPos 0, 10)] fun d => d.onAx 0 fun a => { a with phase := 1, v := 500, p := 10 * 2 ^ 24 + 7 };
        s.dev.axState 0 ≠ 0) ∧
    (let s := wd [(rAxStat 0, 2), (rAxPos 0, 10)] fun d => d.onAx 0 fun a => { a with phase := 1, v := 500, p := 10 * 2 ^ 24 + 7 };
        s.dev.axes[(0 : Axis)].phase ≠ 0 ∧ s.dev.axes[(0 : Axis)].home = none) ∧
    (let s := State.reset; s.dev.axes[(0 : Axis)].bridge = 0) ∧
    (let s := wd [(rAxStat 5, 1)] fun d => d.onAx 5 fun a => { a with bridge := 2, early := #v[4, 3] };
        s.dev.windFault 5 1 .shortedWinding = false) ∧
    (let s := wd [(rAxStat 5, 1)] fun d => d.onAx 5 fun a => { a with bridge := 2, early := #v[4, 0] };
        s.dev.axes[(5 : Axis)].bridge ≠ 0 ∧ s.dev.windFault 5 0 .shortedWinding = true) ∧
    (let s := wd [(rAxStat 5, 1)] fun d => d.onAx 5 fun a => { a with bridge := 2, noTrip := #v[64, 0] };
        s.dev.axes[(5 : Axis)].bridge ≠ 0 ∧ s.dev.windFault 5 0 .openWinding = true) ∧
    (let s := wd [(rAxStat 0, 1), (rAxChop 0, 0x302)] fun d => d.onAx 0 fun a => { a with bridge := 2, wind := #v[1, 2], early := #v[1, 0] };
        s.dev.axes[(0 : Axis)].wind[(0 : Winding)] = 1 ∧
        s.dev.axes[(0 : Axis)].windAt[(0 : Winding)] + s.dev.fld (rAxChop 0) 8 8 * 10 ≤ s.dev.beats * 1250 + 30) ∧
    (let s := wd [(rAxStat 0, 1), (rAxChop 0, 0x302)] fun d => d.onAx 0 fun a => { a with bridge := 2, wind := #v[1, 2], early := #v[1, 0] };
        s.dev.axes[(0 : Axis)].wind[(0 : Winding)] = 1 ∧
        s.dev.axes[(0 : Axis)].windAt[(0 : Winding)] + s.dev.fld (rAxChop 0) 8 8 * 10 ≤ s.dev.beats * 1250 + 31) ∧
    (let s := wd [(rAxStat 0, 1), (rAxChop 0, 0x302)] fun d => d.onAx 0 fun a => { a with bridge := 2, wind := #v[1, 2], early := #v[1, 0] };
        s.dev.beats * 1250 + 29 < s.dev.axes[(0 : Axis)].windAt[(0 : Winding)] + s.dev.fld (rAxChop 0) 8 8 * 10) ∧
    (let s := wd [(rAxStat 0, 1), (rAxChop 0, 0x302)] fun d => d.onAx 0 fun a => { a with bridge := 2, wind := #v[1, 2], early := #v[1, 0] };
        s.dev.axes[(0 : Axis)].wind[(1 : Winding)] = 2 ∧
        s.dev.axes[(0 : Axis)].windAt[(1 : Winding)] + s.dev.fld (rAxChop 0) 0 8 * 100 ≤ s.dev.beats * 1250 + 201) ∧
    (let s := wd [(rAxStat 0, 1), (rAxChop 0, 0x302)] fun d => d.onAx 0 fun a => { a with bridge := 2, wind := #v[1, 2], early := #v[1, 0] };
        s.dev.beats * 1250 + 199 < s.dev.axes[(0 : Axis)].windAt[(1 : Winding)] + s.dev.fld (rAxChop 0) 0 8 * 100) := by
  refine ⟨?_, ?_, ?_, ?_, ?_, ?_, ?_, ?_, ?_, ?_, ?_, ?_, ?_, ?_, ?_, ?_, ?_, ?_, ?_, ?_⟩ <;> decide

/-- The hypotheses of AxisHomingAndRelease are met. -/
theorem witness_AxisHomingAndRelease :
    (let s := ws [(rAxStat 0, 0)]; s.dev.axState 0 = 0 ∨ s.dev.axState 0 = 1 ∧ s.dev.homeUnset 0 = true) ∧
    (let s := ws [(rAxStat 0, 1)]; s.dev.axState 0 = 0 ∨ s.dev.axState 0 = 1 ∧ s.dev.homeUnset 0 = true) ∧
    (let s := ws [(rAxStat 0, 1), (rAxSw 0, 0), (rAxHomeVel 0, 0x40_0100), (rAxHomeDist 0, 0x10_0004)];
        s.dev.axState 0 = 1 ∧ s.dev.homeUnset 0 = false ∧ s.dev.axes[(0 : Axis)].phase = 0) ∧
    (let s := ws [(rAxStat 0, 1), (rAxSw 0, 1), (rAxHomeVel 0, 0x40_0100), (rAxHomeDist 0, 0x10_0004)];
        s.dev.axState 0 = 1 ∧ s.dev.homeUnset 0 = false ∧ s.dev.axes[(0 : Axis)].phase = 0) ∧
    (let s := ws [(rAxSw 0, 1), (rAxHomeCfg 0, 0)]; s.dev.flag (rAxSw 0) 0 = true ∧
        (true != s.dev.flag (rAxHomeCfg 0) (20 + 0)) = true) ∧
    (let s := ws [(rAxSw 0, 1), (rAxHomeCfg 0, 0)]; s.dev.axes[(0 : Axis)].home = none ∧
        s.dev.flag (rAxSw 0) 0 = true ∧ (false != s.dev.flag (rAxHomeCfg 0) (20 + 0)) = false) ∧
    (let s := ws [(rAxStat 0, 2), (rAxHomeCfg 0, 0)]; s.dev.axes[(0 : Axis)].home = none ∧
        s.dev.flag (rAxSw 0) 0 = false ∧ s.dev.axState 0 ≠ 0 ∧ (true != s.dev.flag (rAxHomeCfg 0) (20 + 0)) = true) ∧
    (let s := ws [(rAxSw 0, 1), (rAxHomeCfg 0, 1048576)]; s.dev.flag (rAxSw 0) 0 = true ∧
        (false != s.dev.flag (rAxHomeCfg 0) (20 + 0)) = true) ∧
    (let s := ws [(rAxSw 0, 1), (rAxHomeCfg 0, 1048576)]; s.dev.axes[(0 : Axis)].home = none ∧
        s.dev.flag (rAxSw 0) 0 = true ∧ (true != s.dev.flag (rAxHomeCfg 0) (20 + 0)) = false) ∧
    (let s := ws [(rAxStat 0, 2), (rAxHomeCfg 0, 1048576)]; s.dev.axes[(0 : Axis)].home = none ∧
        s.dev.flag (rAxSw 0) 0 = false ∧ s.dev.axState 0 ≠ 0 ∧ (false != s.dev.flag (rAxHomeCfg 0) (20 + 0)) = true) ∧
    (let s := ws [(rAxSw 0, 2), (rAxHomeCfg 0, 0)]; s.dev.flag (rAxSw 0) 1 = true ∧
        (true != s.dev.flag (rAxHomeCfg 0) (20 + 1)) = true) ∧
    (let s := ws [(rAxSw 0, 2), (rAxHomeCfg 0, 0)]; s.dev.axes[(0 : Axis)].home = none ∧
        s.dev.flag (rAxSw 0) 1 = true ∧ (false != s.dev.flag (rAxHomeCfg 0) (20 + 1)) = false) ∧
    (let s := ws [(rAxStat 0, 2), (rAxHomeCfg 0, 0)]; s.dev.axes[(0 : Axis)].home = none ∧
        s.dev.flag (rAxSw 0) 1 = false ∧ s.dev.axState 0 ≠ 0 ∧ (true != s.dev.flag (rAxHomeCfg 0) (20 + 1)) = true) ∧
    (let s := ws [(rAxSw 0, 2), (rAxHomeCfg 0, 2097152)]; s.dev.flag (rAxSw 0) 1 = true ∧
        (false != s.dev.flag (rAxHomeCfg 0) (20 + 1)) = true) ∧
    (let s := ws [(rAxSw 0, 2), (rAxHomeCfg 0, 2097152)]; s.dev.axes[(0 : Axis)].home = none ∧
        s.dev.flag (rAxSw 0) 1 = true ∧ (true != s.dev.flag (rAxHomeCfg 0) (20 + 1)) = false) ∧
    (let s := ws [(rAxStat 0, 2), (rAxHomeCfg 0, 2097152)]; s.dev.axes[(0 : Axis)].home = none ∧
        s.dev.flag (rAxSw 0) 1 = false ∧ s.dev.axState 0 ≠ 0 ∧ (false != s.dev.flag (rAxHomeCfg 0) (20 + 1)) = true) ∧
    (let s := wd [(rAxStat 0, 3), (rAxPos 0, 0xFFFF_FF00)] fun d => d.onAx 0 fun a => { a with phase := 1, v := 100, home := some { stage := 2, start := 0, latch := 0, latchBeat := none, released := false, why := 0 } };
        (s.dev.axes[(0 : Axis)].home = some { stage := 2, start := 0, latch := 0, latchBeat := none, released := false, why := 0 }) ∧
        s.dev.flag (rAxSw 0) 0 = false) ∧
    (let s := wd [(rAxStat 0, 3), (rAxPos 0, 0xFFFF_F000), (rAxHomeVel 0, 0x40_0100), (rAxHomeDist 0, 0x10_0004)] fun d => d.onAx 0 fun a => { a with phase := 1, v := 100, home := some { stage := 2, start := 0, latch := 0, latchBeat := none, released := false, why := 0 } };
        (s.dev.axes[(0 : Axis)].home = some { stage := 2, start := 0, latch := 0, latchBeat := none, released := false, why := 0 }) ∧
        s.dev.fld (rAxHomeDist 0) 16 16 * 256 ≤ (s.dev.axPos 0 - 0).natAbs ∧ s.dev.axes[(0 : Axis)].phase ≠ 0) ∧
    (let s := wd [(rAxStat (sledOf 0), 1)] fun d => d.onAx (sledOf 0) fun a => { a with holding := true, bridge := 1 };
        s.dev.axes[sledOf 0].holding = true ∧ s.dev.axState (sledOf 0) = 1) ∧
    (let s := wd [(rAxStat 4, 1), (rAxStby 4, 0)] fun d => d.onAx 4 fun a => { a with holding := true, bridge := 1 };
        s.dev.fld (rAxStby 4) 0 2 ≠ 3 ∧ s.dev.axes[(4 : Axis)].holding = true ∧ s.dev.axState 4 = 1) ∧
    (let s := wd [(rAxStat 4, 1), (rAxStby 4, 1)] fun d => d.onAx 4 fun a => { a with holding := true, bridge := 1 };
        s.dev.fld (rAxStby 4) 0 2 ≠ 3 ∧ s.dev.axes[(4 : Axis)].holding = true ∧ s.dev.axState 4 = 1) ∧
    (let s := wd [(rAxStat 4, 1), (rAxStby 4, 2)] fun d => d.onAx 4 fun a => { a with holding := true, bridge := 1 };
        s.dev.fld (rAxStby 4) 0 2 ≠ 3 ∧ s.dev.axes[(4 : Axis)].holding = true ∧ s.dev.axState 4 = 1) ∧
    (let s := State.reset; s.dev.axes[(4 : Axis)].holding = false) ∧
    (let s := ws [(rAxStat 0, 2)]; s.dev.axState 0 ≠ 1) ∧
    (let s := wd [(rAxStat 0, 1), (rAxStby 0, 4), (rAxIndex 0, 77), (rAxPos 0, 10)] fun d => d.onAx 0 fun a => { a with bridge := 2 };
        s.dev.axState 0 = 1 ∧ s.dev.flag (rAxStby 0) 2 = true) ∧
    (let s := wd [(rAxStat 7, 1)] fun d => d.onAx 7 fun a => { a with bridge := 3 }; s.dev.axState 7 = 1 ∧
        s.dev.axes[(7 : Axis)].bridge ≠ 1 ∧ s.dev.axes[(7 : Axis)].bridge ≠ 2) ∧
    (let s := State.reset; s.dev.axState 0 = 0 ∧ s.dev.axes[(0 : Axis)].retained = none) ∧
    (let s := wd [] fun d => d.onAx 0 fun a => { a with retained := some (1023, -2147483648) }; s.dev.axState 0 = 0 ∧
        s.dev.axes[(0 : Axis)].retained = some (1023, -2147483648)) ∧
    (let s := wd [] fun d => d.onAx 0 fun a => { a with retained := some (1023, 2147483647) }; s.dev.axState 0 = 0 ∧
        s.dev.axes[(0 : Axis)].retained = some (1023, 2147483647)) := by
  refine ⟨?_, ?_, ?_, ?_, ?_, ?_, ?_, ?_, ?_, ?_, ?_, ?_, ?_, ?_, ?_, ?_, ?_, ?_, ?_, ?_, ?_, ?_, ?_, ?_, ?_, ?_, ?_,
    ?_, ?_⟩ <;> decide

/-- The hypotheses of CalibrationEngine are met. -/
theorem witness_CalibrationEngine :
    (let s := State.reset; s.dev.inService 0 = false) ∧
    (let s := ws [(rTopMode, 2), (rSrvStat 0, 1)]; s.dev.ghostLight = true) ∧
    (let s := wd [(rTopMode, 1), (rSrvStat 0, 1), (rMeasCfg, 2), (rClass 0, 1)] fun d => d.onSpot 0 7 fun x => { x with win := { x.win with bits := 2047, shadow := [-5, 6] } };
        s.dev.heads[(0 : Head)].spots[(7 : Spot)].win.bits < s.dev.fld rMeasCfg 0 8 * 1024) ∧
    (let s := wd [(rTopMode, 1), (rSrvStat 0, 1), (rMeasCfg, 2), (rClass 0, 1)] fun d => d.onSpot 0 7 fun x => { x with win := { x.win with bits := 2048, shadow := [-5, 6] } };
        s.dev.inService 0 = true ∧ s.dev.ghostLight = false ∧ s.dev.engineHalted 5 = false ∧
        s.dev.fld rMeasCfg 0 8 * 1024 ≤ s.dev.heads[(0 : Head)].spots[(7 : Spot)].win.bits ∧
        s.dev.fld (rClass 0) 0 2 ≠ 0) ∧
    (let s := wd [(rTopMode, 1), (rSrvStat 0, 1), (rMeasCfg, 2), (rClass 0, 0)] fun d => d.onSpot 0 7 fun x => { x with win := { x.win with bits := 2048, shadow := [-5, 6] } };
        s.dev.inService 0 = true ∧ s.dev.ghostLight = false ∧ s.dev.engineHalted 5 = false ∧
        s.dev.fld rMeasCfg 0 8 * 1024 ≤ s.dev.heads[(0 : Head)].spots[(7 : Spot)].win.bits ∧
        s.dev.fld (rClass 0) 0 2 = 0) ∧
    (let s := wd [(rCalSrv, 0x40_0000)] fun d => { d with cal.dither := d.cal.dither.set 0 (some { offset := 1, centre := 0, stage := 1, start := 0, ePlus := none, e0 := none, eMinus := none }), cue.act := 64 };
        s.dev.cal.dither[(0 : Head)] = some { offset := 1, centre := 0, stage := 1, start := 0, ePlus := none, e0 := none, eMinus := none } ∧
        0 + s.dev.fld rCalSrv 16 8 ≤ s.dev.cue.act) ∧
    (let s := wd [(rCalSrv, 0x40_0000)] fun d => { d with cal.dither := d.cal.dither.set 0 (some { offset := 1, centre := 0, stage := 1, start := 0, ePlus := none, e0 := none, eMinus := none }), cue.act := 63 };
        s.dev.cal.dither[(0 : Head)] = some { offset := 1, centre := 0, stage := 1, start := 0, ePlus := none, e0 := none, eMinus := none } ∧
        s.dev.cue.act < 0 + s.dev.fld rCalSrv 16 8) ∧
    (let s := ws [(rTopMode, 1)]; s.dev.rehearsal = false) ∧
    (let s := ws [(rTopMode, 0), (rCalCtl, 8)]; s.dev.rehearsal = true ∧
        (∀ h : Head, s.dev.inService h = false ∨ s.dev.fld (rJesd h) 0 4 ≠ 15)) ∧
    (let s := State.reset; s.dev.flag rCalCtl 2 = false) ∧
    (let s := ws [(rCalCtl, 4), (rSrvStat 0, 1), (rSrvStat 1, 1), (rSrvStat 2, 1)]; s.dev.flag rCalCtl 2 = true) := by
  refine ⟨?_, ?_, ?_, ?_, ?_, ?_, ?_, ?_, ?_, ?_, ?_⟩ <;> decide

/-- The hypotheses of HostRingsAndFetch are met. -/
theorem witness_HostRingsAndFetch :
    (let s := ws [(rRingSize 0, 0x40_0040)]; fget 0 0 12 < s.dev.sqSize 0) ∧
    (let s := ws [(rRingSize 0, 0x40_0040)]; fget 63 0 12 < s.dev.sqSize 0) ∧
    (let s := ws [(rRingSize 0, 0x40_0040)]; s.dev.sqSize 0 ≤ fget 64 0 12) ∧
    (let s := ws [(rRingSize 0, 0x40_0040)]; fget 63 0 12 < s.dev.cqSize 0 ∧ s.dev.hq.rings[(0 : RingId)].held = []) ∧
    (let s := ws [(rRingSize 0, 0x40_0040)]; s.dev.cqSize 0 ≤ fget 64 0 12) ∧
    (let s := ws [(rRingSize 15, 0x2_0002)]; 2 ≤ s.dev.sqSize 15 ∧ s.dev.sqSize 15 ≤ 4096 ∧ 2 ≤ s.dev.cqSize 15 ∧
        s.dev.cqSize 15 ≤ 4096 ∧ s.dev.ringOn 15 = false) ∧
    (let s := ws [(rRingSize 15, 0x1000_1000)]; 2 ≤ s.dev.sqSize 15 ∧ s.dev.sqSize 15 ≤ 4096 ∧ 2 ≤ s.dev.cqSize 15 ∧
        s.dev.cqSize 15 ≤ 4096 ∧ s.dev.ringOn 15 = false) ∧
    (let s := ws [(rRingSize 15, 0x2_0001)];
        s.dev.sqSize 15 < 2 ∨ 4096 < s.dev.sqSize 15 ∨ s.dev.cqSize 15 < 2 ∨ 4096 < s.dev.cqSize 15) ∧
    (let s := ws [(rRingSize 15, 0x1001_0002)];
        s.dev.sqSize 15 < 2 ∨ 4096 < s.dev.sqSize 15 ∨ s.dev.cqSize 15 < 2 ∨ 4096 < s.dev.cqSize 15) ∧
    (let s := ws [(rRingSize 0, 0x40_0040), (rRingCfg 0, 1)]; s.dev.outstandingOf 0 = 0) ∧
    (let s := wHost [(rRingSize 0, 0x40_0040), (rRingCfg 0, 1)] [wCmd [(0, 1), (1, 16), (4, 5)]] fun d => d;
        s.dev.outstandingOf 0 ≠ 0) ∧
    (let s := ws [(rRingSize 0, 0x40_0040)]; s.dev.ringOn 0 = false) ∧
    (let s := ws [(rRingSize 0, 0x40_0040), (rRingCfg 0, 1)]; s.dev.ringOn 0 = true ∧
        s.dev.hq.rings[(0 : RingId)].held = [] ∧ s.dev.cqFull 0 = false) ∧
    (let s := wd [(rRingSize 0, 0x40_0040), (rRingCfg 0, 1), (rCqHead 0, 1)] fun d => { d with sampled := d.regs };
        s.dev.ringOn 0 = true ∧ s.dev.cqFull 0 = true ∧
        ((.status 5 0 0 0 0 0 0 false false false) : Post).isStatus = true) ∧
    (let s := State.reset; s.dev.signalDue 0 = false) ∧
    (let s := wd [(rRingCfg 0, 0xFF_0301)] fun d => d.onRing 0 fun r => { r with unsignalled := 2 };
        s.dev.signalDue 0 = false) ∧
    (let s := wd [(rRingCfg 0, 0x81), (rMsix 32 + 12, 0)] fun d => d.onRing 0 fun r => { r with unsignalled := 2 };
        s.dev.signalDue 0 = true ∧ s.dev.fld (rRingCfg 0) 2 6 = 32 ∧ s.dev.flag (rMsix 32 + 0x0C) 0 = false) ∧
    (let s := wd [(rRingCfg 0, 0x81), (rMsix 32 + 12, 1)] fun d => d.onRing 0 fun r => { r with unsignalled := 2 };
        s.dev.signalDue 0 = true ∧ s.dev.fld (rRingCfg 0) 2 6 = 32 ∧ s.dev.flag (rMsix 32 + 0x0C) 0 = true) ∧
    (let s := wHost [(rRingSize 0, 0x40_0040), (rRingCfg 0, 1), (rSqTail 0, 1)] [] fun d => { d with pcie.busMaster := true };
        s.dev.fabric = true ∧ s.dev.stopped = false ∧ s.dev.engineHalted 6 = false ∧ s.dev.flag rHqCtl 8 = false ∧
        s.dev.outstanding < 8192 ∧ s.dev.nextRing = some 0 ∧ s.dev.cue.used[0] < s.dev.fld (rBudget 0) 0 24 ∧
        s.dev.pcie.busMaster = true ∧ s.dev.hq.cmds = []) ∧
    (let s := wHost [(rRingSize 0, 0x40_0040), (rRingCfg 0, 1), (rSqTail 0, 1)] [] fun d => { d with pcie.busMaster := true };
        s.dev.fabric = true ∧ s.dev.stopped = false ∧ s.dev.engineHalted 6 = false ∧ s.dev.flag rHqCtl 8 = false ∧
        s.dev.outstanding < 8192 ∧ s.dev.nextRing = some 0 ∧ s.dev.cue.used[0] < s.dev.fld (rBudget 0) 0 24 ∧
        s.dev.pcie.busMaster = true ∧ s.dev.hq.cmds = [] ∧ 1 ≤ s.dev.fetchCount 0 ∧ s.dev.sqSize 0 = 64 ∧
        pType (wSlot [(0, 1), (1, 0x33), (4, 5), (48, 1)]) = 1 ∧
        pOp (wSlot [(0, 1), (1, 0x33), (4, 5), (48, 1)]) = 0x33 ∧
        pCdw0 (wSlot [(0, 1), (1, 0x33), (4, 5), (48, 1)]) % 2 ^ 16 = 1 ∧
        pNsid (wSlot [(0, 1), (1, 0x33), (4, 5), (48, 1)]) = 0 ∧ s.dev.hq.rings[(0 : RingId)].defers = []) ∧
    (let s := wHost [(rRingSize 0, 0x40_0040), (rRingCfg 0, 1), (rSqTail 0, 1)] [] fun d => { d with pcie.busMaster := true };
        s.dev.fabric = true ∧ s.dev.stopped = false ∧ s.dev.engineHalted 6 = false ∧ s.dev.flag rHqCtl 8 = false ∧
        s.dev.outstanding < 8192 ∧ s.dev.nextRing = some 0 ∧ s.dev.cue.used[0] < s.dev.fld (rBudget 0) 0 24 ∧
        s.dev.pcie.busMaster = true ∧ s.dev.hq.cmds = [] ∧ 1 ≤ s.dev.fetchCount 0 ∧ s.dev.sqSize 0 = 64 ∧
        pType (wSlot [(0, 1), (1, 0x33), (4, 5), (48, 5)]) = 1 ∧
        pOp (wSlot [(0, 1), (1, 0x33), (4, 5), (48, 5)]) = 0x33 ∧
        pCdw0 (wSlot [(0, 1), (1, 0x33), (4, 5), (48, 5)]) % 2 ^ 16 = 5 ∧
        pNsid (wSlot [(0, 1), (1, 0x33), (4, 5), (48, 5)]) = 0 ∧ s.dev.hq.rings[(0 : RingId)].defers = []) ∧
    (let s := wHost [(rRingSize 0, 0x40_0040), (rRingCfg 0, 1), (rSqTail 0, 1)] [] fun d => { d with pcie.busMaster := true, hq.rings := vmod d.hq.rings (0 : RingId) fun r => { r with defers := [{ seq := 1, src := .ring 0, nsid := 1, lba := 3, count := 1, status := 0x30, reported := false, overflow := false, timeSec := 0 }] } };
        s.dev.fabric = true ∧ s.dev.stopped = false ∧ s.dev.engineHalted 6 = false ∧ s.dev.flag rHqCtl 8 = false ∧
        s.dev.outstanding < 8192 ∧ s.dev.nextRing = some 0 ∧ s.dev.cue.used[0] < s.dev.fld (rBudget 0) 0 24 ∧
        s.dev.pcie.busMaster = true ∧ s.dev.hq.cmds = [] ∧ 1 ≤ s.dev.fetchCount 0 ∧
        pType (wSlot [(0, 1), (1, 0x33), (4, 5), (48, 1)]) = 1 ∧ s.dev.leaving = false ∧
        s.dev.hq.rings[(0 : RingId)].defers = [{ seq := 1, src := .ring 0, nsid := 1, lba := 3, count := 1, status := 0x30, reported := false, overflow := false, timeSec := 0 }]) ∧
    (let s := wHost [(rRingSize 0, 0x40_0040), (rRingCfg 0, 1), (rSqTail 0, 1)] [] fun d => { d with pcie.busMaster := true };
        s.dev.fabric = true ∧ s.dev.stopped = false ∧ s.dev.engineHalted 6 = false ∧ s.dev.flag rHqCtl 8 = false ∧
        s.dev.outstanding < 8192 ∧ s.dev.nextRing = some 0 ∧ s.dev.cue.used[0] < s.dev.fld (rBudget 0) 0 24 ∧
        s.dev.pcie.busMaster = true ∧ s.dev.hq.cmds = [] ∧ 1 ≤ s.dev.fetchCount 0 ∧
        pType (wSlot [(0, 3), (4, 5)]) = 3) ∧
    (let s := ws [(rRingCfg 3, 1), (rTopMode, 1)]; s.dev.hq.cmds = []) := by
  refine ⟨?_, ?_, ?_, ?_, ?_, ?_, ?_, ?_, ?_, ?_, ?_, ?_, ?_, ?_, ?_, ?_, ?_, ?_, ?_, ?_, ?_, ?_, ?_, ?_⟩ <;> decide

/-- The hypotheses of HostDataCommands are met. -/
theorem witness_HostDataCommands :
    (let s := wHost [] [wCmd [(0, 1), (1, 17), (4, 5), (6, 1), (8, 2), (24, 2)]] fun d => { d with hq.rows := [{ wHeld 3 false with place := some wHome }] };
        s.dev.hq.cmds = [wCmd [(0, 1), (1, 17), (4, 5), (6, 1), (8, 2), (24, 2)]] ∧
        (wCmd [(0, 1), (1, 17), (4, 5), (6, 1), (8, 2), (24, 2)]).src = .ring 0 ∧
        (wCmd [(0, 1), (1, 17), (4, 5), (6, 1), (8, 2), (24, 2)]).tag = 5 ∧
        (wCmd [(0, 1), (1, 17), (4, 5), (6, 1), (8, 2), (24, 2)]).op = 17 ∧
        (wCmd [(0, 1), (1, 17), (4, 5), (6, 1), (8, 2), (24, 2)]).started = false ∧
        (wCmd [(0, 1), (1, 17), (4, 5), (6, 1), (8, 2), (24, 2)]).silent = false ∧
        (wCmd [(0, 1), (1, 17), (4, 5), (6, 1), (8, 2), (24, 2)]).ready = false ∧
        (wCmd [(0, 1), (1, 17), (4, 5), (6, 1), (8, 2), (24, 2)]).acked = false ∧
        (wCmd [(0, 1), (1, 17), (4, 5), (6, 1), (8, 2), (24, 2)]).nsid < 0x100 ∧
        s.dev.mayRun (wCmd [(0, 1), (1, 17), (4, 5), (6, 1), (8, 2), (24, 2)]) = true ∧
        s.dev.firstBroken (s.dev.mlbas (wCmd [(0, 1), (1, 17), (4, 5), (6, 1), (8, 2), (24, 2)]).slot) = none ∧
        s.dev.nsReplace 1 = false ∧
        s.dev.firstHeld (s.dev.mlbas (wCmd [(0, 1), (1, 17), (4, 5), (6, 1), (8, 2), (24, 2)]).slot) 0 = some (some 1)) ∧
    (let s := wHost [] [wCmd [(0, 1), (1, 17), (4, 5), (6, 1), (8, 2), (24, 2)]] fun d => d;
        s.dev.hq.cmds = [wCmd [(0, 1), (1, 17), (4, 5), (6, 1), (8, 2), (24, 2)]] ∧
        (wCmd [(0, 1), (1, 17), (4, 5), (6, 1), (8, 2), (24, 2)]).src = .ring 0 ∧
        (wCmd [(0, 1), (1, 17), (4, 5), (6, 1), (8, 2), (24, 2)]).tag = 5 ∧
        (wCmd [(0, 1), (1, 17), (4, 5), (6, 1), (8, 2), (24, 2)]).op = 17 ∧
        (wCmd [(0, 1), (1, 17), (4, 5), (6, 1), (8, 2), (24, 2)]).started = false ∧
        (wCmd [(0, 1), (1, 17), (4, 5), (6, 1), (8, 2), (24, 2)]).silent = false ∧
        (wCmd [(0, 1), (1, 17), (4, 5), (6, 1), (8, 2), (24, 2)]).ready = false ∧
        (wCmd [(0, 1), (1, 17), (4, 5), (6, 1), (8, 2), (24, 2)]).acked = false ∧
        (wCmd [(0, 1), (1, 17), (4, 5), (6, 1), (8, 2), (24, 2)]).nsid < 0x100 ∧
        s.dev.mayRun (wCmd [(0, 1), (1, 17), (4, 5), (6, 1), (8, 2), (24, 2)]) = true ∧
        s.dev.firstBroken (s.dev.mlbas (wCmd [(0, 1), (1, 17), (4, 5), (6, 1), (8, 2), (24, 2)]).slot) = none ∧
        s.dev.firstHeld (s.dev.mlbas (wCmd [(0, 1), (1, 17), (4, 5), (6, 1), (8, 2), (24, 2)]).slot) 0 = some none ∧
        (∀ m ∈ s.dev.mlbas (wCmd [(0, 1), (1, 17), (4, 5), (6, 1), (8, 2), (24, 2)]).slot, s.dev.placeState (homeOf m).1 = 0)) ∧
    (let s := wHost [] [wCmd [(0, 1), (1, 17), (4, 5), (6, 1), (8, 2), (24, 2)]] fun d => { d with sides := vmod d.sides (0 : Side) fun x => { x with mounted := true, map := [(2528, 1)] } };
        s.dev.hq.cmds = [wCmd [(0, 1), (1, 17), (4, 5), (6, 1), (8, 2), (24, 2)]] ∧
        (wCmd [(0, 1), (1, 17), (4, 5), (6, 1), (8, 2), (24, 2)]).src = .ring 0 ∧
        (wCmd [(0, 1), (1, 17), (4, 5), (6, 1), (8, 2), (24, 2)]).tag = 5 ∧
        (wCmd [(0, 1), (1, 17), (4, 5), (6, 1), (8, 2), (24, 2)]).op = 17 ∧
        (wCmd [(0, 1), (1, 17), (4, 5), (6, 1), (8, 2), (24, 2)]).started = false ∧
        (wCmd [(0, 1), (1, 17), (4, 5), (6, 1), (8, 2), (24, 2)]).silent = false ∧
        (wCmd [(0, 1), (1, 17), (4, 5), (6, 1), (8, 2), (24, 2)]).ready = false ∧
        (wCmd [(0, 1), (1, 17), (4, 5), (6, 1), (8, 2), (24, 2)]).acked = false ∧
        (wCmd [(0, 1), (1, 17), (4, 5), (6, 1), (8, 2), (24, 2)]).nsid < 0x100 ∧
        s.dev.mayRun (wCmd [(0, 1), (1, 17), (4, 5), (6, 1), (8, 2), (24, 2)]) = true ∧
        s.dev.firstBroken (s.dev.mlbas (wCmd [(0, 1), (1, 17), (4, 5), (6, 1), (8, 2), (24, 2)]).slot) = none ∧
        s.dev.firstHeld (s.dev.mlbas (wCmd [(0, 1), (1, 17), (4, 5), (6, 1), (8, 2), (24, 2)]).slot) 0 = none) ∧
    (let s := wHost [] [{ wCmd [(0, 1), (1, 17), (4, 5), (6, 1), (8, 2), (24, 2)] with ready := true }] fun d => d;
        s.dev.hq.cmds = [{ wCmd [(0, 1), (1, 17), (4, 5), (6, 1), (8, 2), (24, 2)] with ready := true }] ∧
        ({ wCmd [(0, 1), (1, 17), (4, 5), (6, 1), (8, 2), (24, 2)] with ready := true } : Cmd).src = .ring 0 ∧
        ({ wCmd [(0, 1), (1, 17), (4, 5), (6, 1), (8, 2), (24, 2)] with ready := true } : Cmd).tag = 5 ∧
        ({ wCmd [(0, 1), (1, 17), (4, 5), (6, 1), (8, 2), (24, 2)] with ready := true } : Cmd).op = 17 ∧
        ({ wCmd [(0, 1), (1, 17), (4, 5), (6, 1), (8, 2), (24, 2)] with ready := true } : Cmd).nsid < 0x100 ∧
        ({ wCmd [(0, 1), (1, 17), (4, 5), (6, 1), (8, 2), (24, 2)] with ready := true } : Cmd).silent = false ∧
        ({ wCmd [(0, 1), (1, 17), (4, 5), (6, 1), (8, 2), (24, 2)] with ready := true } : Cmd).acked = false ∧
        (let c : Cmd := { wCmd [(0, 1), (1, 17), (4, 5), (6, 1), (8, 2), (24, 2)] with ready := true };
        let room := (s.dev.smpF (rStream c.stream) 0 21 * 65536 - s.dev.streamUse c.stream) / 65536 * 16;
        let n := min (c.len - c.offered) (min 1024 room); s.dev.stopped = false ∧ s.dev.engineHalted 6 = false ∧
        c.ready = true ∧ c.offered < c.len ∧ min 16 (c.len - c.offered) ≤ n ∧ s.dev.mayRun c = true ∧
        c.offers.length < s.dev.fld rXrdy 0 4 ∧ s.dev.bufferUse + 4096 * n ≤ s.dev.allocBytes ∧
        s.dev.cue.used[1] + n * c.lbaBytes ≤ s.dev.fld (rBudget 1) 0 24 * 65536)) ∧
    (let s := wHost [] [{ wCmd [(0, 1), (1, 17), (4, 5), (6, 1), (8, 2), (24, 2)] with ready := true, started := true, offered := 2, nextOffer := 1, offers := [⟨0, 0, 2, 0⟩] }] fun d => { d with cue.act := 79 };
        s.dev.hq.cmds = [{ wCmd [(0, 1), (1, 17), (4, 5), (6, 1), (8, 2), (24, 2)] with ready := true, started := true, offered := 2, nextOffer := 1, offers := [⟨0, 0, 2, 0⟩] }] ∧
        ({ wCmd [(0, 1), (1, 17), (4, 5), (6, 1), (8, 2), (24, 2)] with ready := true, started := true, offered := 2, nextOffer := 1, offers := [⟨0, 0, 2, 0⟩] } : Cmd).src = .ring 0 ∧
        ({ wCmd [(0, 1), (1, 17), (4, 5), (6, 1), (8, 2), (24, 2)] with ready := true, started := true, offered := 2, nextOffer := 1, offers := [⟨0, 0, 2, 0⟩] } : Cmd).tag = 5 ∧
        ({ wCmd [(0, 1), (1, 17), (4, 5), (6, 1), (8, 2), (24, 2)] with ready := true, started := true, offered := 2, nextOffer := 1, offers := [⟨0, 0, 2, 0⟩] } : Cmd).op = 17 ∧
        ({ wCmd [(0, 1), (1, 17), (4, 5), (6, 1), (8, 2), (24, 2)] with ready := true, started := true, offered := 2, nextOffer := 1, offers := [⟨0, 0, 2, 0⟩] } : Cmd).nsid < 0x100 ∧
        ({ wCmd [(0, 1), (1, 17), (4, 5), (6, 1), (8, 2), (24, 2)] with ready := true, started := true, offered := 2, nextOffer := 1, offers := [⟨0, 0, 2, 0⟩] } : Cmd).silent = false ∧
        ({ wCmd [(0, 1), (1, 17), (4, 5), (6, 1), (8, 2), (24, 2)] with ready := true, started := true, offered := 2, nextOffer := 1, offers := [⟨0, 0, 2, 0⟩] } : Cmd).acked = false ∧
        (∀ o ∈ ({ wCmd [(0, 1), (1, 17), (4, 5), (6, 1), (8, 2), (24, 2)] with ready := true, started := true, offered := 2, nextOffer := 1, offers := [⟨0, 0, 2, 0⟩] } : Cmd).offers, s.dev.offerStale o = true)) ∧
    (let s := wHost [] [{ wCmd [(0, 1), (1, 17), (4, 5), (6, 1), (8, 2), (24, 2)] with ready := true, started := true, offered := 2, nextOffer := 1, offers := [⟨0, 0, 2, 0⟩] }] fun d => d;
        s.dev.hq.cmds = [{ wCmd [(0, 1), (1, 17), (4, 5), (6, 1), (8, 2), (24, 2)] with ready := true, started := true, offered := 2, nextOffer := 1, offers := [⟨0, 0, 2, 0⟩] }] ∧
        ({ wCmd [(0, 1), (1, 17), (4, 5), (6, 1), (8, 2), (24, 2)] with ready := true, started := true, offered := 2, nextOffer := 1, offers := [⟨0, 0, 2, 0⟩] } : Cmd).src = .ring 0 ∧
        ({ wCmd [(0, 1), (1, 17), (4, 5), (6, 1), (8, 2), (24, 2)] with ready := true, started := true, offered := 2, nextOffer := 1, offers := [⟨0, 0, 2, 0⟩] } : Cmd).tag = 5 ∧
        ({ wCmd [(0, 1), (1, 17), (4, 5), (6, 1), (8, 2), (24, 2)] with ready := true, started := true, offered := 2, nextOffer := 1, offers := [⟨0, 0, 2, 0⟩] } : Cmd).op = 17 ∧
        ({ wCmd [(0, 1), (1, 17), (4, 5), (6, 1), (8, 2), (24, 2)] with ready := true, started := true, offered := 2, nextOffer := 1, offers := [⟨0, 0, 2, 0⟩] } : Cmd).nsid < 0x100 ∧
        ({ wCmd [(0, 1), (1, 17), (4, 5), (6, 1), (8, 2), (24, 2)] with ready := true, started := true, offered := 2, nextOffer := 1, offers := [⟨0, 0, 2, 0⟩] } : Cmd).silent = false ∧
        ({ wCmd [(0, 1), (1, 17), (4, 5), (6, 1), (8, 2), (24, 2)] with ready := true, started := true, offered := 2, nextOffer := 1, offers := [⟨0, 0, 2, 0⟩] } : Cmd).acked = false ∧
        (∀ o ∈ ({ wCmd [(0, 1), (1, 17), (4, 5), (6, 1), (8, 2), (24, 2)] with ready := true, started := true, offered := 2, nextOffer := 1, offers := [⟨0, 0, 2, 0⟩] } : Cmd).offers, o.id = 0 → s.dev.offerStale o = false)) ∧
    (let s := wHost [] [{ wCmd [(0, 1), (1, 17), (4, 5), (6, 1), (8, 2), (24, 2)] with ready := true, started := true, offered := 2, nextOffer := 1, offers := [⟨0, 0, 2, 0⟩] }] fun d => { d with cue.act := 79 };
        s.dev.hq.cmds = [{ wCmd [(0, 1), (1, 17), (4, 5), (6, 1), (8, 2), (24, 2)] with ready := true, started := true, offered := 2, nextOffer := 1, offers := [⟨0, 0, 2, 0⟩] }] ∧
        ({ wCmd [(0, 1), (1, 17), (4, 5), (6, 1), (8, 2), (24, 2)] with ready := true, started := true, offered := 2, nextOffer := 1, offers := [⟨0, 0, 2, 0⟩] } : Cmd).src = .ring 0 ∧
        ({ wCmd [(0, 1), (1, 17), (4, 5), (6, 1), (8, 2), (24, 2)] with ready := true, started := true, offered := 2, nextOffer := 1, offers := [⟨0, 0, 2, 0⟩] } : Cmd).tag = 5 ∧
        ({ wCmd [(0, 1), (1, 17), (4, 5), (6, 1), (8, 2), (24, 2)] with ready := true, started := true, offered := 2, nextOffer := 1, offers := [⟨0, 0, 2, 0⟩] } : Cmd).op = 17 ∧
        ({ wCmd [(0, 1), (1, 17), (4, 5), (6, 1), (8, 2), (24, 2)] with ready := true, started := true, offered := 2, nextOffer := 1, offers := [⟨0, 0, 2, 0⟩] } : Cmd).nsid < 0x100 ∧
        ({ wCmd [(0, 1), (1, 17), (4, 5), (6, 1), (8, 2), (24, 2)] with ready := true, started := true, offered := 2, nextOffer := 1, offers := [⟨0, 0, 2, 0⟩] } : Cmd).silent = false ∧
        ({ wCmd [(0, 1), (1, 17), (4, 5), (6, 1), (8, 2), (24, 2)] with ready := true, started := true, offered := 2, nextOffer := 1, offers := [⟨0, 0, 2, 0⟩] } : Cmd).acked = false ∧
        (∀ o ∈ ({ wCmd [(0, 1), (1, 17), (4, 5), (6, 1), (8, 2), (24, 2)] with ready := true, started := true, offered := 2, nextOffer := 1, offers := [⟨0, 0, 2, 0⟩] } : Cmd).offers, o.id = 1 → s.dev.offerStale o = false)) ∧
    (let s := wHost [] [{ wCmd [(0, 1), (1, 17), (4, 5), (6, 1), (8, 2), (24, 2)] with ready := true, started := true, offered := 2, nextOffer := 1, offers := [⟨0, 0, 2, 0⟩] }] fun d => { d with hq.entries := [(.ring 0, wSlot [(0, 3), (1, 1), (4, 5), (8, 0x100), (16, 2)])] };
        s.dev.hq.cmds = [{ wCmd [(0, 1), (1, 17), (4, 5), (6, 1), (8, 2), (24, 2)] with ready := true, started := true, offered := 2, nextOffer := 1, offers := [⟨0, 0, 2, 0⟩] }] ∧
        ({ wCmd [(0, 1), (1, 17), (4, 5), (6, 1), (8, 2), (24, 2)] with ready := true, started := true, offered := 2, nextOffer := 1, offers := [⟨0, 0, 2, 0⟩] } : Cmd).src = .ring 0 ∧
        ({ wCmd [(0, 1), (1, 17), (4, 5), (6, 1), (8, 2), (24, 2)] with ready := true, started := true, offered := 2, nextOffer := 1, offers := [⟨0, 0, 2, 0⟩] } : Cmd).tag = 5 ∧
        ({ wCmd [(0, 1), (1, 17), (4, 5), (6, 1), (8, 2), (24, 2)] with ready := true, started := true, offered := 2, nextOffer := 1, offers := [⟨0, 0, 2, 0⟩] } : Cmd).op = 17 ∧
        ({ wCmd [(0, 1), (1, 17), (4, 5), (6, 1), (8, 2), (24, 2)] with ready := true, started := true, offered := 2, nextOffer := 1, offers := [⟨0, 0, 2, 0⟩] } : Cmd).nsid < 0x100 ∧
        ({ wCmd [(0, 1), (1, 17), (4, 5), (6, 1), (8, 2), (24, 2)] with ready := true, started := true, offered := 2, nextOffer := 1, offers := [⟨0, 0, 2, 0⟩] } : Cmd).silent = false ∧
        ({ wCmd [(0, 1), (1, 17), (4, 5), (6, 1), (8, 2), (24, 2)] with ready := true, started := true, offered := 2, nextOffer := 1, offers := [⟨0, 0, 2, 0⟩] } : Cmd).acked = false ∧
        (CmdSrc.ring 0, wSlot [(0, 3), (1, 1), (4, 5), (8, 0x100), (16, 2)]) ∈ s.dev.hq.entries ∧
        pTag (wSlot [(0, 3), (1, 1), (4, 5), (8, 0x100), (16, 2)]) = 5 ∧
        slotField (wSlot [(0, 3), (1, 1), (4, 5), (8, 0x100), (16, 2)]) 6 2 = 0 ∧
        s.dev.cue.used[2] + 2 * ({ wCmd [(0, 1), (1, 17), (4, 5), (6, 1), (8, 2), (24, 2)] with ready := true, started := true, offered := 2, nextOffer := 1, offers := [⟨0, 0, 2, 0⟩] } : Cmd).lbaBytes ≤ s.dev.fld (rBudget 2) 0 24 * 65536 ∧
        (slotField (wSlot [(0, 3), (1, 1), (4, 5), (8, 0x100), (16, 2)]) 1 1).testBit 0 = true) ∧
    (let s := wHost [] [{ wCmd [(0, 1), (1, 17), (4, 5), (6, 1), (8, 2), (24, 2)] with ready := true, started := true, offered := 2, nextOffer := 1, offers := [⟨0, 0, 2, 0⟩] }] fun d => { d with hq.entries := [(.ring 0, wSlot [(0, 3), (1, 0), (4, 5), (8, 0x100), (16, 2)])] };
        s.dev.hq.cmds = [{ wCmd [(0, 1), (1, 17), (4, 5), (6, 1), (8, 2), (24, 2)] with ready := true, started := true, offered := 2, nextOffer := 1, offers := [⟨0, 0, 2, 0⟩] }] ∧
        ({ wCmd [(0, 1), (1, 17), (4, 5), (6, 1), (8, 2), (24, 2)] with ready := true, started := true, offered := 2, nextOffer := 1, offers := [⟨0, 0, 2, 0⟩] } : Cmd).src = .ring 0 ∧
        ({ wCmd [(0, 1), (1, 17), (4, 5), (6, 1), (8, 2), (24, 2)] with ready := true, started := true, offered := 2, nextOffer := 1, offers := [⟨0, 0, 2, 0⟩] } : Cmd).tag = 5 ∧
        ({ wCmd [(0, 1), (1, 17), (4, 5), (6, 1), (8, 2), (24, 2)] with ready := true, started := true, offered := 2, nextOffer := 1, offers := [⟨0, 0, 2, 0⟩] } : Cmd).op = 17 ∧
        ({ wCmd [(0, 1), (1, 17), (4, 5), (6, 1), (8, 2), (24, 2)] with ready := true, started := true, offered := 2, nextOffer := 1, offers := [⟨0, 0, 2, 0⟩] } : Cmd).nsid < 0x100 ∧
        ({ wCmd [(0, 1), (1, 17), (4, 5), (6, 1), (8, 2), (24, 2)] with ready := true, started := true, offered := 2, nextOffer := 1, offers := [⟨0, 0, 2, 0⟩] } : Cmd).silent = false ∧
        ({ wCmd [(0, 1), (1, 17), (4, 5), (6, 1), (8, 2), (24, 2)] with ready := true, started := true, offered := 2, nextOffer := 1, offers := [⟨0, 0, 2, 0⟩] } : Cmd).acked = false ∧
        (CmdSrc.ring 0, wSlot [(0, 3), (1, 0), (4, 5), (8, 0x100), (16, 2)]) ∈ s.dev.hq.entries ∧
        pTag (wSlot [(0, 3), (1, 0), (4, 5), (8, 0x100), (16, 2)]) = 5 ∧
        slotField (wSlot [(0, 3), (1, 0), (4, 5), (8, 0x100), (16, 2)]) 6 2 = 0 ∧
        s.dev.cue.used[2] + 2 * ({ wCmd [(0, 1), (1, 17), (4, 5), (6, 1), (8, 2), (24, 2)] with ready := true, started := true, offered := 2, nextOffer := 1, offers := [⟨0, 0, 2, 0⟩] } : Cmd).lbaBytes ≤ s.dev.fld (rBudget 2) 0 24 * 65536 ∧
        slotField (wSlot [(0, 3), (1, 0), (4, 5), (8, 0x100), (16, 2)]) 1 1 = 0 ∧
        slotField (wSlot [(0, 3), (1, 0), (4, 5), (8, 0x100), (16, 2)]) 8 8 % 4 = 0 ∧
        slotField (wSlot [(0, 3), (1, 0), (4, 5), (8, 0x100), (16, 2)]) 16 4 = 2 ∧
        ({ wCmd [(0, 1), (1, 17), (4, 5), (6, 1), (8, 2), (24, 2)] with ready := true, started := true, offered := 2, nextOffer := 1, offers := [⟨0, 0, 2, 0⟩] } : Cmd).guard = false) ∧
    (let s := wHost [] [{ wCmd [(0, 1), (1, 17), (4, 5), (6, 1), (8, 2), (24, 2)] with ready := true, started := true, offered := 2, nextOffer := 1, offers := [⟨0, 0, 2, 0⟩] }] fun d => { d with hq.entries := [(.ring 0, wSlot [(0, 3), (4, 6), (16, 2)])] };
        s.dev.hq.cmds = [{ wCmd [(0, 1), (1, 17), (4, 5), (6, 1), (8, 2), (24, 2)] with ready := true, started := true, offered := 2, nextOffer := 1, offers := [⟨0, 0, 2, 0⟩] }] ∧
        ({ wCmd [(0, 1), (1, 17), (4, 5), (6, 1), (8, 2), (24, 2)] with ready := true, started := true, offered := 2, nextOffer := 1, offers := [⟨0, 0, 2, 0⟩] } : Cmd).src = .ring 0 ∧
        ({ wCmd [(0, 1), (1, 17), (4, 5), (6, 1), (8, 2), (24, 2)] with ready := true, started := true, offered := 2, nextOffer := 1, offers := [⟨0, 0, 2, 0⟩] } : Cmd).tag = 5 ∧
        ({ wCmd [(0, 1), (1, 17), (4, 5), (6, 1), (8, 2), (24, 2)] with ready := true, started := true, offered := 2, nextOffer := 1, offers := [⟨0, 0, 2, 0⟩] } : Cmd).op = 17 ∧
        ({ wCmd [(0, 1), (1, 17), (4, 5), (6, 1), (8, 2), (24, 2)] with ready := true, started := true, offered := 2, nextOffer := 1, offers := [⟨0, 0, 2, 0⟩] } : Cmd).nsid < 0x100 ∧
        ({ wCmd [(0, 1), (1, 17), (4, 5), (6, 1), (8, 2), (24, 2)] with ready := true, started := true, offered := 2, nextOffer := 1, offers := [⟨0, 0, 2, 0⟩] } : Cmd).silent = false ∧
        ({ wCmd [(0, 1), (1, 17), (4, 5), (6, 1), (8, 2), (24, 2)] with ready := true, started := true, offered := 2, nextOffer := 1, offers := [⟨0, 0, 2, 0⟩] } : Cmd).acked = false ∧
        (CmdSrc.ring 0, wSlot [(0, 3), (4, 6), (16, 2)]) ∈ s.dev.hq.entries ∧
        pTag (wSlot [(0, 3), (4, 6), (16, 2)]) ≠ 5) ∧
    (let s := wHost [] [{ wCmd [(0, 1), (1, 17), (4, 5), (2, 0), (6, 1), (8, 2), (24, 2)] with ready := true, started := true, offered := 2, got := [(0, wRow.body), (1, (wHeld 3 false).body)] }] fun d => d;
        s.dev.hq.cmds = [{ wCmd [(0, 1), (1, 17), (4, 5), (2, 0), (6, 1), (8, 2), (24, 2)] with ready := true, started := true, offered := 2, got := [(0, wRow.body), (1, (wHeld 3 false).body)] }] ∧
        ({ wCmd [(0, 1), (1, 17), (4, 5), (2, 0), (6, 1), (8, 2), (24, 2)] with ready := true, started := true, offered := 2, got := [(0, wRow.body), (1, (wHeld 3 false).body)] } : Cmd).src = .ring 0 ∧
        ({ wCmd [(0, 1), (1, 17), (4, 5), (2, 0), (6, 1), (8, 2), (24, 2)] with ready := true, started := true, offered := 2, got := [(0, wRow.body), (1, (wHeld 3 false).body)] } : Cmd).tag = 5 ∧
        ({ wCmd [(0, 1), (1, 17), (4, 5), (2, 0), (6, 1), (8, 2), (24, 2)] with ready := true, started := true, offered := 2, got := [(0, wRow.body), (1, (wHeld 3 false).body)] } : Cmd).op = 17 ∧
        ({ wCmd [(0, 1), (1, 17), (4, 5), (2, 0), (6, 1), (8, 2), (24, 2)] with ready := true, started := true, offered := 2, got := [(0, wRow.body), (1, (wHeld 3 false).body)] } : Cmd).nsid < 0x100 ∧
        ({ wCmd [(0, 1), (1, 17), (4, 5), (2, 0), (6, 1), (8, 2), (24, 2)] with ready := true, started := true, offered := 2, got := [(0, wRow.body), (1, (wHeld 3 false).body)] } : Cmd).silent = false ∧
        ({ wCmd [(0, 1), (1, 17), (4, 5), (2, 0), (6, 1), (8, 2), (24, 2)] with ready := true, started := true, offered := 2, got := [(0, wRow.body), (1, (wHeld 3 false).body)] } : Cmd).acked = false ∧
        ({ wCmd [(0, 1), (1, 17), (4, 5), (2, 0), (6, 1), (8, 2), (24, 2)] with ready := true, started := true, offered := 2, got := [(0, wRow.body), (1, (wHeld 3 false).body)] } : Cmd).ready = true ∧
        ({ wCmd [(0, 1), (1, 17), (4, 5), (2, 0), (6, 1), (8, 2), (24, 2)] with ready := true, started := true, offered := 2, got := [(0, wRow.body), (1, (wHeld 3 false).body)] } : Cmd).got.length = ({ wCmd [(0, 1), (1, 17), (4, 5), (2, 0), (6, 1), (8, 2), (24, 2)] with ready := true, started := true, offered := 2, got := [(0, wRow.body), (1, (wHeld 3 false).body)] } : Cmd).len ∧
        ({ wCmd [(0, 1), (1, 17), (4, 5), (2, 0), (6, 1), (8, 2), (24, 2)] with ready := true, started := true, offered := 2, got := [(0, wRow.body), (1, (wHeld 3 false).body)] } : Cmd).fua = false ∧
        s.dev.ghostLight = false ∧
        ({ wCmd [(0, 1), (1, 17), (4, 5), (2, 0), (6, 1), (8, 2), (24, 2)] with ready := true, started := true, offered := 2, got := [(0, wRow.body), (1, (wHeld 3 false).body)] } : Cmd).got.map (·.1) = [0, 1]) ∧
    (let s := wHost [] [{ wCmd [(0, 1), (1, 17), (4, 5), (2, 1), (6, 1), (8, 2), (24, 2)] with ready := true, started := true, offered := 2, got := [(0, wRow.body), (1, (wHeld 3 false).body)] }] fun d => d;
        s.dev.hq.cmds = [{ wCmd [(0, 1), (1, 17), (4, 5), (2, 1), (6, 1), (8, 2), (24, 2)] with ready := true, started := true, offered := 2, got := [(0, wRow.body), (1, (wHeld 3 false).body)] }] ∧
        ({ wCmd [(0, 1), (1, 17), (4, 5), (2, 1), (6, 1), (8, 2), (24, 2)] with ready := true, started := true, offered := 2, got := [(0, wRow.body), (1, (wHeld 3 false).body)] } : Cmd).src = .ring 0 ∧
        ({ wCmd [(0, 1), (1, 17), (4, 5), (2, 1), (6, 1), (8, 2), (24, 2)] with ready := true, started := true, offered := 2, got := [(0, wRow.body), (1, (wHeld 3 false).body)] } : Cmd).tag = 5 ∧
        ({ wCmd [(0, 1), (1, 17), (4, 5), (2, 1), (6, 1), (8, 2), (24, 2)] with ready := true, started := true, offered := 2, got := [(0, wRow.body), (1, (wHeld 3 false).body)] } : Cmd).op = 17 ∧
        ({ wCmd [(0, 1), (1, 17), (4, 5), (2, 1), (6, 1), (8, 2), (24, 2)] with ready := true, started := true, offered := 2, got := [(0, wRow.body), (1, (wHeld 3 false).body)] } : Cmd).nsid < 0x100 ∧
        ({ wCmd [(0, 1), (1, 17), (4, 5), (2, 1), (6, 1), (8, 2), (24, 2)] with ready := true, started := true, offered := 2, got := [(0, wRow.body), (1, (wHeld 3 false).body)] } : Cmd).silent = false ∧
        ({ wCmd [(0, 1), (1, 17), (4, 5), (2, 1), (6, 1), (8, 2), (24, 2)] with ready := true, started := true, offered := 2, got := [(0, wRow.body), (1, (wHeld 3 false).body)] } : Cmd).acked = false ∧
        ({ wCmd [(0, 1), (1, 17), (4, 5), (2, 1), (6, 1), (8, 2), (24, 2)] with ready := true, started := true, offered := 2, got := [(0, wRow.body), (1, (wHeld 3 false).body)] } : Cmd).ready = true ∧
        ({ wCmd [(0, 1), (1, 17), (4, 5), (2, 1), (6, 1), (8, 2), (24, 2)] with ready := true, started := true, offered := 2, got := [(0, wRow.body), (1, (wHeld 3 false).body)] } : Cmd).got.length = ({ wCmd [(0, 1), (1, 17), (4, 5), (2, 1), (6, 1), (8, 2), (24, 2)] with ready := true, started := true, offered := 2, got := [(0, wRow.body), (1, (wHeld 3 false).body)] } : Cmd).len ∧
        ({ wCmd [(0, 1), (1, 17), (4, 5), (2, 1), (6, 1), (8, 2), (24, 2)] with ready := true, started := true, offered := 2, got := [(0, wRow.body), (1, (wHeld 3 false).body)] } : Cmd).fua = true ∧
        s.dev.ghostLight = false ∧
        ({ wCmd [(0, 1), (1, 17), (4, 5), (2, 1), (6, 1), (8, 2), (24, 2)] with ready := true, started := true, offered := 2, got := [(0, wRow.body), (1, (wHeld 3 false).body)] } : Cmd).got.map (·.1) = [0, 1]) ∧
    (let s := wHost [] [{ wCmd [(0, 1), (1, 17), (4, 5), (2, 0), (6, 1), (8, 2), (24, 2)] with ready := true, started := true, offered := 2, got := [(0, wRow.body), (1, (wHeld 3 false).body)] }] fun d => { d with regs := sset d.regs (regReset rTopMode) rTopMode 2 };
        s.dev.hq.cmds = [{ wCmd [(0, 1), (1, 17), (4, 5), (2, 0), (6, 1), (8, 2), (24, 2)] with ready := true, started := true, offered := 2, got := [(0, wRow.body), (1, (wHeld 3 false).body)] }] ∧
        ({ wCmd [(0, 1), (1, 17), (4, 5), (2, 0), (6, 1), (8, 2), (24, 2)] with ready := true, started := true, offered := 2, got := [(0, wRow.body), (1, (wHeld 3 false).body)] } : Cmd).src = .ring 0 ∧
        ({ wCmd [(0, 1), (1, 17), (4, 5), (2, 0), (6, 1), (8, 2), (24, 2)] with ready := true, started := true, offered := 2, got := [(0, wRow.body), (1, (wHeld 3 false).body)] } : Cmd).tag = 5 ∧
        ({ wCmd [(0, 1), (1, 17), (4, 5), (2, 0), (6, 1), (8, 2), (24, 2)] with ready := true, started := true, offered := 2, got := [(0, wRow.body), (1, (wHeld 3 false).body)] } : Cmd).op = 17 ∧
        ({ wCmd [(0, 1), (1, 17), (4, 5), (2, 0), (6, 1), (8, 2), (24, 2)] with ready := true, started := true, offered := 2, got := [(0, wRow.body), (1, (wHeld 3 false).body)] } : Cmd).nsid < 0x100 ∧
        ({ wCmd [(0, 1), (1, 17), (4, 5), (2, 0), (6, 1), (8, 2), (24, 2)] with ready := true, started := true, offered := 2, got := [(0, wRow.body), (1, (wHeld 3 false).body)] } : Cmd).silent = false ∧
        ({ wCmd [(0, 1), (1, 17), (4, 5), (2, 0), (6, 1), (8, 2), (24, 2)] with ready := true, started := true, offered := 2, got := [(0, wRow.body), (1, (wHeld 3 false).body)] } : Cmd).acked = false ∧
        ({ wCmd [(0, 1), (1, 17), (4, 5), (2, 0), (6, 1), (8, 2), (24, 2)] with ready := true, started := true, offered := 2, got := [(0, wRow.body), (1, (wHeld 3 false).body)] } : Cmd).ready = true ∧
        ({ wCmd [(0, 1), (1, 17), (4, 5), (2, 0), (6, 1), (8, 2), (24, 2)] with ready := true, started := true, offered := 2, got := [(0, wRow.body), (1, (wHeld 3 false).body)] } : Cmd).got.length = ({ wCmd [(0, 1), (1, 17), (4, 5), (2, 0), (6, 1), (8, 2), (24, 2)] with ready := true, started := true, offered := 2, got := [(0, wRow.body), (1, (wHeld 3 false).body)] } : Cmd).len ∧
        ({ wCmd [(0, 1), (1, 17), (4, 5), (2, 0), (6, 1), (8, 2), (24, 2)] with ready := true, started := true, offered := 2, got := [(0, wRow.body), (1, (wHeld 3 false).body)] } : Cmd).fua = false ∧
        s.dev.ghostLight = true ∧
        ({ wCmd [(0, 1), (1, 17), (4, 5), (2, 0), (6, 1), (8, 2), (24, 2)] with ready := true, started := true, offered := 2, got := [(0, wRow.body), (1, (wHeld 3 false).body)] } : Cmd).got.map (·.1) = [0, 1]) ∧
    (let s := wHost [] [{ wCmd [(0, 1), (1, 17), (4, 5), (2, 1), (6, 1), (8, 2), (24, 2)] with ready := true, started := true, offered := 2, got := [(0, wRow.body), (1, (wHeld 3 false).body)] }] fun d => { d with regs := sset d.regs (regReset rTopMode) rTopMode 2 };
        s.dev.hq.cmds = [{ wCmd [(0, 1), (1, 17), (4, 5), (2, 1), (6, 1), (8, 2), (24, 2)] with ready := true, started := true, offered := 2, got := [(0, wRow.body), (1, (wHeld 3 false).body)] }] ∧
        ({ wCmd [(0, 1), (1, 17), (4, 5), (2, 1), (6, 1), (8, 2), (24, 2)] with ready := true, started := true, offered := 2, got := [(0, wRow.body), (1, (wHeld 3 false).body)] } : Cmd).src = .ring 0 ∧
        ({ wCmd [(0, 1), (1, 17), (4, 5), (2, 1), (6, 1), (8, 2), (24, 2)] with ready := true, started := true, offered := 2, got := [(0, wRow.body), (1, (wHeld 3 false).body)] } : Cmd).tag = 5 ∧
        ({ wCmd [(0, 1), (1, 17), (4, 5), (2, 1), (6, 1), (8, 2), (24, 2)] with ready := true, started := true, offered := 2, got := [(0, wRow.body), (1, (wHeld 3 false).body)] } : Cmd).op = 17 ∧
        ({ wCmd [(0, 1), (1, 17), (4, 5), (2, 1), (6, 1), (8, 2), (24, 2)] with ready := true, started := true, offered := 2, got := [(0, wRow.body), (1, (wHeld 3 false).body)] } : Cmd).nsid < 0x100 ∧
        ({ wCmd [(0, 1), (1, 17), (4, 5), (2, 1), (6, 1), (8, 2), (24, 2)] with ready := true, started := true, offered := 2, got := [(0, wRow.body), (1, (wHeld 3 false).body)] } : Cmd).silent = false ∧
        ({ wCmd [(0, 1), (1, 17), (4, 5), (2, 1), (6, 1), (8, 2), (24, 2)] with ready := true, started := true, offered := 2, got := [(0, wRow.body), (1, (wHeld 3 false).body)] } : Cmd).acked = false ∧
        ({ wCmd [(0, 1), (1, 17), (4, 5), (2, 1), (6, 1), (8, 2), (24, 2)] with ready := true, started := true, offered := 2, got := [(0, wRow.body), (1, (wHeld 3 false).body)] } : Cmd).ready = true ∧
        ({ wCmd [(0, 1), (1, 17), (4, 5), (2, 1), (6, 1), (8, 2), (24, 2)] with ready := true, started := true, offered := 2, got := [(0, wRow.body), (1, (wHeld 3 false).body)] } : Cmd).got.length = ({ wCmd [(0, 1), (1, 17), (4, 5), (2, 1), (6, 1), (8, 2), (24, 2)] with ready := true, started := true, offered := 2, got := [(0, wRow.body), (1, (wHeld 3 false).body)] } : Cmd).len ∧
        ({ wCmd [(0, 1), (1, 17), (4, 5), (2, 1), (6, 1), (8, 2), (24, 2)] with ready := true, started := true, offered := 2, got := [(0, wRow.body), (1, (wHeld 3 false).body)] } : Cmd).fua = true ∧
        s.dev.ghostLight = true) ∧
    (let s := wHost [] [wCmd [(0, 1), (1, 18), (4, 5), (2, 8), (6, 1), (8, 2), (24, 2), (32, 0x1000), (40, 8192)]] fun d => { d with hq.rows := [wHeld 2 false, wHeld 3 false] };
        s.dev.hq.cmds = [wCmd [(0, 1), (1, 18), (4, 5), (2, 8), (6, 1), (8, 2), (24, 2), (32, 0x1000), (40, 8192)]] ∧
        (wCmd [(0, 1), (1, 18), (4, 5), (2, 8), (6, 1), (8, 2), (24, 2), (32, 0x1000), (40, 8192)]).src = .ring 0 ∧
        (wCmd [(0, 1), (1, 18), (4, 5), (2, 8), (6, 1), (8, 2), (24, 2), (32, 0x1000), (40, 8192)]).tag = 5 ∧
        (wCmd [(0, 1), (1, 18), (4, 5), (2, 8), (6, 1), (8, 2), (24, 2), (32, 0x1000), (40, 8192)]).op = 18 ∧
        (wCmd [(0, 1), (1, 18), (4, 5), (2, 8), (6, 1), (8, 2), (24, 2), (32, 0x1000), (40, 8192)]).started = false ∧
        (wCmd [(0, 1), (1, 18), (4, 5), (2, 8), (6, 1), (8, 2), (24, 2), (32, 0x1000), (40, 8192)]).silent = false ∧
        (wCmd [(0, 1), (1, 18), (4, 5), (2, 8), (6, 1), (8, 2), (24, 2), (32, 0x1000), (40, 8192)]).nsid < 0x100 ∧
        s.dev.mayRun (wCmd [(0, 1), (1, 18), (4, 5), (2, 8), (6, 1), (8, 2), (24, 2), (32, 0x1000), (40, 8192)]) = true ∧
        (∀ k : Fin 2, s.dev.rowAt (s.dev.nsFirst 1 + (2 + k.val)) = some (wHeld (2 + k.val) false) ∧
        (wHeld (2 + k.val) false).body.good ((wCmd [(0, 1), (1, 18), (4, 5), (2, 8), (6, 1), (8, 2), (24, 2), (32, 0x1000), (40, 8192)]).tagOf 0 + k.val) = true) ∧
        (wCmd [(0, 1), (1, 18), (4, 5), (2, 8), (6, 1), (8, 2), (24, 2), (32, 0x1000), (40, 8192)]).len = 2) ∧
    (let s := wHost [] [] fun d => { d with hq.entries := [(.ring 0, wSlot [(0, 5), (2, 0), (4, 9), (6, 5)])] };
        (CmdSrc.ring 0, wSlot [(0, 5), (2, 0), (4, 9), (6, 5)]) ∈ s.dev.hq.entries ∧ s.dev.hq.cmds = [] ∧
        s.dev.tagBusy (abortTarget (.ring 0) (wSlot [(0, 5), (2, 0), (4, 9), (6, 5)])) (BitVec.ofNat 16 (slotField (wSlot [(0, 5), (2, 0), (4, 9), (6, 5)]) 6 2)) = false) ∧
    (let s := wHost [] [] fun d => { d with hq.entries := [(.ring 0, wSlot [(0, 5), (2, 0), (4, 9), (6, 5)])], hq.rings := vmod d.hq.rings (0 : RingId) fun r => { r with held := [.status 5 0 0 0 0 0 0 false false false] } };
        (CmdSrc.ring 0, wSlot [(0, 5), (2, 0), (4, 9), (6, 5)]) ∈ s.dev.hq.entries ∧ s.dev.hq.cmds = [] ∧
        s.dev.tagBusy (abortTarget (.ring 0) (wSlot [(0, 5), (2, 0), (4, 9), (6, 5)])) (BitVec.ofNat 16 (slotField (wSlot [(0, 5), (2, 0), (4, 9), (6, 5)]) 6 2)) = true) ∧
    (let s := wHost [] [{ wCmd [(0, 1), (1, 17), (4, 5), (6, 1), (8, 2), (24, 2)] with ready := true, started := true, offered := 2, nextOffer := 1, offers := [⟨0, 0, 2, 0⟩] }] fun d => { d with hq.entries := [(.ring 0, wSlot [(0, 5), (2, 0), (4, 9), (6, 5)])] };
        (CmdSrc.ring 0, wSlot [(0, 5), (2, 0), (4, 9), (6, 5)]) ∈ s.dev.hq.entries ∧
        s.dev.hq.cmds = [{ wCmd [(0, 1), (1, 17), (4, 5), (6, 1), (8, 2), (24, 2)] with ready := true, started := true, offered := 2, nextOffer := 1, offers := [⟨0, 0, 2, 0⟩] }] ∧
        ({ wCmd [(0, 1), (1, 17), (4, 5), (6, 1), (8, 2), (24, 2)] with ready := true, started := true, offered := 2, nextOffer := 1, offers := [⟨0, 0, 2, 0⟩] } : Cmd).src = abortTarget (.ring 0) (wSlot [(0, 5), (2, 0), (4, 9), (6, 5)]) ∧
        ({ wCmd [(0, 1), (1, 17), (4, 5), (6, 1), (8, 2), (24, 2)] with ready := true, started := true, offered := 2, nextOffer := 1, offers := [⟨0, 0, 2, 0⟩] } : Cmd).tag = BitVec.ofNat 16 (slotField (wSlot [(0, 5), (2, 0), (4, 9), (6, 5)]) 6 2) ∧
        ({ wCmd [(0, 1), (1, 17), (4, 5), (6, 1), (8, 2), (24, 2)] with ready := true, started := true, offered := 2, nextOffer := 1, offers := [⟨0, 0, 2, 0⟩] } : Cmd).op = 0x11 ∧
        ({ wCmd [(0, 1), (1, 17), (4, 5), (6, 1), (8, 2), (24, 2)] with ready := true, started := true, offered := 2, nextOffer := 1, offers := [⟨0, 0, 2, 0⟩] } : Cmd).subs = [] ∧
        ({ wCmd [(0, 1), (1, 17), (4, 5), (6, 1), (8, 2), (24, 2)] with ready := true, started := true, offered := 2, nextOffer := 1, offers := [⟨0, 0, 2, 0⟩] } : Cmd).silent = false ∧
        ({ wCmd [(0, 1), (1, 17), (4, 5), (6, 1), (8, 2), (24, 2)] with ready := true, started := true, offered := 2, nextOffer := 1, offers := [⟨0, 0, 2, 0⟩] } : Cmd).acked = false) := by
  refine ⟨?_, ?_, ?_, ?_, ?_, ?_, ?_, ?_, ?_, ?_, ?_, ?_, ?_, ?_, ?_, ?_, ?_, ?_⟩ <;> decide

/-- The hypotheses of HostFeaturesAndPages are met. -/
theorem witness_HostFeaturesAndPages :
    (let s := wHost [] [wCmd [(0, 1), (1, 50), (4, 5), (8, 5), (24, 9), (48, 1), (52, 3)]] fun d => d;
        s.dev.hq.cmds = [wCmd [(0, 1), (1, 50), (4, 5), (8, 5), (24, 9), (48, 1), (52, 3)]] ∧
        (wCmd [(0, 1), (1, 50), (4, 5), (8, 5), (24, 9), (48, 1), (52, 3)]).src = .ring 0 ∧
        (wCmd [(0, 1), (1, 50), (4, 5), (8, 5), (24, 9), (48, 1), (52, 3)]).tag = 5 ∧
        (wCmd [(0, 1), (1, 50), (4, 5), (8, 5), (24, 9), (48, 1), (52, 3)]).op = 50 ∧
        (wCmd [(0, 1), (1, 50), (4, 5), (8, 5), (24, 9), (48, 1), (52, 3)]).started = false ∧
        (wCmd [(0, 1), (1, 50), (4, 5), (8, 5), (24, 9), (48, 1), (52, 3)]).silent = false ∧
        pCdw0 (wCmd [(0, 1), (1, 50), (4, 5), (8, 5), (24, 9), (48, 1), (52, 3)]).slot % 2 ^ 16 = 1) ∧
    (let s := wHost [] [wCmd [(0, 1), (1, 50), (4, 5), (8, 5), (24, 9), (48, 2097154), (52, 3)]] fun d => d;
        s.dev.hq.cmds = [wCmd [(0, 1), (1, 50), (4, 5), (8, 5), (24, 9), (48, 2097154), (52, 3)]] ∧
        (wCmd [(0, 1), (1, 50), (4, 5), (8, 5), (24, 9), (48, 2097154), (52, 3)]).src = .ring 0 ∧
        (wCmd [(0, 1), (1, 50), (4, 5), (8, 5), (24, 9), (48, 2097154), (52, 3)]).tag = 5 ∧
        (wCmd [(0, 1), (1, 50), (4, 5), (8, 5), (24, 9), (48, 2097154), (52, 3)]).op = 50 ∧
        (wCmd [(0, 1), (1, 50), (4, 5), (8, 5), (24, 9), (48, 2097154), (52, 3)]).started = false ∧
        (wCmd [(0, 1), (1, 50), (4, 5), (8, 5), (24, 9), (48, 2097154), (52, 3)]).silent = false ∧
        pCdw0 (wCmd [(0, 1), (1, 50), (4, 5), (8, 5), (24, 9), (48, 2097154), (52, 3)]).slot % 2 ^ 16 = 2) ∧
    (let s := wHost [] [wCmd [(0, 1), (1, 50), (4, 5), (8, 5), (24, 9), (48, 3), (52, 3)]] fun d => d;
        s.dev.hq.cmds = [wCmd [(0, 1), (1, 50), (4, 5), (8, 5), (24, 9), (48, 3), (52, 3)]] ∧
        (wCmd [(0, 1), (1, 50), (4, 5), (8, 5), (24, 9), (48, 3), (52, 3)]).src = .ring 0 ∧
        (wCmd [(0, 1), (1, 50), (4, 5), (8, 5), (24, 9), (48, 3), (52, 3)]).tag = 5 ∧
        (wCmd [(0, 1), (1, 50), (4, 5), (8, 5), (24, 9), (48, 3), (52, 3)]).op = 50 ∧
        (wCmd [(0, 1), (1, 50), (4, 5), (8, 5), (24, 9), (48, 3), (52, 3)]).started = false ∧
        (wCmd [(0, 1), (1, 50), (4, 5), (8, 5), (24, 9), (48, 3), (52, 3)]).silent = false ∧
        pCdw0 (wCmd [(0, 1), (1, 50), (4, 5), (8, 5), (24, 9), (48, 3), (52, 3)]).slot % 2 ^ 16 = 3) ∧
    (let s := wHost [] [wCmd [(0, 1), (1, 50), (4, 5), (8, 5), (24, 9), (48, 4), (52, 3)]] fun d => d;
        s.dev.hq.cmds = [wCmd [(0, 1), (1, 50), (4, 5), (8, 5), (24, 9), (48, 4), (52, 3)]] ∧
        (wCmd [(0, 1), (1, 50), (4, 5), (8, 5), (24, 9), (48, 4), (52, 3)]).src = .ring 0 ∧
        (wCmd [(0, 1), (1, 50), (4, 5), (8, 5), (24, 9), (48, 4), (52, 3)]).tag = 5 ∧
        (wCmd [(0, 1), (1, 50), (4, 5), (8, 5), (24, 9), (48, 4), (52, 3)]).op = 50 ∧
        (wCmd [(0, 1), (1, 50), (4, 5), (8, 5), (24, 9), (48, 4), (52, 3)]).started = false ∧
        (wCmd [(0, 1), (1, 50), (4, 5), (8, 5), (24, 9), (48, 4), (52, 3)]).silent = false ∧
        pCdw0 (wCmd [(0, 1), (1, 50), (4, 5), (8, 5), (24, 9), (48, 4), (52, 3)]).slot % 2 ^ 16 = 4) ∧
    (let s := wHost [] [wCmd [(0, 1), (1, 50), (4, 5), (8, 5), (24, 9), (48, 5), (52, 3)]] fun d => d;
        s.dev.hq.cmds = [wCmd [(0, 1), (1, 50), (4, 5), (8, 5), (24, 9), (48, 5), (52, 3)]] ∧
        (wCmd [(0, 1), (1, 50), (4, 5), (8, 5), (24, 9), (48, 5), (52, 3)]).src = .ring 0 ∧
        (wCmd [(0, 1), (1, 50), (4, 5), (8, 5), (24, 9), (48, 5), (52, 3)]).tag = 5 ∧
        (wCmd [(0, 1), (1, 50), (4, 5), (8, 5), (24, 9), (48, 5), (52, 3)]).op = 50 ∧
        (wCmd [(0, 1), (1, 50), (4, 5), (8, 5), (24, 9), (48, 5), (52, 3)]).started = false ∧
        (wCmd [(0, 1), (1, 50), (4, 5), (8, 5), (24, 9), (48, 5), (52, 3)]).silent = false ∧
        pCdw0 (wCmd [(0, 1), (1, 50), (4, 5), (8, 5), (24, 9), (48, 5), (52, 3)]).slot % 2 ^ 16 = 5) ∧
    (let s := wHost [] [wCmd [(0, 1), (1, 51), (4, 5), (48, 1)]] fun d => d;
        s.dev.hq.cmds = [wCmd [(0, 1), (1, 51), (4, 5), (48, 1)]] ∧
        (wCmd [(0, 1), (1, 51), (4, 5), (48, 1)]).src = .ring 0 ∧ (wCmd [(0, 1), (1, 51), (4, 5), (48, 1)]).tag = 5 ∧
        (wCmd [(0, 1), (1, 51), (4, 5), (48, 1)]).op = 51 ∧
        (wCmd [(0, 1), (1, 51), (4, 5), (48, 1)]).started = false ∧
        (wCmd [(0, 1), (1, 51), (4, 5), (48, 1)]).silent = false ∧
        pCdw0 (wCmd [(0, 1), (1, 51), (4, 5), (48, 1)]).slot % 2 ^ 16 = 1) ∧
    (let s := wHost [] [wCmd [(0, 1), (1, 51), (4, 5), (48, 2097154)]] fun d => d;
        s.dev.hq.cmds = [wCmd [(0, 1), (1, 51), (4, 5), (48, 2097154)]] ∧
        (wCmd [(0, 1), (1, 51), (4, 5), (48, 2097154)]).src = .ring 0 ∧
        (wCmd [(0, 1), (1, 51), (4, 5), (48, 2097154)]).tag = 5 ∧
        (wCmd [(0, 1), (1, 51), (4, 5), (48, 2097154)]).op = 51 ∧
        (wCmd [(0, 1), (1, 51), (4, 5), (48, 2097154)]).started = false ∧
        (wCmd [(0, 1), (1, 51), (4, 5), (48, 2097154)]).silent = false ∧
        pCdw0 (wCmd [(0, 1), (1, 51), (4, 5), (48, 2097154)]).slot % 2 ^ 16 = 2) ∧
    (let s := wHost [] [wCmd [(0, 1), (1, 51), (4, 5), (48, 3)]] fun d => d;
        s.dev.hq.cmds = [wCmd [(0, 1), (1, 51), (4, 5), (48, 3)]] ∧
        (wCmd [(0, 1), (1, 51), (4, 5), (48, 3)]).src = .ring 0 ∧ (wCmd [(0, 1), (1, 51), (4, 5), (48, 3)]).tag = 5 ∧
        (wCmd [(0, 1), (1, 51), (4, 5), (48, 3)]).op = 51 ∧
        (wCmd [(0, 1), (1, 51), (4, 5), (48, 3)]).started = false ∧
        (wCmd [(0, 1), (1, 51), (4, 5), (48, 3)]).silent = false ∧
        pCdw0 (wCmd [(0, 1), (1, 51), (4, 5), (48, 3)]).slot % 2 ^ 16 = 3) ∧
    (let s := wHost [] [wCmd [(0, 1), (1, 51), (4, 5), (48, 4)]] fun d => d;
        s.dev.hq.cmds = [wCmd [(0, 1), (1, 51), (4, 5), (48, 4)]] ∧
        (wCmd [(0, 1), (1, 51), (4, 5), (48, 4)]).src = .ring 0 ∧ (wCmd [(0, 1), (1, 51), (4, 5), (48, 4)]).tag = 5 ∧
        (wCmd [(0, 1), (1, 51), (4, 5), (48, 4)]).op = 51 ∧
        (wCmd [(0, 1), (1, 51), (4, 5), (48, 4)]).started = false ∧
        (wCmd [(0, 1), (1, 51), (4, 5), (48, 4)]).silent = false ∧
        pCdw0 (wCmd [(0, 1), (1, 51), (4, 5), (48, 4)]).slot % 2 ^ 16 = 4) ∧
    (let s := wHost [] [wCmd [(0, 1), (1, 51), (4, 5), (48, 5)]] fun d => d;
        s.dev.hq.cmds = [wCmd [(0, 1), (1, 51), (4, 5), (48, 5)]] ∧
        (wCmd [(0, 1), (1, 51), (4, 5), (48, 5)]).src = .ring 0 ∧ (wCmd [(0, 1), (1, 51), (4, 5), (48, 5)]).tag = 5 ∧
        (wCmd [(0, 1), (1, 51), (4, 5), (48, 5)]).op = 51 ∧
        (wCmd [(0, 1), (1, 51), (4, 5), (48, 5)]).started = false ∧
        (wCmd [(0, 1), (1, 51), (4, 5), (48, 5)]).silent = false ∧
        pCdw0 (wCmd [(0, 1), (1, 51), (4, 5), (48, 5)]).slot % 2 ^ 16 = 5) ∧
    (let s := wHost [] [wCmd [(0, 1), (1, 52), (4, 5), (48, 63), (52, 77)]] fun d => d;
        s.dev.hq.cmds = [wCmd [(0, 1), (1, 52), (4, 5), (48, 63), (52, 77)]] ∧
        (wCmd [(0, 1), (1, 52), (4, 5), (48, 63), (52, 77)]).src = .ring 0 ∧
        (wCmd [(0, 1), (1, 52), (4, 5), (48, 63), (52, 77)]).tag = 5 ∧
        (wCmd [(0, 1), (1, 52), (4, 5), (48, 63), (52, 77)]).op = 52 ∧
        (wCmd [(0, 1), (1, 52), (4, 5), (48, 63), (52, 77)]).started = false ∧
        (wCmd [(0, 1), (1, 52), (4, 5), (48, 63), (52, 77)]).silent = false) ∧
    (let s := wHost [] [wCmd [(0, 1), (1, 48), (4, 5), (2, 8), (32, 0x1000), (40, 4096)]] fun d => d;
        s.dev.hq.cmds = [wCmd [(0, 1), (1, 48), (4, 5), (2, 8), (32, 0x1000), (40, 4096)]] ∧
        (wCmd [(0, 1), (1, 48), (4, 5), (2, 8), (32, 0x1000), (40, 4096)]).src = .ring 0 ∧
        (wCmd [(0, 1), (1, 48), (4, 5), (2, 8), (32, 0x1000), (40, 4096)]).tag = 5 ∧
        (wCmd [(0, 1), (1, 48), (4, 5), (2, 8), (32, 0x1000), (40, 4096)]).op = 48 ∧
        (wCmd [(0, 1), (1, 48), (4, 5), (2, 8), (32, 0x1000), (40, 4096)]).started = false ∧
        (wCmd [(0, 1), (1, 48), (4, 5), (2, 8), (32, 0x1000), (40, 4096)]).silent = false ∧
        s.dev.cue.used[3] + 4096 ≤ s.dev.fld (rBudget 3) 0 24 * 65536 ∧
        pCdw0 (wCmd [(0, 1), (1, 48), (4, 5), (2, 8), (32, 0x1000), (40, 4096)]).slot = 0 ∧
        (wCmd [(0, 1), (1, 48), (4, 5), (2, 8), (32, 0x1000), (40, 4096)]).offered = 0 ∧
        4096 ≤ pDlen (wCmd [(0, 1), (1, 48), (4, 5), (2, 8), (32, 0x1000), (40, 4096)]).slot) ∧
    (let s := wHost [] [wCmd [(0, 1), (1, 48), (4, 5), (2, 0), (32, 0x1000), (40, 4096)]] fun d => d;
        s.dev.hq.cmds = [wCmd [(0, 1), (1, 48), (4, 5), (2, 0), (32, 0x1000), (40, 4096)]] ∧
        (wCmd [(0, 1), (1, 48), (4, 5), (2, 0), (32, 0x1000), (40, 4096)]).src = .ring 0 ∧
        (wCmd [(0, 1), (1, 48), (4, 5), (2, 0), (32, 0x1000), (40, 4096)]).tag = 5 ∧
        (wCmd [(0, 1), (1, 48), (4, 5), (2, 0), (32, 0x1000), (40, 4096)]).op = 48 ∧
        (wCmd [(0, 1), (1, 48), (4, 5), (2, 0), (32, 0x1000), (40, 4096)]).started = false ∧
        (wCmd [(0, 1), (1, 48), (4, 5), (2, 0), (32, 0x1000), (40, 4096)]).silent = false ∧
        s.dev.cue.used[3] + 4096 ≤ s.dev.fld (rBudget 3) 0 24 * 65536 ∧
        pCdw0 (wCmd [(0, 1), (1, 48), (4, 5), (2, 0), (32, 0x1000), (40, 4096)]).slot = 0 ∧
        (wCmd [(0, 1), (1, 48), (4, 5), (2, 0), (32, 0x1000), (40, 4096)]).offered = 0 ∧
        4096 ≤ pDlen (wCmd [(0, 1), (1, 48), (4, 5), (2, 0), (32, 0x1000), (40, 4096)]).slot) ∧
    (let s := wHost [] [wCmd [(0, 1), (1, 48), (4, 5), (2, 8), (6, 33), (32, 0x1000), (40, 4096), (48, 1)]] fun d => d;
        s.dev.hq.cmds = [wCmd [(0, 1), (1, 48), (4, 5), (2, 8), (6, 33), (32, 0x1000), (40, 4096), (48, 1)]] ∧
        (wCmd [(0, 1), (1, 48), (4, 5), (2, 8), (6, 33), (32, 0x1000), (40, 4096), (48, 1)]).src = .ring 0 ∧
        (wCmd [(0, 1), (1, 48), (4, 5), (2, 8), (6, 33), (32, 0x1000), (40, 4096), (48, 1)]).tag = 5 ∧
        (wCmd [(0, 1), (1, 48), (4, 5), (2, 8), (6, 33), (32, 0x1000), (40, 4096), (48, 1)]).op = 48 ∧
        (wCmd [(0, 1), (1, 48), (4, 5), (2, 8), (6, 33), (32, 0x1000), (40, 4096), (48, 1)]).started = false ∧
        (wCmd [(0, 1), (1, 48), (4, 5), (2, 8), (6, 33), (32, 0x1000), (40, 4096), (48, 1)]).silent = false ∧
        s.dev.cue.used[3] + 4096 ≤ s.dev.fld (rBudget 3) 0 24 * 65536 ∧
        pCdw0 (wCmd [(0, 1), (1, 48), (4, 5), (2, 8), (6, 33), (32, 0x1000), (40, 4096), (48, 1)]).slot = 1 ∧
        s.dev.nsOn 33 = false ∧
        (wCmd [(0, 1), (1, 48), (4, 5), (2, 8), (6, 33), (32, 0x1000), (40, 4096), (48, 1)]).nsid = 33) ∧
    (let s := wHost [] [wCmd [(0, 1), (1, 48), (4, 5), (2, 8), (6, 1), (32, 0x1000), (40, 4096), (48, 1)]] fun d => d;
        s.dev.hq.cmds = [wCmd [(0, 1), (1, 48), (4, 5), (2, 8), (6, 1), (32, 0x1000), (40, 4096), (48, 1)]] ∧
        (wCmd [(0, 1), (1, 48), (4, 5), (2, 8), (6, 1), (32, 0x1000), (40, 4096), (48, 1)]).src = .ring 0 ∧
        (wCmd [(0, 1), (1, 48), (4, 5), (2, 8), (6, 1), (32, 0x1000), (40, 4096), (48, 1)]).tag = 5 ∧
        (wCmd [(0, 1), (1, 48), (4, 5), (2, 8), (6, 1), (32, 0x1000), (40, 4096), (48, 1)]).op = 48 ∧
        (wCmd [(0, 1), (1, 48), (4, 5), (2, 8), (6, 1), (32, 0x1000), (40, 4096), (48, 1)]).started = false ∧
        (wCmd [(0, 1), (1, 48), (4, 5), (2, 8), (6, 1), (32, 0x1000), (40, 4096), (48, 1)]).silent = false ∧
        s.dev.cue.used[3] + 4096 ≤ s.dev.fld (rBudget 3) 0 24 * 65536 ∧
        pCdw0 (wCmd [(0, 1), (1, 48), (4, 5), (2, 8), (6, 1), (32, 0x1000), (40, 4096), (48, 1)]).slot = 1 ∧
        s.dev.nsOn 1 = true ∧
        (wCmd [(0, 1), (1, 48), (4, 5), (2, 8), (6, 1), (32, 0x1000), (40, 4096), (48, 1)]).nsid = 1) ∧
    (let s := wHost [] [wCmd [(0, 1), (1, 49), (4, 5), (2, 8), (32, 0x1000), (40, 16), (48, 1), (52, 8)]] fun d => d;
        s.dev.hq.cmds = [wCmd [(0, 1), (1, 49), (4, 5), (2, 8), (32, 0x1000), (40, 16), (48, 1), (52, 8)]] ∧
        (wCmd [(0, 1), (1, 49), (4, 5), (2, 8), (32, 0x1000), (40, 16), (48, 1), (52, 8)]).src = .ring 0 ∧
        (wCmd [(0, 1), (1, 49), (4, 5), (2, 8), (32, 0x1000), (40, 16), (48, 1), (52, 8)]).tag = 5 ∧
        (wCmd [(0, 1), (1, 49), (4, 5), (2, 8), (32, 0x1000), (40, 16), (48, 1), (52, 8)]).op = 49 ∧
        (wCmd [(0, 1), (1, 49), (4, 5), (2, 8), (32, 0x1000), (40, 16), (48, 1), (52, 8)]).started = false ∧
        (wCmd [(0, 1), (1, 49), (4, 5), (2, 8), (32, 0x1000), (40, 16), (48, 1), (52, 8)]).silent = false ∧
        pCdw0 (wCmd [(0, 1), (1, 49), (4, 5), (2, 8), (32, 0x1000), (40, 16), (48, 1), (52, 8)]).slot = 1 ∧
        (wCmd [(0, 1), (1, 49), (4, 5), (2, 8), (32, 0x1000), (40, 16), (48, 1), (52, 8)]).offered = 0 ∧
        0 < pDlen (wCmd [(0, 1), (1, 49), (4, 5), (2, 8), (32, 0x1000), (40, 16), (48, 1), (52, 8)]).slot ∧
        pDlen (wCmd [(0, 1), (1, 49), (4, 5), (2, 8), (32, 0x1000), (40, 16), (48, 1), (52, 8)]).slot % 4 = 0 ∧
        s.dev.cue.used[(wCmd [(0, 1), (1, 49), (4, 5), (2, 8), (32, 0x1000), (40, 16), (48, 1), (52, 8)]).outBudget] + pDlen (wCmd [(0, 1), (1, 49), (4, 5), (2, 8), (32, 0x1000), (40, 16), (48, 1), (52, 8)]).slot ≤ s.dev.fld (rBudget (wCmd [(0, 1), (1, 49), (4, 5), (2, 8), (32, 0x1000), (40, 16), (48, 1), (52, 8)]).outBudget) 0 24 * 65536) ∧
    (let s := wHost [] [wCmd [(0, 1), (1, 49), (4, 5), (2, 8), (32, 0x1000), (40, 16), (48, 2), (52, 8)]] fun d => d;
        s.dev.hq.cmds = [wCmd [(0, 1), (1, 49), (4, 5), (2, 8), (32, 0x1000), (40, 16), (48, 2), (52, 8)]] ∧
        (wCmd [(0, 1), (1, 49), (4, 5), (2, 8), (32, 0x1000), (40, 16), (48, 2), (52, 8)]).src = .ring 0 ∧
        (wCmd [(0, 1), (1, 49), (4, 5), (2, 8), (32, 0x1000), (40, 16), (48, 2), (52, 8)]).tag = 5 ∧
        (wCmd [(0, 1), (1, 49), (4, 5), (2, 8), (32, 0x1000), (40, 16), (48, 2), (52, 8)]).op = 49 ∧
        (wCmd [(0, 1), (1, 49), (4, 5), (2, 8), (32, 0x1000), (40, 16), (48, 2), (52, 8)]).started = false ∧
        (wCmd [(0, 1), (1, 49), (4, 5), (2, 8), (32, 0x1000), (40, 16), (48, 2), (52, 8)]).silent = false ∧
        pCdw0 (wCmd [(0, 1), (1, 49), (4, 5), (2, 8), (32, 0x1000), (40, 16), (48, 2), (52, 8)]).slot = 2 ∧
        (wCmd [(0, 1), (1, 49), (4, 5), (2, 8), (32, 0x1000), (40, 16), (48, 2), (52, 8)]).offered = 0 ∧
        0 < pDlen (wCmd [(0, 1), (1, 49), (4, 5), (2, 8), (32, 0x1000), (40, 16), (48, 2), (52, 8)]).slot ∧
        pDlen (wCmd [(0, 1), (1, 49), (4, 5), (2, 8), (32, 0x1000), (40, 16), (48, 2), (52, 8)]).slot % 4 = 0 ∧
        s.dev.cue.used[(wCmd [(0, 1), (1, 49), (4, 5), (2, 8), (32, 0x1000), (40, 16), (48, 2), (52, 8)]).outBudget] + pDlen (wCmd [(0, 1), (1, 49), (4, 5), (2, 8), (32, 0x1000), (40, 16), (48, 2), (52, 8)]).slot ≤ s.dev.fld (rBudget (wCmd [(0, 1), (1, 49), (4, 5), (2, 8), (32, 0x1000), (40, 16), (48, 2), (52, 8)]).outBudget) 0 24 * 65536) ∧
    (let s := wHost [] [wCmd [(0, 1), (1, 49), (4, 5), (2, 8), (32, 0x1000), (40, 16), (48, 3), (52, 8)]] fun d => d;
        s.dev.hq.cmds = [wCmd [(0, 1), (1, 49), (4, 5), (2, 8), (32, 0x1000), (40, 16), (48, 3), (52, 8)]] ∧
        (wCmd [(0, 1), (1, 49), (4, 5), (2, 8), (32, 0x1000), (40, 16), (48, 3), (52, 8)]).src = .ring 0 ∧
        (wCmd [(0, 1), (1, 49), (4, 5), (2, 8), (32, 0x1000), (40, 16), (48, 3), (52, 8)]).tag = 5 ∧
        (wCmd [(0, 1), (1, 49), (4, 5), (2, 8), (32, 0x1000), (40, 16), (48, 3), (52, 8)]).op = 49 ∧
        (wCmd [(0, 1), (1, 49), (4, 5), (2, 8), (32, 0x1000), (40, 16), (48, 3), (52, 8)]).started = false ∧
        (wCmd [(0, 1), (1, 49), (4, 5), (2, 8), (32, 0x1000), (40, 16), (48, 3), (52, 8)]).silent = false ∧
        pCdw0 (wCmd [(0, 1), (1, 49), (4, 5), (2, 8), (32, 0x1000), (40, 16), (48, 3), (52, 8)]).slot = 3 ∧
        (wCmd [(0, 1), (1, 49), (4, 5), (2, 8), (32, 0x1000), (40, 16), (48, 3), (52, 8)]).offered = 0 ∧
        0 < pDlen (wCmd [(0, 1), (1, 49), (4, 5), (2, 8), (32, 0x1000), (40, 16), (48, 3), (52, 8)]).slot ∧
        pDlen (wCmd [(0, 1), (1, 49), (4, 5), (2, 8), (32, 0x1000), (40, 16), (48, 3), (52, 8)]).slot % 4 = 0 ∧
        s.dev.cue.used[(wCmd [(0, 1), (1, 49), (4, 5), (2, 8), (32, 0x1000), (40, 16), (48, 3), (52, 8)]).outBudget] + pDlen (wCmd [(0, 1), (1, 49), (4, 5), (2, 8), (32, 0x1000), (40, 16), (48, 3), (52, 8)]).slot ≤ s.dev.fld (rBudget (wCmd [(0, 1), (1, 49), (4, 5), (2, 8), (32, 0x1000), (40, 16), (48, 3), (52, 8)]).outBudget) 0 24 * 65536) ∧
    (let s := wHost [] [wCmd [(0, 1), (1, 49), (4, 5), (2, 8), (32, 0x1000), (40, 16), (48, 4), (52, 8)]] fun d => d;
        s.dev.hq.cmds = [wCmd [(0, 1), (1, 49), (4, 5), (2, 8), (32, 0x1000), (40, 16), (48, 4), (52, 8)]] ∧
        (wCmd [(0, 1), (1, 49), (4, 5), (2, 8), (32, 0x1000), (40, 16), (48, 4), (52, 8)]).src = .ring 0 ∧
        (wCmd [(0, 1), (1, 49), (4, 5), (2, 8), (32, 0x1000), (40, 16), (48, 4), (52, 8)]).tag = 5 ∧
        (wCmd [(0, 1), (1, 49), (4, 5), (2, 8), (32, 0x1000), (40, 16), (48, 4), (52, 8)]).op = 49 ∧
        (wCmd [(0, 1), (1, 49), (4, 5), (2, 8), (32, 0x1000), (40, 16), (48, 4), (52, 8)]).started = false ∧
        (wCmd [(0, 1), (1, 49), (4, 5), (2, 8), (32, 0x1000), (40, 16), (48, 4), (52, 8)]).silent = false ∧
        pCdw0 (wCmd [(0, 1), (1, 49), (4, 5), (2, 8), (32, 0x1000), (40, 16), (48, 4), (52, 8)]).slot = 4 ∧
        (wCmd [(0, 1), (1, 49), (4, 5), (2, 8), (32, 0x1000), (40, 16), (48, 4), (52, 8)]).offered = 0 ∧
        0 < pDlen (wCmd [(0, 1), (1, 49), (4, 5), (2, 8), (32, 0x1000), (40, 16), (48, 4), (52, 8)]).slot ∧
        pDlen (wCmd [(0, 1), (1, 49), (4, 5), (2, 8), (32, 0x1000), (40, 16), (48, 4), (52, 8)]).slot % 4 = 0 ∧
        s.dev.cue.used[(wCmd [(0, 1), (1, 49), (4, 5), (2, 8), (32, 0x1000), (40, 16), (48, 4), (52, 8)]).outBudget] + pDlen (wCmd [(0, 1), (1, 49), (4, 5), (2, 8), (32, 0x1000), (40, 16), (48, 4), (52, 8)]).slot ≤ s.dev.fld (rBudget (wCmd [(0, 1), (1, 49), (4, 5), (2, 8), (32, 0x1000), (40, 16), (48, 4), (52, 8)]).outBudget) 0 24 * 65536) ∧
    (let s := wHost [(rBudget 3, 0)] [wCmd [(0, 1), (1, 49), (4, 5), (2, 8), (32, 0x1000), (40, 16), (48, 4), (52, 8)]] fun d => d;
        s.dev.hq.cmds = [wCmd [(0, 1), (1, 49), (4, 5), (2, 8), (32, 0x1000), (40, 16), (48, 4), (52, 8)]] ∧
        (wCmd [(0, 1), (1, 49), (4, 5), (2, 8), (32, 0x1000), (40, 16), (48, 4), (52, 8)]).src = .ring 0 ∧
        (wCmd [(0, 1), (1, 49), (4, 5), (2, 8), (32, 0x1000), (40, 16), (48, 4), (52, 8)]).tag = 5 ∧
        (wCmd [(0, 1), (1, 49), (4, 5), (2, 8), (32, 0x1000), (40, 16), (48, 4), (52, 8)]).op = 49 ∧
        (wCmd [(0, 1), (1, 49), (4, 5), (2, 8), (32, 0x1000), (40, 16), (48, 4), (52, 8)]).started = false ∧
        (wCmd [(0, 1), (1, 49), (4, 5), (2, 8), (32, 0x1000), (40, 16), (48, 4), (52, 8)]).silent = false ∧
        s.dev.fld (rBudget (wCmd [(0, 1), (1, 49), (4, 5), (2, 8), (32, 0x1000), (40, 16), (48, 4), (52, 8)]).outBudget) 0 24 * 65536 ≤ s.dev.cue.used[(wCmd [(0, 1), (1, 49), (4, 5), (2, 8), (32, 0x1000), (40, 16), (48, 4), (52, 8)]).outBudget] ∧
        pCdw0 (wCmd [(0, 1), (1, 49), (4, 5), (2, 8), (32, 0x1000), (40, 16), (48, 4), (52, 8)]).slot = 4 ∧
        0 < pDlen (wCmd [(0, 1), (1, 49), (4, 5), (2, 8), (32, 0x1000), (40, 16), (48, 4), (52, 8)]).slot) := by
  refine ⟨?_, ?_, ?_, ?_, ?_, ?_, ?_, ?_, ?_, ?_, ?_, ?_, ?_, ?_, ?_, ?_, ?_, ?_, ?_, ?_⟩ <;> decide

/-- The hypotheses of HostMaintenance are met. -/
theorem witness_HostMaintenance :
    (let s := wd [(rTopMode, 0)] fun d => { d with hq.cmds := [wCmd [(0, 1), (1, 19), (4, 5)]] };
        s.dev.hq.cmds = [wCmd [(0, 1), (1, 19), (4, 5)]] ∧ (wCmd [(0, 1), (1, 19), (4, 5)]).src = .ring 0 ∧
        (wCmd [(0, 1), (1, 19), (4, 5)]).tag = 5 ∧ (wCmd [(0, 1), (1, 19), (4, 5)]).op = 19 ∧
        (wCmd [(0, 1), (1, 19), (4, 5)]).started = false ∧ (wCmd [(0, 1), (1, 19), (4, 5)]).silent = false ∧
        s.dev.mayRun (wCmd [(0, 1), (1, 19), (4, 5)]) = false) ∧
    (let s := wHost [] [wCmd [(0, 1), (1, 19), (4, 5)]] fun d => { d with hq.rows := [wHeld 3 true] };
        s.dev.hq.cmds = [wCmd [(0, 1), (1, 19), (4, 5)]] ∧ (wCmd [(0, 1), (1, 19), (4, 5)]).src = .ring 0 ∧
        (wCmd [(0, 1), (1, 19), (4, 5)]).tag = 5 ∧ (wCmd [(0, 1), (1, 19), (4, 5)]).op = 19 ∧
        (wCmd [(0, 1), (1, 19), (4, 5)]).started = false ∧ (wCmd [(0, 1), (1, 19), (4, 5)]).silent = false ∧
        s.dev.mayRun (wCmd [(0, 1), (1, 19), (4, 5)]) = true ∧ s.dev.hq.curtain = none ∧
        (∀ r ∈ s.dev.hq.rows, r.committed = true)) ∧
    (let s := wHost [] [wCmd [(0, 1), (1, 19), (4, 5)]] fun d => { d with hq.rows := [wHeld 3 false], sides := vmod d.sides (0 : Side) fun x => { x with mounted := true } };
        s.dev.hq.cmds = [wCmd [(0, 1), (1, 19), (4, 5)]] ∧ (wCmd [(0, 1), (1, 19), (4, 5)]).src = .ring 0 ∧
        (wCmd [(0, 1), (1, 19), (4, 5)]).tag = 5 ∧ (wCmd [(0, 1), (1, 19), (4, 5)]).op = 19 ∧
        (wCmd [(0, 1), (1, 19), (4, 5)]).started = false ∧ (wCmd [(0, 1), (1, 19), (4, 5)]).silent = false ∧
        s.dev.mayRun (wCmd [(0, 1), (1, 19), (4, 5)]) = true ∧ s.dev.hq.curtain = none ∧
        (wHeld 3 false) ∈ s.dev.hq.rows ∧ (wHeld 3 false).order < (wCmd [(0, 1), (1, 19), (4, 5)]).order ∧
        s.dev.sides[(wHeld 3 false).home.side].mounted = true) ∧
    (let s := wHost [] [wCmd [(0, 1), (1, 32), (4, 5)]] fun d => d; s.dev.hq.cmds = [wCmd [(0, 1), (1, 32), (4, 5)]] ∧
        (wCmd [(0, 1), (1, 32), (4, 5)]).src = .ring 0 ∧ (wCmd [(0, 1), (1, 32), (4, 5)]).tag = 5 ∧
        (wCmd [(0, 1), (1, 32), (4, 5)]).op = 32 ∧ (wCmd [(0, 1), (1, 32), (4, 5)]).started = false ∧
        (wCmd [(0, 1), (1, 32), (4, 5)]).silent = false ∧ s.dev.mayRun (wCmd [(0, 1), (1, 32), (4, 5)]) = true ∧
        s.dev.hq.disc = false) ∧
    (let s := wHost [] [wCmd [(0, 1), (1, 32), (4, 5)]] fun d => { d with hq.disc := true, sides := vmod d.sides (0 : Side) fun x => { x with mounted := true } };
        s.dev.hq.cmds = [wCmd [(0, 1), (1, 32), (4, 5)]] ∧ (wCmd [(0, 1), (1, 32), (4, 5)]).src = .ring 0 ∧
        (wCmd [(0, 1), (1, 32), (4, 5)]).tag = 5 ∧ (wCmd [(0, 1), (1, 32), (4, 5)]).op = 32 ∧
        (wCmd [(0, 1), (1, 32), (4, 5)]).started = false ∧ (wCmd [(0, 1), (1, 32), (4, 5)]).silent = false ∧
        s.dev.mayRun (wCmd [(0, 1), (1, 32), (4, 5)]) = true ∧ s.dev.hq.disc = true ∧
        s.dev.sides[(0 : Side)].mounted = true) ∧
    (let s := wHost [] [wCmd [(0, 1), (1, 32), (4, 5)]] fun d => { d with hq.disc := true };
        s.dev.hq.cmds = [wCmd [(0, 1), (1, 32), (4, 5)]] ∧ (wCmd [(0, 1), (1, 32), (4, 5)]).src = .ring 0 ∧
        (wCmd [(0, 1), (1, 32), (4, 5)]).tag = 5 ∧ (wCmd [(0, 1), (1, 32), (4, 5)]).op = 32 ∧
        (wCmd [(0, 1), (1, 32), (4, 5)]).started = false ∧ (wCmd [(0, 1), (1, 32), (4, 5)]).silent = false ∧
        s.dev.mayRun (wCmd [(0, 1), (1, 32), (4, 5)]) = true ∧ s.dev.hq.disc = true ∧
        s.dev.sides[(0 : Side)].mounted = false ∧ s.dev.sides[(1 : Side)].mounted = false ∧ s.dev.sideDown 0 = true ∧
        s.dev.sideDown 1 = true) ∧
    (let s := wHost [(rSrvStat 0, 1), (rSrvStat 3, 1)] [wCmd [(0, 1), (1, 32), (4, 5)]] fun d => { d with hq.disc := true };
        s.dev.hq.cmds = [wCmd [(0, 1), (1, 32), (4, 5)]] ∧ (wCmd [(0, 1), (1, 32), (4, 5)]).src = .ring 0 ∧
        (wCmd [(0, 1), (1, 32), (4, 5)]).tag = 5 ∧ (wCmd [(0, 1), (1, 32), (4, 5)]).op = 32 ∧
        (wCmd [(0, 1), (1, 32), (4, 5)]).started = false ∧ (wCmd [(0, 1), (1, 32), (4, 5)]).silent = false ∧
        s.dev.mayRun (wCmd [(0, 1), (1, 32), (4, 5)]) = true ∧ s.dev.hq.disc = true ∧
        s.dev.sides[(0 : Side)].mounted = false ∧ s.dev.sides[(1 : Side)].mounted = false ∧ s.dev.sideDown 0 = false ∧
        (match s.dev.mountScan 0 with | .error _ => true | .ok _ => false) = true ∧
        (match s.dev.mountScan 1 with | .error _ => true | .ok _ => false) = true) ∧
    (let s := wHost [(rSrvStat 1, 1)] [wCmd [(0, 1), (1, 32), (4, 5)]] fun d => { d with hq.disc := true, sides := vmod d.sides (0 : Side) fun x => { x with found := ([1536, 768, 384, 192, 96, 48, 24, 12, 6, 3, 1, 0].map fun k => ⟨logPlace 0 k, .blank, [], false⟩) } };
        s.dev.hq.cmds = [wCmd [(0, 1), (1, 32), (4, 5)]] ∧ (wCmd [(0, 1), (1, 32), (4, 5)]).src = .ring 0 ∧
        (wCmd [(0, 1), (1, 32), (4, 5)]).tag = 5 ∧ (wCmd [(0, 1), (1, 32), (4, 5)]).op = 32 ∧
        (wCmd [(0, 1), (1, 32), (4, 5)]).started = false ∧ (wCmd [(0, 1), (1, 32), (4, 5)]).silent = false ∧
        s.dev.mayRun (wCmd [(0, 1), (1, 32), (4, 5)]) = true ∧ s.dev.hq.disc = true ∧
        s.dev.sides[(0 : Side)].mounted = false ∧ s.dev.sides[(1 : Side)].mounted = false ∧ s.dev.sideDown 0 = false ∧
        (match s.dev.mountScan 0 with | .error _ => false | .ok q => decide (q.1.logNext < 3072)) = true) ∧
    (let s := wHost [] [wCmd [(0, 1), (1, 33), (4, 5)]] fun d => { d with hq.disc := true, sides := vmod d.sides (1 : Side) fun x => { x with mounted := true } };
        s.dev.hq.cmds = [wCmd [(0, 1), (1, 33), (4, 5)]] ∧ (wCmd [(0, 1), (1, 33), (4, 5)]).src = .ring 0 ∧
        (wCmd [(0, 1), (1, 33), (4, 5)]).tag = 5 ∧ (wCmd [(0, 1), (1, 33), (4, 5)]).op = 33 ∧
        (wCmd [(0, 1), (1, 33), (4, 5)]).started = false ∧ (wCmd [(0, 1), (1, 33), (4, 5)]).silent = false ∧
        s.dev.mayRun (wCmd [(0, 1), (1, 33), (4, 5)]) = true ∧ s.dev.sides[(1 : Side)].mounted = true ∧
        s.dev.hq.unloaded = false ∧ s.dev.hq.ejected = false) ∧
    (let s := (wHost [] [wCmd [(0, 1), (1, 64), (4, 5), (8, 0), (48, 1)]] fun d => d).onMem fun m => { m with flash := [(0, 5), (0x210_0000, 7)] };
        s.dev.hq.cmds = [wCmd [(0, 1), (1, 64), (4, 5), (8, 0), (48, 1)]] ∧
        (wCmd [(0, 1), (1, 64), (4, 5), (8, 0), (48, 1)] : Cmd).src = .ring 0 ∧
        (wCmd [(0, 1), (1, 64), (4, 5), (8, 0), (48, 1)] : Cmd).tag = 5 ∧
        (wCmd [(0, 1), (1, 64), (4, 5), (8, 0), (48, 1)] : Cmd).op = 64 ∧
        (wCmd [(0, 1), (1, 64), (4, 5), (8, 0), (48, 1)]).ready = false) ∧
    (let s := (wHost [] [wCmd [(0, 1), (1, 64), (4, 5), (8, 64), (48, 1)]] fun d => d).onMem fun m => { m with flash := [(0, 5), (0x210_0000, 7)] };
        s.dev.hq.cmds = [wCmd [(0, 1), (1, 64), (4, 5), (8, 64), (48, 1)]] ∧
        (wCmd [(0, 1), (1, 64), (4, 5), (8, 64), (48, 1)] : Cmd).src = .ring 0 ∧
        (wCmd [(0, 1), (1, 64), (4, 5), (8, 64), (48, 1)] : Cmd).tag = 5 ∧
        (wCmd [(0, 1), (1, 64), (4, 5), (8, 64), (48, 1)] : Cmd).op = 64 ∧
        (wCmd [(0, 1), (1, 64), (4, 5), (8, 64), (48, 1)]).ready = false) ∧
    (let s := wHost [] [wCmd [(0, 1), (1, 65), (4, 5), (48, 1)]] fun d => { d with cfg.busy := some .boardCopy };
        s.dev.hq.cmds = [wCmd [(0, 1), (1, 65), (4, 5), (48, 1)]] ∧
        (wCmd [(0, 1), (1, 65), (4, 5), (48, 1)]).src = .ring 0 ∧ (wCmd [(0, 1), (1, 65), (4, 5), (48, 1)]).tag = 5 ∧
        (wCmd [(0, 1), (1, 65), (4, 5), (48, 1)]).op = 65 ∧
        (wCmd [(0, 1), (1, 65), (4, 5), (48, 1)]).started = false ∧
        (wCmd [(0, 1), (1, 65), (4, 5), (48, 1)]).silent = false ∧ s.dev.cfg.busy ≠ none) ∧
    (let s := wHost [] [wCmd [(0, 1), (1, 65), (4, 5), (48, 1)]] fun d => d;
        s.dev.hq.cmds = [wCmd [(0, 1), (1, 65), (4, 5), (48, 1)]] ∧
        (wCmd [(0, 1), (1, 65), (4, 5), (48, 1)]).src = .ring 0 ∧ (wCmd [(0, 1), (1, 65), (4, 5), (48, 1)]).tag = 5 ∧
        (wCmd [(0, 1), (1, 65), (4, 5), (48, 1)]).op = 65 ∧
        (wCmd [(0, 1), (1, 65), (4, 5), (48, 1)]).started = false ∧
        (wCmd [(0, 1), (1, 65), (4, 5), (48, 1)]).silent = false ∧ s.dev.hq.activate = none ∧ s.dev.cfg.busy = none ∧
        s.dev.cfg.waiting = [] ∧
        headerCheck s.mem.flash (pCdw0 (wCmd [(0, 1), (1, 65), (4, 5), (48, 1)]).slot % 2) = some 2) ∧
    (let s := wHost [(rRingStat 0, 0x1000_0000)] [wCmd [(0, 1), (1, 66), (4, 5), (48, 0)]] fun d => d;
        (s.dev.hq.cmds = [wCmd [(0, 1), (1, 66), (4, 5), (48, 0)]]) ∧
        (wCmd [(0, 1), (1, 66), (4, 5), (48, 0)]).src = .ring 0 ∧ (wCmd [(0, 1), (1, 66), (4, 5), (48, 0)]).tag = 5 ∧
        (wCmd [(0, 1), (1, 66), (4, 5), (48, 0)]).op = 0x42 ∧
        (wCmd [(0, 1), (1, 66), (4, 5), (48, 0)]).started = false ∧
        (wCmd [(0, 1), (1, 66), (4, 5), (48, 0)]).silent = false ∧
        ({ wCmd [(0, 1), (1, 0x33), (4, 6)] with order := 3 } : Cmd).src = .ring (Fin.ofNat 16 (pCdw0 (wCmd [(0, 1), (1, 66), (4, 5), (48, 0)]).slot)) ∧
        ({ wCmd [(0, 1), (1, 0x33), (4, 6)] with order := 3 } : Cmd).op = 0x33 ∧
        ({ wCmd [(0, 1), (1, 0x33), (4, 6)] with order := 3 } : Cmd).started = false ∧
        ({ wCmd [(0, 1), (1, 0x33), (4, 6)] with order := 3 } : Cmd).acked = false ∧
        ({ wCmd [(0, 1), (1, 0x33), (4, 6)] with order := 3 } : Cmd).order ≠ (wCmd [(0, 1), (1, 66), (4, 5), (48, 0)]).order) ∧
    (let s := wHost [(rRingStat 0, 0x1000_0000)] [{ wCmd [(0, 1), (1, 0x33), (4, 6)] with order := 3 }, wCmd [(0, 1), (1, 66), (4, 5), (48, 0)]] fun d => d;
        (s.dev.hq.cmds = [{ wCmd [(0, 1), (1, 0x33), (4, 6)] with order := 3 }, wCmd [(0, 1), (1, 66), (4, 5), (48, 0)]]) ∧
        (wCmd [(0, 1), (1, 66), (4, 5), (48, 0)]).src = .ring 0 ∧ (wCmd [(0, 1), (1, 66), (4, 5), (48, 0)]).tag = 5 ∧
        (wCmd [(0, 1), (1, 66), (4, 5), (48, 0)]).op = 0x42 ∧
        (wCmd [(0, 1), (1, 66), (4, 5), (48, 0)]).started = false ∧
        (wCmd [(0, 1), (1, 66), (4, 5), (48, 0)]).silent = false ∧
        ({ wCmd [(0, 1), (1, 0x33), (4, 6)] with order := 3 } : Cmd).src = .ring (Fin.ofNat 16 (pCdw0 (wCmd [(0, 1), (1, 66), (4, 5), (48, 0)]).slot)) ∧
        ({ wCmd [(0, 1), (1, 0x33), (4, 6)] with order := 3 } : Cmd).op = 0x33 ∧
        ({ wCmd [(0, 1), (1, 0x33), (4, 6)] with order := 3 } : Cmd).started = false ∧
        ({ wCmd [(0, 1), (1, 0x33), (4, 6)] with order := 3 } : Cmd).acked = false ∧
        ({ wCmd [(0, 1), (1, 0x33), (4, 6)] with order := 3 } : Cmd).order ≠ (wCmd [(0, 1), (1, 66), (4, 5), (48, 0)]).order) ∧
    (let s := wHost [] [wCmd [(0, 1), (1, 67), (4, 5)]] fun d => { d with hq.curtain := some { cmd := none, warm := false, start := 0, discarded := [], final := false } };
        s.dev.hq.cmds = [wCmd [(0, 1), (1, 67), (4, 5)]] ∧ (wCmd [(0, 1), (1, 67), (4, 5)]).src = .ring 0 ∧
        (wCmd [(0, 1), (1, 67), (4, 5)]).tag = 5 ∧ (wCmd [(0, 1), (1, 67), (4, 5)]).op = 67 ∧
        (wCmd [(0, 1), (1, 67), (4, 5)]).started = false ∧ (wCmd [(0, 1), (1, 67), (4, 5)]).silent = false ∧
        s.dev.hq.curtain ≠ none) ∧
    (let s := wHost [] [wCmd [(0, 1), (1, 67), (4, 5)]] fun d => d; s.dev.hq.cmds = [wCmd [(0, 1), (1, 67), (4, 5)]] ∧
        (wCmd [(0, 1), (1, 67), (4, 5)]).src = .ring 0 ∧ (wCmd [(0, 1), (1, 67), (4, 5)]).tag = 5 ∧
        (wCmd [(0, 1), (1, 67), (4, 5)]).op = 67 ∧ (wCmd [(0, 1), (1, 67), (4, 5)]).started = false ∧
        (wCmd [(0, 1), (1, 67), (4, 5)]).silent = false ∧ s.dev.hq.curtain = none ∧ s.dev.hq.rows = []) ∧
    (let s := wHost [] [] fun d => { d with hq.curtain := some { cmd := none, warm := false, start := 0, discarded := [], final := false }, hq.rows := [wHeld 3 false] };
        (s.dev.hq.curtain = some { cmd := none, warm := false, start := 0, discarded := [], final := false }) ∧
        (∃ r ∈ s.dev.hq.rows, r.committed = false) ∧ s.dev.beats < 0 + 1600000) ∧
    (let s := wHost [] [{ wCmd [(0, 1), (1, 67), (4, 5)] with started := true }] fun d => { d with hq.curtain := some { ({ cmd := none, warm := false, start := 0, discarded := [], final := false } : Curtain) with cmd := some 7 } };
        (s.dev.hq.curtain.map Curtain.discarded = some []) ∧ s.dev.hq.rows = [] ∧
        s.dev.sides[(0 : Side)].mounted = false ∧ s.dev.sides[(1 : Side)].mounted = false ∧
        (s.dev.hq.cmds = [{ wCmd [(0, 1), (1, 67), (4, 5)] with started := true }]) ∧
        ({ wCmd [(0, 1), (1, 67), (4, 5)] with started := true } : Cmd).op = 0x43 ∧ s.dev.flt.copy = none) := by
  refine ⟨?_, ?_, ?_, ?_, ?_, ?_, ?_, ?_, ?_, ?_, ?_, ?_, ?_, ?_, ?_, ?_, ?_, ?_, ?_⟩ <;> decide

/-- The hypotheses of FramesAndDelivery are met. -/
theorem witness_FramesAndDelivery :
    (let s := State.reset; (∀ ch, s.dev.dmaBusy ch = false) ∧ s.dev.flag rDirCtl 1 = false ∧ s.dev.role = 0) ∧
    (let s := wd [(rEnsCfg, 0x3_0021), (rLinkCfg, 0x1000_0040)] fun d => d; (∀ ch, s.dev.dmaBusy ch = false) ∧
        s.dev.flag rDirCtl 1 = false ∧
        ({ port := 0, version := 1, src := 3, dst := 5, retx := false, seq := 0, ackv := false, ack := 0, epoch := 0, macOk := true } : FrameHdr).dst.toNat ≠ s.dev.deviceId) ∧
    (let s := wd [(rEnsCfg, 0x3_0021), (rLinkCfg, 0x1000_0040)] fun d => d; (∀ ch, s.dev.dmaBusy ch = false) ∧
        s.dev.flag rDirCtl 1 = false ∧ s.dev.role ≠ 0 ∧
        ({ port := 0, version := 1, src := 3, dst := 2, retx := false, seq := 0, ackv := false, ack := 0, epoch := 0, macOk := false } : FrameHdr).dst.toNat = s.dev.deviceId ∧
        (({ port := 0, version := 1, src := 3, dst := 2, retx := false, seq := 0, ackv := false, ack := 0, epoch := 0, macOk := false } : FrameHdr).macOk = false ∨ ({ port := 0, version := 1, src := 3, dst := 2, retx := false, seq := 0, ackv := false, ack := 0, epoch := 0, macOk := false } : FrameHdr).version ≠ 1)) ∧
    (let s := wd [(rEnsCfg, 0x3_0021), (rLinkCfg, 0x1000_0040)] fun d => d; (∀ ch, s.dev.dmaBusy ch = false) ∧
        s.dev.flag rDirCtl 1 = false ∧ s.dev.role ≠ 0 ∧
        ({ port := 0, version := 2, src := 3, dst := 2, retx := false, seq := 0, ackv := false, ack := 0, epoch := 0, macOk := true } : FrameHdr).dst.toNat = s.dev.deviceId ∧
        (({ port := 0, version := 2, src := 3, dst := 2, retx := false, seq := 0, ackv := false, ack := 0, epoch := 0, macOk := true } : FrameHdr).macOk = false ∨ ({ port := 0, version := 2, src := 3, dst := 2, retx := false, seq := 0, ackv := false, ack := 0, epoch := 0, macOk := true } : FrameHdr).version ≠ 1)) ∧
    (let s := wd [(rEnsCfg, 0x3_0021), (rLinkCfg, 0x1000_0040)] fun d => d; (∀ ch, s.dev.dmaBusy ch = false) ∧
        s.dev.flag rDirCtl 1 = false ∧ s.dev.role ≠ 0 ∧
        ({ port := 0, version := 1, src := 3, dst := 2, retx := false, seq := 0xFFFF_FFFF, ackv := false, ack := 0, epoch := 0, macOk := true } : FrameHdr).dst.toNat = s.dev.deviceId ∧
        ({ port := 0, version := 1, src := 3, dst := 2, retx := false, seq := 0xFFFF_FFFF, ackv := false, ack := 0, epoch := 0, macOk := true } : FrameHdr).seq.toNat ≠ (s.dev.peer 3).rxNext ∧
        seqLe ({ port := 0, version := 1, src := 3, dst := 2, retx := false, seq := 0xFFFF_FFFF, ackv := false, ack := 0, epoch := 0, macOk := true } : FrameHdr).seq.toNat (s.dev.peer 3).rxNext = true) ∧
    (let s := wd [(rEnsCfg, 0x3_0021), (rLinkCfg, 0x1000_0040)] fun d => d; (∀ ch, s.dev.dmaBusy ch = false) ∧
        s.dev.flag rDirCtl 1 = false ∧ s.dev.role ≠ 0 ∧
        ({ port := 0, version := 1, src := 3, dst := 2, retx := false, seq := 1, ackv := false, ack := 0, epoch := 0, macOk := true } : FrameHdr).dst.toNat = s.dev.deviceId ∧
        seqLe ({ port := 0, version := 1, src := 3, dst := 2, retx := false, seq := 1, ackv := false, ack := 0, epoch := 0, macOk := true } : FrameHdr).seq.toNat (s.dev.peer 3).rxNext = false ∧
        (s.dev.peer 3).gapSent = none) ∧
    (let s := wd [(rEnsCfg, 0x3_0021), (rLinkCfg, 0x1000_0040)] fun d => d; s.dev.role ≠ 0 ∧
        ({ port := 0, version := 1, src := 3, dst := 2, retx := false, seq := 0, ackv := false, ack := 0, epoch := 0, macOk := true } : FrameHdr).dst.toNat = s.dev.deviceId ∧
        ({ port := 0, version := 1, src := 3, dst := 2, retx := false, seq := 0, ackv := false, ack := 0, epoch := 0, macOk := true } : FrameHdr).macOk = true ∧
        ({ port := 0, version := 1, src := 3, dst := 2, retx := false, seq := 0, ackv := false, ack := 0, epoch := 0, macOk := true } : FrameHdr).version = 1 ∧
        ({ port := 0, version := 1, src := 3, dst := 2, retx := false, seq := 0, ackv := false, ack := 0, epoch := 0, macOk := true } : FrameHdr).ackv = false ∧
        ({ port := 0, version := 1, src := 3, dst := 2, retx := false, seq := 0, ackv := false, ack := 0, epoch := 0, macOk := true } : FrameHdr).seq.toNat = (s.dev.peer ({ port := 0, version := 1, src := 3, dst := 2, retx := false, seq := 0, ackv := false, ack := 0, epoch := 0, macOk := true } : FrameHdr).src.val).rxNext ∧
        (s.dev.peer ({ port := 0, version := 1, src := 3, dst := 2, retx := false, seq := 0, ackv := false, ack := 0, epoch := 0, macOk := true } : FrameHdr).src.val).since + 1 < s.dev.fld rLinkCfg 24 5 ∧
        s.dev.flag rDirCtl 1 = false) ∧
    (let s := wd [(rEnsCfg, 0x3_0021), (rLinkCfg, 0x1000_0040)] fun d => d; s.dev.role ≠ 0 ∧
        ({ port := 0, version := 1, src := 3, dst := 2, retx := false, seq := 0, ackv := false, ack := 0, epoch := 0, macOk := true } : FrameHdr).dst.toNat = s.dev.deviceId ∧
        ({ port := 0, version := 1, src := 3, dst := 2, retx := false, seq := 0, ackv := false, ack := 0, epoch := 0, macOk := true } : FrameHdr).macOk = true ∧
        ({ port := 0, version := 1, src := 3, dst := 2, retx := false, seq := 0, ackv := false, ack := 0, epoch := 0, macOk := true } : FrameHdr).version = 1 ∧
        ({ port := 0, version := 1, src := 3, dst := 2, retx := false, seq := 0, ackv := false, ack := 0, epoch := 0, macOk := true } : FrameHdr).ackv = false ∧
        ({ port := 0, version := 1, src := 3, dst := 2, retx := false, seq := 0, ackv := false, ack := 0, epoch := 0, macOk := true } : FrameHdr).seq.toNat = (s.dev.peer ({ port := 0, version := 1, src := 3, dst := 2, retx := false, seq := 0, ackv := false, ack := 0, epoch := 0, macOk := true } : FrameHdr).src.val).rxNext ∧
        (s.dev.peer ({ port := 0, version := 1, src := 3, dst := 2, retx := false, seq := 0, ackv := false, ack := 0, epoch := 0, macOk := true } : FrameHdr).src.val).since + 1 < s.dev.fld rLinkCfg 24 5 ∧
        s.dev.flag rDirCtl 1 = false ∧ pType (wSlot [(0, 3), (4, 5)]) = 3) ∧
    (let s := wd [(rEnsCfg, 0x3_0021), (rLinkCfg, 0x1000_0040)] fun d => d; s.dev.role ≠ 0 ∧
        ({ port := 0, version := 1, src := 3, dst := 2, retx := false, seq := 0, ackv := false, ack := 0, epoch := 0, macOk := true } : FrameHdr).dst.toNat = s.dev.deviceId ∧
        ({ port := 0, version := 1, src := 3, dst := 2, retx := false, seq := 0, ackv := false, ack := 0, epoch := 0, macOk := true } : FrameHdr).macOk = true ∧
        ({ port := 0, version := 1, src := 3, dst := 2, retx := false, seq := 0, ackv := false, ack := 0, epoch := 0, macOk := true } : FrameHdr).version = 1 ∧
        ({ port := 0, version := 1, src := 3, dst := 2, retx := false, seq := 0, ackv := false, ack := 0, epoch := 0, macOk := true } : FrameHdr).ackv = false ∧
        ({ port := 0, version := 1, src := 3, dst := 2, retx := false, seq := 0, ackv := false, ack := 0, epoch := 0, macOk := true } : FrameHdr).seq.toNat = (s.dev.peer ({ port := 0, version := 1, src := 3, dst := 2, retx := false, seq := 0, ackv := false, ack := 0, epoch := 0, macOk := true } : FrameHdr).src.val).rxNext ∧
        (s.dev.peer ({ port := 0, version := 1, src := 3, dst := 2, retx := false, seq := 0, ackv := false, ack := 0, epoch := 0, macOk := true } : FrameHdr).src.val).since + 1 < s.dev.fld rLinkCfg 24 5 ∧
        s.dev.flag rDirCtl 1 = false ∧ pType (wSlot [(0, 7), (4, 5)]) = 7) ∧
    (let s := wd [(rEnsCfg, 0x3_0021), (rLinkCfg, 0x1000_0040)] fun d => { d with ens.remote := [{ tag := 9, m := .core 1, dev := 3, write := false, off := 0x206, len := 2 }] };
        s.dev.role ≠ 0 ∧
        ({ port := 0, version := 1, src := 3, dst := 2, retx := false, seq := 0, ackv := false, ack := 0, epoch := 0, macOk := true } : FrameHdr).dst.toNat = s.dev.deviceId ∧
        ({ port := 0, version := 1, src := 3, dst := 2, retx := false, seq := 0, ackv := false, ack := 0, epoch := 0, macOk := true } : FrameHdr).macOk = true ∧
        ({ port := 0, version := 1, src := 3, dst := 2, retx := false, seq := 0, ackv := false, ack := 0, epoch := 0, macOk := true } : FrameHdr).version = 1 ∧
        ({ port := 0, version := 1, src := 3, dst := 2, retx := false, seq := 0, ackv := false, ack := 0, epoch := 0, macOk := true } : FrameHdr).ackv = false ∧
        ({ port := 0, version := 1, src := 3, dst := 2, retx := false, seq := 0, ackv := false, ack := 0, epoch := 0, macOk := true } : FrameHdr).seq.toNat = (s.dev.peer ({ port := 0, version := 1, src := 3, dst := 2, retx := false, seq := 0, ackv := false, ack := 0, epoch := 0, macOk := true } : FrameHdr).src.val).rxNext ∧
        (s.dev.peer ({ port := 0, version := 1, src := 3, dst := 2, retx := false, seq := 0, ackv := false, ack := 0, epoch := 0, macOk := true } : FrameHdr).src.val).since + 1 < s.dev.fld rLinkCfg 24 5 ∧
        s.dev.flag rDirCtl 1 = false ∧
        (s.dev.ens.remote = [{ tag := 9, m := .core 1, dev := 3, write := false, off := 0x206, len := 2 }])) ∧
    (let s := State.reset; s.dev.role = 0) ∧
    (let s := wd [(rEnsCfg, 0x3_0021), (rLinkCfg, 0x1000_0040)] fun d => { d with ens.peers := [(3, { Peer.reset with txNext := 6, unacked := [⟨5, 9, .writeResp 1⟩], since := 1, firstIn := 9 })] };
        s.dev.role ≠ 0 ∧ s.dev.flag rDirCtl 1 = false ∧ (s.dev.peer 3).queue = []) ∧
    (let s := State.reset; (s.dev.peer 3).since = 0) ∧
    (let s := wd [(rEnsCfg, 0x3_0021), (rLinkCfg, 0x1000_0040)] fun d => { d with ens.peers := [(3, { Peer.reset with txNext := 6, unacked := [⟨5, 9, .writeResp 1⟩], since := 1, firstIn := 9 })], cue.beat := 9 };
        s.dev.passed (s.dev.peer 3).firstIn 2000 = false) ∧
    (let s := wd [(rEnsCfg, 0x3_0021), (rLinkCfg, 0x1000_0040)] fun d => { d with ens.peers := [(3, { Peer.reset with txNext := 6, unacked := [⟨5, 9, .writeResp 1⟩], since := 1, firstIn := 9 })], cue.beat := 10 };
        (s.dev.peer 3).since ≠ 0 ∧ s.dev.passed (s.dev.peer 3).firstIn 2000 = true ∧ s.dev.engineHalted 7 = false) ∧
    (let s := State.reset; (s.dev.peer 3).unacked = []) ∧
    (let s := wd [(rEnsCfg, 0x3_0021), (rLinkCfg, 0x1000_0040), (rLinkCfg, 0x1000_2040)] fun d => { d with ens.peers := [(3, { Peer.reset with txNext := 6, unacked := [⟨5, 9, .writeResp 1⟩], since := 1, firstIn := 9 })], cue.beat := 9 };
        (s.dev.peer 3).unacked = [⟨5, 9, .writeResp 1⟩] ∧ s.dev.passed 9 s.dev.rtoNs = false) ∧
    (let s := wd [(rEnsCfg, 0x3_0021), (rLinkCfg, 0x1000_0040), (rLinkCfg, 0x1000_2040)] fun d => { d with ens.peers := [(3, { Peer.reset with txNext := 6, unacked := [⟨5, 9, .writeResp 1⟩], since := 1, firstIn := 9 })], cue.beat := 10 };
        (s.dev.peer 3).unacked = [⟨5, 9, .writeResp 1⟩] ∧ s.dev.passed 9 s.dev.rtoNs = true ∧
        s.dev.engineHalted 7 = false) := by
  refine ⟨?_, ?_, ?_, ?_, ?_, ?_, ?_, ?_, ?_, ?_, ?_, ?_, ?_, ?_, ?_, ?_, ?_, ?_⟩ <;> decide

/-- The hypotheses of RemoteRequests are met. -/
theorem witness_RemoteRequests :
    (let s := wd [(rEnsCfg, 0x3_0021), (rLinkCfg, 0x1000_0040)] fun d => d; s.dev.role ≠ 0 ∧
        ({ port := 0, version := 1, src := 3, dst := 2, retx := false, seq := 0, ackv := false, ack := 0, epoch := 0, macOk := true } : FrameHdr).dst.toNat = s.dev.deviceId ∧
        ({ port := 0, version := 1, src := 3, dst := 2, retx := false, seq := 0, ackv := false, ack := 0, epoch := 0, macOk := true } : FrameHdr).macOk = true ∧
        ({ port := 0, version := 1, src := 3, dst := 2, retx := false, seq := 0, ackv := false, ack := 0, epoch := 0, macOk := true } : FrameHdr).version = 1 ∧
        ({ port := 0, version := 1, src := 3, dst := 2, retx := false, seq := 0, ackv := false, ack := 0, epoch := 0, macOk := true } : FrameHdr).ackv = false ∧
        ({ port := 0, version := 1, src := 3, dst := 2, retx := false, seq := 0, ackv := false, ack := 0, epoch := 0, macOk := true } : FrameHdr).seq.toNat = (s.dev.peer ({ port := 0, version := 1, src := 3, dst := 2, retx := false, seq := 0, ackv := false, ack := 0, epoch := 0, macOk := true } : FrameHdr).src.val).rxNext ∧
        (s.dev.peer ({ port := 0, version := 1, src := 3, dst := 2, retx := false, seq := 0, ackv := false, ack := 0, epoch := 0, macOk := true } : FrameHdr).src.val).since + 1 < s.dev.fld rLinkCfg 24 5 ∧
        s.dev.flag rDirCtl 1 = false ∧ (∀ ch, s.dev.dmaBusy ch = false) ∧
        (s.dev.peer 3).unacked.length < s.dev.fld rLinkCfg 0 9 ∧
        sfind s.dev.top.latches (latchKey (.peer 3) 0) = none) ∧
    (let s := wd [(rEnsCfg, 0x3_0021), (rLinkCfg, 0x1000_0040), (0x204, 0x1234)] fun d => d; s.dev.role ≠ 0 ∧
        ({ port := 0, version := 1, src := 3, dst := 2, retx := false, seq := 0, ackv := false, ack := 0, epoch := 0, macOk := true } : FrameHdr).dst.toNat = s.dev.deviceId ∧
        ({ port := 0, version := 1, src := 3, dst := 2, retx := false, seq := 0, ackv := false, ack := 0, epoch := 0, macOk := true } : FrameHdr).macOk = true ∧
        ({ port := 0, version := 1, src := 3, dst := 2, retx := false, seq := 0, ackv := false, ack := 0, epoch := 0, macOk := true } : FrameHdr).version = 1 ∧
        ({ port := 0, version := 1, src := 3, dst := 2, retx := false, seq := 0, ackv := false, ack := 0, epoch := 0, macOk := true } : FrameHdr).ackv = false ∧
        ({ port := 0, version := 1, src := 3, dst := 2, retx := false, seq := 0, ackv := false, ack := 0, epoch := 0, macOk := true } : FrameHdr).seq.toNat = (s.dev.peer ({ port := 0, version := 1, src := 3, dst := 2, retx := false, seq := 0, ackv := false, ack := 0, epoch := 0, macOk := true } : FrameHdr).src.val).rxNext ∧
        (s.dev.peer ({ port := 0, version := 1, src := 3, dst := 2, retx := false, seq := 0, ackv := false, ack := 0, epoch := 0, macOk := true } : FrameHdr).src.val).since + 1 < s.dev.fld rLinkCfg 24 5 ∧
        s.dev.flag rDirCtl 1 = false ∧ (∀ ch, s.dev.dmaBusy ch = false) ∧
        (s.dev.peer 3).unacked.length < s.dev.fld rLinkCfg 0 9) ∧
    (let s := wd [(rEnsCfg, 0x3_0021), (rLinkCfg, 0x1000_0040)] fun d => d; s.dev.role ≠ 0 ∧
        ({ port := 0, version := 1, src := 3, dst := 2, retx := false, seq := 0, ackv := false, ack := 0, epoch := 0, macOk := true } : FrameHdr).dst.toNat = s.dev.deviceId ∧
        ({ port := 0, version := 1, src := 3, dst := 2, retx := false, seq := 0, ackv := false, ack := 0, epoch := 0, macOk := true } : FrameHdr).macOk = true ∧
        ({ port := 0, version := 1, src := 3, dst := 2, retx := false, seq := 0, ackv := false, ack := 0, epoch := 0, macOk := true } : FrameHdr).version = 1 ∧
        ({ port := 0, version := 1, src := 3, dst := 2, retx := false, seq := 0, ackv := false, ack := 0, epoch := 0, macOk := true } : FrameHdr).ackv = false ∧
        ({ port := 0, version := 1, src := 3, dst := 2, retx := false, seq := 0, ackv := false, ack := 0, epoch := 0, macOk := true } : FrameHdr).seq.toNat = (s.dev.peer ({ port := 0, version := 1, src := 3, dst := 2, retx := false, seq := 0, ackv := false, ack := 0, epoch := 0, macOk := true } : FrameHdr).src.val).rxNext ∧
        (s.dev.peer ({ port := 0, version := 1, src := 3, dst := 2, retx := false, seq := 0, ackv := false, ack := 0, epoch := 0, macOk := true } : FrameHdr).src.val).since + 1 < s.dev.fld rLinkCfg 24 5 ∧
        s.dev.flag rDirCtl 1 = false ∧ (∀ ch, s.dev.dmaBusy ch = false) ∧
        (s.dev.peer 3).unacked.length < s.dev.fld rLinkCfg 0 9 ∧ (2 % 4 ≠ 0 ∨ 4 % 4 ≠ 0 ∨ 4 = 0 ∨ 8224 < 4)) ∧
    (let s := wd [(rEnsCfg, 0x3_0021), (rLinkCfg, 0x1000_0040)] fun d => d; s.dev.role ≠ 0 ∧
        ({ port := 0, version := 1, src := 3, dst := 2, retx := false, seq := 0, ackv := false, ack := 0, epoch := 0, macOk := true } : FrameHdr).dst.toNat = s.dev.deviceId ∧
        ({ port := 0, version := 1, src := 3, dst := 2, retx := false, seq := 0, ackv := false, ack := 0, epoch := 0, macOk := true } : FrameHdr).macOk = true ∧
        ({ port := 0, version := 1, src := 3, dst := 2, retx := false, seq := 0, ackv := false, ack := 0, epoch := 0, macOk := true } : FrameHdr).version = 1 ∧
        ({ port := 0, version := 1, src := 3, dst := 2, retx := false, seq := 0, ackv := false, ack := 0, epoch := 0, macOk := true } : FrameHdr).ackv = false ∧
        ({ port := 0, version := 1, src := 3, dst := 2, retx := false, seq := 0, ackv := false, ack := 0, epoch := 0, macOk := true } : FrameHdr).seq.toNat = (s.dev.peer ({ port := 0, version := 1, src := 3, dst := 2, retx := false, seq := 0, ackv := false, ack := 0, epoch := 0, macOk := true } : FrameHdr).src.val).rxNext ∧
        (s.dev.peer ({ port := 0, version := 1, src := 3, dst := 2, retx := false, seq := 0, ackv := false, ack := 0, epoch := 0, macOk := true } : FrameHdr).src.val).since + 1 < s.dev.fld rLinkCfg 24 5 ∧
        s.dev.flag rDirCtl 1 = false ∧ (∀ ch, s.dev.dmaBusy ch = false) ∧
        (s.dev.peer 3).unacked.length < s.dev.fld rLinkCfg 0 9 ∧ (0 % 4 ≠ 0 ∨ 3 % 4 ≠ 0 ∨ 3 = 0 ∨ 8224 < 3)) ∧
    (let s := wd [(rEnsCfg, 0x3_0021), (rLinkCfg, 0x1000_0040)] fun d => d; s.dev.role ≠ 0 ∧
        ({ port := 0, version := 1, src := 3, dst := 2, retx := false, seq := 0, ackv := false, ack := 0, epoch := 0, macOk := true } : FrameHdr).dst.toNat = s.dev.deviceId ∧
        ({ port := 0, version := 1, src := 3, dst := 2, retx := false, seq := 0, ackv := false, ack := 0, epoch := 0, macOk := true } : FrameHdr).macOk = true ∧
        ({ port := 0, version := 1, src := 3, dst := 2, retx := false, seq := 0, ackv := false, ack := 0, epoch := 0, macOk := true } : FrameHdr).version = 1 ∧
        ({ port := 0, version := 1, src := 3, dst := 2, retx := false, seq := 0, ackv := false, ack := 0, epoch := 0, macOk := true } : FrameHdr).ackv = false ∧
        ({ port := 0, version := 1, src := 3, dst := 2, retx := false, seq := 0, ackv := false, ack := 0, epoch := 0, macOk := true } : FrameHdr).seq.toNat = (s.dev.peer ({ port := 0, version := 1, src := 3, dst := 2, retx := false, seq := 0, ackv := false, ack := 0, epoch := 0, macOk := true } : FrameHdr).src.val).rxNext ∧
        (s.dev.peer ({ port := 0, version := 1, src := 3, dst := 2, retx := false, seq := 0, ackv := false, ack := 0, epoch := 0, macOk := true } : FrameHdr).src.val).since + 1 < s.dev.fld rLinkCfg 24 5 ∧
        s.dev.flag rDirCtl 1 = false ∧ (∀ ch, s.dev.dmaBusy ch = false) ∧
        (s.dev.peer 3).unacked.length < s.dev.fld rLinkCfg 0 9 ∧ (0 % 4 ≠ 0 ∨ 0 % 4 ≠ 0 ∨ 0 = 0 ∨ 8224 < 0)) ∧
    (let s := wd [(rEnsCfg, 0x3_0021), (rLinkCfg, 0x1000_0040)] fun d => d; s.dev.role ≠ 0 ∧
        ({ port := 0, version := 1, src := 3, dst := 2, retx := false, seq := 0, ackv := false, ack := 0, epoch := 0, macOk := true } : FrameHdr).dst.toNat = s.dev.deviceId ∧
        ({ port := 0, version := 1, src := 3, dst := 2, retx := false, seq := 0, ackv := false, ack := 0, epoch := 0, macOk := true } : FrameHdr).macOk = true ∧
        ({ port := 0, version := 1, src := 3, dst := 2, retx := false, seq := 0, ackv := false, ack := 0, epoch := 0, macOk := true } : FrameHdr).version = 1 ∧
        ({ port := 0, version := 1, src := 3, dst := 2, retx := false, seq := 0, ackv := false, ack := 0, epoch := 0, macOk := true } : FrameHdr).ackv = false ∧
        ({ port := 0, version := 1, src := 3, dst := 2, retx := false, seq := 0, ackv := false, ack := 0, epoch := 0, macOk := true } : FrameHdr).seq.toNat = (s.dev.peer ({ port := 0, version := 1, src := 3, dst := 2, retx := false, seq := 0, ackv := false, ack := 0, epoch := 0, macOk := true } : FrameHdr).src.val).rxNext ∧
        (s.dev.peer ({ port := 0, version := 1, src := 3, dst := 2, retx := false, seq := 0, ackv := false, ack := 0, epoch := 0, macOk := true } : FrameHdr).src.val).since + 1 < s.dev.fld rLinkCfg 24 5 ∧
        s.dev.flag rDirCtl 1 = false ∧ (∀ ch, s.dev.dmaBusy ch = false) ∧
        (s.dev.peer 3).unacked.length < s.dev.fld rLinkCfg 0 9 ∧ (0 % 4 ≠ 0 ∨ 8228 % 4 ≠ 0 ∨ 8228 = 0 ∨ 8224 < 8228)) ∧
    (let s := wd [(rEnsCfg, 0x3_0021), (rLinkCfg, 0x1000_0040)] fun d => { d with ens.remote := [{ tag := 9, m := .core 1, dev := 3, write := false, off := 0x206, len := 2 }] };
        s.dev.role ≠ 0 ∧
        ({ port := 0, version := 1, src := 3, dst := 2, retx := false, seq := 0, ackv := false, ack := 0, epoch := 0, macOk := true } : FrameHdr).dst.toNat = s.dev.deviceId ∧
        ({ port := 0, version := 1, src := 3, dst := 2, retx := false, seq := 0, ackv := false, ack := 0, epoch := 0, macOk := true } : FrameHdr).macOk = true ∧
        ({ port := 0, version := 1, src := 3, dst := 2, retx := false, seq := 0, ackv := false, ack := 0, epoch := 0, macOk := true } : FrameHdr).version = 1 ∧
        ({ port := 0, version := 1, src := 3, dst := 2, retx := false, seq := 0, ackv := false, ack := 0, epoch := 0, macOk := true } : FrameHdr).ackv = false ∧
        ({ port := 0, version := 1, src := 3, dst := 2, retx := false, seq := 0, ackv := false, ack := 0, epoch := 0, macOk := true } : FrameHdr).seq.toNat = (s.dev.peer ({ port := 0, version := 1, src := 3, dst := 2, retx := false, seq := 0, ackv := false, ack := 0, epoch := 0, macOk := true } : FrameHdr).src.val).rxNext ∧
        (s.dev.peer ({ port := 0, version := 1, src := 3, dst := 2, retx := false, seq := 0, ackv := false, ack := 0, epoch := 0, macOk := true } : FrameHdr).src.val).since + 1 < s.dev.fld rLinkCfg 24 5 ∧
        s.dev.flag rDirCtl 1 = false ∧ (∀ ch, s.dev.dmaBusy ch = false) ∧
        (s.dev.ens.remote = [{ tag := 9, m := .core 1, dev := 3, write := false, off := 0x206, len := 2 }])) ∧
    (let s := wd [(rEnsCfg, 0x3_0021), (rLinkCfg, 0x1000_0040)] fun d => { d with ens.remote := [{ tag := 9, m := .core 1, dev := 3, write := true, off := 0x206, len := 2 }] };
        s.dev.role ≠ 0 ∧
        ({ port := 0, version := 1, src := 3, dst := 2, retx := false, seq := 0, ackv := false, ack := 0, epoch := 0, macOk := true } : FrameHdr).dst.toNat = s.dev.deviceId ∧
        ({ port := 0, version := 1, src := 3, dst := 2, retx := false, seq := 0, ackv := false, ack := 0, epoch := 0, macOk := true } : FrameHdr).macOk = true ∧
        ({ port := 0, version := 1, src := 3, dst := 2, retx := false, seq := 0, ackv := false, ack := 0, epoch := 0, macOk := true } : FrameHdr).version = 1 ∧
        ({ port := 0, version := 1, src := 3, dst := 2, retx := false, seq := 0, ackv := false, ack := 0, epoch := 0, macOk := true } : FrameHdr).ackv = false ∧
        ({ port := 0, version := 1, src := 3, dst := 2, retx := false, seq := 0, ackv := false, ack := 0, epoch := 0, macOk := true } : FrameHdr).seq.toNat = (s.dev.peer ({ port := 0, version := 1, src := 3, dst := 2, retx := false, seq := 0, ackv := false, ack := 0, epoch := 0, macOk := true } : FrameHdr).src.val).rxNext ∧
        (s.dev.peer ({ port := 0, version := 1, src := 3, dst := 2, retx := false, seq := 0, ackv := false, ack := 0, epoch := 0, macOk := true } : FrameHdr).src.val).since + 1 < s.dev.fld rLinkCfg 24 5 ∧
        s.dev.flag rDirCtl 1 = false ∧ (∀ ch, s.dev.dmaBusy ch = false) ∧
        (s.dev.ens.remote = [{ tag := 9, m := .core 1, dev := 3, write := true, off := 0x206, len := 2 }])) := by
  refine ⟨?_, ?_, ?_, ?_, ?_, ?_, ?_, ?_⟩ <;> decide

/-- The hypotheses of HeartbeatsAndPaths are met. -/
theorem witness_HeartbeatsAndPaths :
    (let s := State.reset; s.dev.role = 0) ∧
    (let s := wd [(rEnsCfg, 0x3_0021), (rLinkCfg, 0x1000_0040), (rHbCfg, 0x302)] fun d => { d with ens.hbSent := some 9, cue.beat := 9 };
        s.dev.ens.hbSent = some 9 ∧ s.dev.passed 9 s.dev.hbPeriod = false) ∧
    (let s := wd [(rEnsCfg, 0x3_0021), (rLinkCfg, 0x1000_0040), (rHbCfg, 0x302)] fun d => { d with ens.hbSent := some 9, cue.beat := 10 };
        s.dev.role ≠ 0 ∧ s.dev.ens.hbSent = some 9 ∧ s.dev.passed 9 s.dev.hbPeriod = true ∧
        s.dev.engineHalted 7 = false) ∧
    (let s := wd [(rEnsCfg, 0x3_0021), (rLinkCfg, 0x1000_0040), (rHbCfg, 0x302)] fun d => { d with ens.hbSent := none, cue.beat := 10 };
        s.dev.role ≠ 0 ∧ s.dev.ens.hbSent = none ∧ s.dev.passed 9 s.dev.hbPeriod = true ∧
        s.dev.engineHalted 7 = false) ∧
    (let s := wd [(rEnsCfg, 0x3_0021), (rLinkCfg, 0x1000_0040), (rHbCfg, 0x302)] fun d => { d with ens.heard := [(3, { epoch := 0, missA := 0, missB := 0, lastA := some 0, lastB := some 0, manager := true })], cue.beat := 8 };
        s.dev.role = 1 ∧ 3 = s.dev.managerId ∧ s.dev.orphaned = false ∧ s.dev.missDue (s.dev.heardOf 3) 0 = false) ∧
    (let s := wd [(rEnsCfg, 0x3_0021), (rLinkCfg, 0x1000_0040), (rHbCfg, 0x302)] fun d => { d with ens.heard := [(3, { epoch := 0, missA := 0, missB := 0, lastA := some 0, lastB := some 0, manager := true })], cue.beat := 9 };
        s.dev.role = 1 ∧ 3 = s.dev.managerId ∧ s.dev.orphaned = false ∧ s.dev.missDue (s.dev.heardOf 3) 0 = true ∧
        (s.dev.heardOf 3).miss 0 + 1 < s.dev.fld rHbCfg 8 4) ∧
    (let s := wd [(rEnsCfg, 0x3_0021), (rLinkCfg, 0x1000_0040), (rHbCfg, 0x302)] fun d => d; s.dev.role = 1 ∧
        3 = s.dev.managerId ∧ s.dev.orphaned = false ∧ s.dev.missDue (s.dev.heardOf 3) 0 = true ∧
        (s.dev.heardOf 3).miss 0 + 1 < s.dev.fld rHbCfg 8 4) ∧
    (let s := wd [(rEnsCfg, 0x3_0021), (rLinkCfg, 0x1000_0040), (rHbCfg, 0x302)] fun d => { d with ens.heard := [(3, { epoch := 0, missA := 2, missB := 3, lastA := some 0, lastB := some 0, manager := true })], cue.beat := 99, ens.peers := [(3, { Peer.reset with txNext := 6, unacked := [⟨5, 9, .writeResp 1⟩], since := 1, firstIn := 9 })] };
        s.dev.role = 1 ∧ 3 = s.dev.managerId ∧ s.dev.orphaned = false ∧ s.dev.missDue (s.dev.heardOf 3) 0 = true ∧
        s.dev.fld rHbCfg 8 4 ≤ (s.dev.heardOf 3).miss 0 + 1 ∧
        s.dev.fld rHbCfg 8 4 ≤ (s.dev.heardOf 3).miss (otherPort 0) ∧ s.dev.hq.cmds = [] ∧ s.dev.ens.remote = [] ∧
        s.dev.flt.copy = none) ∧
    (let s := wd [(rEnsCfg, 0x3_0021), (rLinkCfg, 0x1000_0040)] fun d => d; s.dev.role ≠ 0 ∧ 2 = s.dev.deviceId) ∧
    (let s := wd [(rEnsCfg, 0x3_0021), (rLinkCfg, 0x1000_0040), (rEnsStat, 8)] fun d => { d with ens.peers := [(3, { Peer.reset with txNext := 6, unacked := [⟨5, 9, .writeResp 1⟩], since := 1, firstIn := 9 })] };
        s.dev.role = 1 ∧ 6 ≠ s.dev.deviceId ∧ s.dev.orphaned = true) ∧
    (let s := wd [(rEnsCfg, 0x3_0021), (rLinkCfg, 0x1000_0040)] fun d => d; s.dev.role = 1 ∧ s.dev.orphaned = false ∧
        3 = s.dev.managerId) ∧
    (let s := wd [(rEnsCfg, 0x2_0022), (rLinkCfg, 0x1000_0040), (rEpoch, 6)] fun d => d; s.dev.role = 2 ∧
        3 ≠ s.dev.deviceId ∧ s.dev.epoch < 7) ∧
    (let s := wd [(rEnsCfg, 0x3_0021), (rLinkCfg, 0x1000_0040)] fun d => d; s.dev.role ≠ 0 ∧
        (1 : Port) ≠ s.dev.activePort) ∧
    (let s := wd [(rEnsCfg, 0x3_0021), (rLinkCfg, 0x1000_0040), (rCueStatus, 1)] fun d => d; s.dev.role = 1 ∧
        0 = s.dev.activePort ∧ s.dev.fabric = true ∧ s.dev.chainRuns 28 = false ∧
        (∀ e ∈ s.dev.cue.pending, e.line ≠ 28)) ∧
    (let s := wd [(rEnsCfg, 0x3_0021), (rLinkCfg, 0x1000_0040)] fun d => d; s.dev.role ≠ 0 ∧
        (1 : Port) ≠ s.dev.activePort ∧ s.dev.ens.portState[(1 : Port)] = 1) ∧
    (let s := wd [(rEnsCfg, 0x3_0021), (rLinkCfg, 0x1000_0040)] fun d => d; s.dev.role ≠ 0 ∧ 0 = s.dev.activePort) ∧
    (let s := wd [(rEnsCfg, 0x3_0021), (rLinkCfg, 0x1000_0040)] fun d => d; s.dev.ens.portState[(1 : Port)] ≠ 2) ∧
    (let s := wd [(rEnsCfg, 0x3_0021), (rLinkCfg, 0x1000_0040), (rHbCfg, 0x1_0302)] fun d => { d with ens.portState := #v[0, 2], ens.cleanFrom := #v[0, 9], ens.heard := [(3, { epoch := 0, missA := 0, missB := 0, lastA := none, lastB := some 807, manager := true })], cue.beat := 807 };
        s.dev.passed s.dev.ens.cleanFrom[(1 : Port)] (s.dev.fld rHbCfg 16 12 * 1_000_000) = false) ∧
    (let s := wd [(rEnsCfg, 0x3_0021), (rLinkCfg, 0x1000_0040), (rHbCfg, 0x1_0302)] fun d => { d with ens.portState := #v[0, 2], ens.cleanFrom := #v[0, 9], ens.heard := [(3, { epoch := 0, missA := 0, missB := 1, lastA := none, lastB := some 807, manager := true })], cue.beat := 808 };
        s.dev.role = 1 ∧ (s.dev.heardOf s.dev.managerId).miss 1 ≠ 0) ∧
    (let s := wd [(rEnsCfg, 0x3_0021), (rLinkCfg, 0x1000_0040), (rHbCfg, 0x1_0302)] fun d => { d with ens.portState := #v[0, 2], ens.cleanFrom := #v[0, 9], ens.heard := [(3, { epoch := 0, missA := 0, missB := 0, lastA := none, lastB := some 9, manager := true })], cue.beat := 808 };
        s.dev.role = 1 ∧ (1 : Port) ≠ s.dev.activePort ∧ s.dev.ens.portState[(1 : Port)] = 2 ∧
        s.dev.passed s.dev.ens.cleanFrom[(1 : Port)] (s.dev.fld rHbCfg 16 12 * 1_000_000) = true ∧
        (s.dev.heardOf s.dev.managerId).miss 1 = 0 ∧ (s.dev.heardOf s.dev.managerId).last 1 = some 9 ∧
        s.dev.ens.cleanFrom[(1 : Port)] ≤ 9) := by
  refine ⟨?_, ?_, ?_, ?_, ?_, ?_, ?_, ?_, ?_, ?_, ?_, ?_, ?_, ?_, ?_, ?_, ?_, ?_, ?_, ?_⟩ <;> decide

/-- The hypotheses of DirectoryAndTime are met. -/
theorem witness_DirectoryAndTime :
    (let s := wd [(rEnsCfg, 0x3_0021), (rLinkCfg, 0x1000_0040)] fun d => d; s.dev.role ≠ 0 ∧
        ({ port := 0, version := 1, src := 3, dst := 2, retx := false, seq := 0, ackv := false, ack := 0, epoch := 0, macOk := true } : FrameHdr).dst.toNat = s.dev.deviceId ∧
        ({ port := 0, version := 1, src := 3, dst := 2, retx := false, seq := 0, ackv := false, ack := 0, epoch := 0, macOk := true } : FrameHdr).macOk = true ∧
        ({ port := 0, version := 1, src := 3, dst := 2, retx := false, seq := 0, ackv := false, ack := 0, epoch := 0, macOk := true } : FrameHdr).version = 1 ∧
        ({ port := 0, version := 1, src := 3, dst := 2, retx := false, seq := 0, ackv := false, ack := 0, epoch := 0, macOk := true } : FrameHdr).ackv = false ∧
        ({ port := 0, version := 1, src := 3, dst := 2, retx := false, seq := 0, ackv := false, ack := 0, epoch := 0, macOk := true } : FrameHdr).seq.toNat = (s.dev.peer ({ port := 0, version := 1, src := 3, dst := 2, retx := false, seq := 0, ackv := false, ack := 0, epoch := 0, macOk := true } : FrameHdr).src.val).rxNext ∧
        (s.dev.peer ({ port := 0, version := 1, src := 3, dst := 2, retx := false, seq := 0, ackv := false, ack := 0, epoch := 0, macOk := true } : FrameHdr).src.val).since + 1 < s.dev.fld rLinkCfg 24 5 ∧
        s.dev.flag rDirCtl 1 = false ∧ s.dev.role = 1 ∧
        ({ port := 0, version := 1, src := 3, dst := 2, retx := false, seq := 0, ackv := false, ack := 0, epoch := 0, macOk := true } : FrameHdr).src.val = s.dev.managerId ∧
        ({ epoch := 1, part := 1, last := false, full := false, pull := false, reply := false, records := [⟨0, 5, [1, 2, 3]⟩] } : DirFrame).epoch.toNat = (s.dev.epoch + 1) % 2 ^ 32) ∧
    (let s := wd [(rEnsCfg, 0x3_0021), (rLinkCfg, 0x1000_0040)] fun d => d; s.dev.role ≠ 0 ∧
        ({ port := 0, version := 1, src := 3, dst := 2, retx := false, seq := 0, ackv := false, ack := 0, epoch := 0, macOk := true } : FrameHdr).dst.toNat = s.dev.deviceId ∧
        ({ port := 0, version := 1, src := 3, dst := 2, retx := false, seq := 0, ackv := false, ack := 0, epoch := 0, macOk := true } : FrameHdr).macOk = true ∧
        ({ port := 0, version := 1, src := 3, dst := 2, retx := false, seq := 0, ackv := false, ack := 0, epoch := 0, macOk := true } : FrameHdr).version = 1 ∧
        ({ port := 0, version := 1, src := 3, dst := 2, retx := false, seq := 0, ackv := false, ack := 0, epoch := 0, macOk := true } : FrameHdr).ackv = false ∧
        ({ port := 0, version := 1, src := 3, dst := 2, retx := false, seq := 0, ackv := false, ack := 0, epoch := 0, macOk := true } : FrameHdr).seq.toNat = (s.dev.peer ({ port := 0, version := 1, src := 3, dst := 2, retx := false, seq := 0, ackv := false, ack := 0, epoch := 0, macOk := true } : FrameHdr).src.val).rxNext ∧
        (s.dev.peer ({ port := 0, version := 1, src := 3, dst := 2, retx := false, seq := 0, ackv := false, ack := 0, epoch := 0, macOk := true } : FrameHdr).src.val).since + 1 < s.dev.fld rLinkCfg 24 5 ∧
        s.dev.flag rDirCtl 1 = false ∧ s.dev.role = 1 ∧
        ({ port := 0, version := 1, src := 3, dst := 2, retx := false, seq := 0, ackv := false, ack := 0, epoch := 0, macOk := true } : FrameHdr).src.val = s.dev.managerId) ∧
    (let s := wd [(rEnsCfg, 0x3_0021), (rLinkCfg, 0x1000_0040)] fun d => d; s.dev.role ≠ 0 ∧
        ({ port := 0, version := 1, src := 6, dst := 2, retx := false, seq := 0, ackv := false, ack := 0, epoch := 0, macOk := true } : FrameHdr).dst.toNat = s.dev.deviceId ∧
        ({ port := 0, version := 1, src := 6, dst := 2, retx := false, seq := 0, ackv := false, ack := 0, epoch := 0, macOk := true } : FrameHdr).macOk = true ∧
        ({ port := 0, version := 1, src := 6, dst := 2, retx := false, seq := 0, ackv := false, ack := 0, epoch := 0, macOk := true } : FrameHdr).version = 1 ∧
        ({ port := 0, version := 1, src := 6, dst := 2, retx := false, seq := 0, ackv := false, ack := 0, epoch := 0, macOk := true } : FrameHdr).ackv = false ∧
        ({ port := 0, version := 1, src := 6, dst := 2, retx := false, seq := 0, ackv := false, ack := 0, epoch := 0, macOk := true } : FrameHdr).seq.toNat = (s.dev.peer ({ port := 0, version := 1, src := 6, dst := 2, retx := false, seq := 0, ackv := false, ack := 0, epoch := 0, macOk := true } : FrameHdr).src.val).rxNext ∧
        (s.dev.peer ({ port := 0, version := 1, src := 6, dst := 2, retx := false, seq := 0, ackv := false, ack := 0, epoch := 0, macOk := true } : FrameHdr).src.val).since + 1 < s.dev.fld rLinkCfg 24 5 ∧
        s.dev.flag rDirCtl 1 = false ∧ s.dev.role = 1 ∧
        ({ port := 0, version := 1, src := 6, dst := 2, retx := false, seq := 0, ackv := false, ack := 0, epoch := 0, macOk := true } : FrameHdr).src.val ≠ s.dev.managerId) ∧
    (let s := wd [(rEnsCfg, 0x3_0021), (rLinkCfg, 0x1000_0040)] fun d => d; s.dev.role ≠ 2) ∧
    (let s := wd [(rEnsCfg, 0x2_0022), (rLinkCfg, 0x1000_0040), (rEpoch, 6)] fun d => d; s.dev.role = 2 ∧
        s.dev.flag rDirCtl 1 = false) ∧
    (let s := State.reset; (4 : Nat) ∉ s.dev.ens.pulling) ∧
    (let s := wd [(rEnsCfg, 0x2_0022), (rLinkCfg, 0x1000_0040), (rEpoch, 6)] fun d => { d with ens.pulling := [4, 5], cue.act := 78 };
        s.dev.passed s.dev.ens.pullAt 100_000_000 = false) ∧
    (let s := wd [(rEnsCfg, 0x2_0022), (rLinkCfg, 0x1000_0040), (rEpoch, 6)] fun d => { d with ens.pulling := [4, 5], cue.act := 79 };
        s.dev.passed s.dev.ens.pullAt 100_000_000 = true ∧ (4 : Nat) ∈ s.dev.ens.pulling ∧
        s.dev.ens.pulling.erase 4 ≠ []) ∧
    (let s := wd [(rEnsCfg, 0x3_0021), (rLinkCfg, 0x1000_0040)] fun d => d; s.dev.orphaned = false ∧ s.dev.role ≠ 0) ∧
    (let s := ws [(rEnsCfg, 0x20)]; s.dev.orphaned = true ∨ s.dev.role = 0) ∧
    (let s := State.reset; s.dev.role = 0) ∧
    (let s := wd [(rEnsCfg, 0x3_0021), (rLinkCfg, 0x1000_0040)] fun d => { d with sec := 5, ns := 100, ens.ptpT1 := 1000, ens.ptpT2 := 1700 };
        s.dev.role = 1) ∧
    (let s := wd [(rEnsCfg, 0x3_0021), (rLinkCfg, 0x1000_0040)] fun d => { d with sec := 5, ns := 100, ens.ptpT1 := 1000, ens.ptpT2 := 1700 };
        s.dev.role = 1 ∧ (0 : Port) = s.dev.activePort) ∧
    (let s := wd [(rEnsCfg, 0x2_0022), (rLinkCfg, 0x1000_0040), (rEpoch, 6)] fun d => { d with sec := 5, ns := 100, ens.ptpT1 := 1000, ens.ptpT2 := 1700 };
        s.dev.role = 2) ∧
    (let s := wd [(rEnsCfg, 0x2_0022), (rLinkCfg, 0x1000_0040), (rEpoch, 6)] fun d => { d with sec := 5, ns := 100, ens.ptpT1 := 1000, ens.ptpT2 := 1700 };
        s.dev.role = 2 ∧ 0 ≤ (s.dev.sec : Int) * 1000000000 + s.dev.ns + (0xFFFF_FF00 : W32).toInt ∧
        (s.dev.sec : Int) * 1000000000 + s.dev.ns + (0xFFFF_FF00 : W32).toInt < 2 ^ 48 * 1000000000) ∧
    (let s := wd [(rEnsCfg, 0x2_0022), (rLinkCfg, 0x1000_0040), (rEpoch, 6)] fun d => { d with sec := 5, ns := 100, ens.ptpT1 := 1000, ens.ptpT2 := 1700 };
        s.dev.role = 2 ∧ 0 ≤ (s.dev.sec : Int) * 1000000000 + s.dev.ns + (200 : W32).toInt ∧
        (s.dev.sec : Int) * 1000000000 + s.dev.ns + (200 : W32).toInt < 2 ^ 48 * 1000000000) ∧
    (let s := wd [(rEnsCfg, 0x2_0022), (rLinkCfg, 0x1000_0040), (rEpoch, 6)] fun d => d; s.dev.role = 2 ∧
        s.dev.ens.syncSent = none ∧ s.dev.engineHalted 7 = false) ∧
    (let s := ws [(rMdioStat, 0x1_0000)]; s.dev.flag rMdioStat 16 = true) ∧
    (let s := State.reset; s.dev.flag rMdioStat 16 = false) ∧
    (let s := State.reset; s.dev.ens.mdio = none) ∧
    (let s := wd [(rMdioStat, 0x1_0000)] fun d => { d with ens.mdio := some 0xC00_0000 };
        s.dev.ens.mdio = some 0xC00_0000) := by
  refine ⟨?_, ?_, ?_, ?_, ?_, ?_, ?_, ?_, ?_, ?_, ?_, ?_, ?_, ?_, ?_, ?_, ?_, ?_, ?_, ?_, ?_⟩ <;> decide

/-- The hypotheses of ResetsAndBoot are met. -/
theorem witness_ResetsAndBoot :
    (let s := wd [] fun d => { d with pwr.resetDue := none }; s.dev.pwr.resetDue = none) ∧
    (let s := wd [] fun d => { d with pwr.goodDdr := false }; s.dev.pwr.goodDdr = false) ∧
    (let s := (wd [] fun d => { d with pwr.resetDue := some 1 }).onMem fun m => { m with dram := [(5, 1)], flash := [(9, 2)] };
        s.dev.pwr.resetDue = some 1 ∧ s.dev.pwr.goodMain = true ∧ s.dev.pwr.goodDdr = true ∧
        (⟨0, false, [], 0⟩ : BootEnv).flashAnswers = false) ∧
    (let s := (wd [] fun d => { d with pwr.resetDue := some 7 }).onMem fun m => { m with dram := [(5, 1)], flash := [(9, 2)] };
        s.dev.pwr.resetDue = some 7 ∧ s.dev.pwr.goodMain = true ∧ s.dev.pwr.goodDdr = true ∧
        (⟨0, false, [], 0⟩ : BootEnv).flashAnswers = false) ∧
    (let s := State.reset; s.dev.resetting = true) ∧
    (let s := wd [(rPwrStat, 0)] fun d => { d with pwr.resetDue := none }; s.dev.resetting = false ∧
        s.dev.pwr.perst = false ∧ s.dev.powerState ≤ 1 ∧ s.dev.openRanges = []) ∧
    (let s := wd [(rPwrStat, 0)] fun d => { d with pwr.resetDue := none, hq.rows := [wHeld 3 false] };
        s.dev.resetting = false ∧ s.dev.pwr.perst = false ∧ s.dev.powerState ≤ 1 ∧ s.dev.openRanges ≠ [] ∧
        s.dev.cfg.busy = none) ∧
    (let s := wd [(rPwrStat, 0)] fun d => { d with pwr.resetDue := none }; s.dev.resetting = false ∧
        s.dev.pwr.pfail = false ∧ s.dev.powerState ≤ 1 ∧ s.dev.openRanges = []) ∧
    (let s := wd [(rPwrStat, 0)] fun d => { d with pwr.resetDue := none, hq.rows := [wHeld 3 false] };
        s.dev.resetting = false ∧ s.dev.pwr.pfail = false ∧ s.dev.powerState ≤ 1 ∧ s.dev.openRanges ≠ [] ∧
        s.dev.cfg.busy = none) ∧
    (let s := ws [(rPwrStat, 3)]; s.dev.powerState = 3) ∧
    (let s := wd [(rPwrStat, 0)] fun d => { d with pwr.perst := true }; s.dev.powerState ≠ 3) ∧
    (let s := wd [] fun d => { d with pwr.resetDue := none, pwr.stopping := some 2, pwr.pfail := true };
        s.dev.pwr.stopping = some 2 ∧ s.dev.pwr.pfail = true ∧ s.dev.recording = false ∧ s.dev.pwr.resetDue = none ∧
        s.dev.pwr.goodMain = true ∧ s.dev.pwr.goodDdr = true) ∧
    (let s := wd [(rPwrStat, 0x100)] fun d => { d with pwr.resetDue := none }; s.dev.resetting = false ∧
        s.dev.flag rPwrStat 8 = true) ∧
    (let s := wd [] fun d => { d with pwr.resetDue := none, hq.curtain := some { cmd := none, warm := false, start := 0, discarded := [], final := false } };
        s.dev.resetting = false ∧ s.dev.flag rPwrStat 8 = false ∧
        (s.dev.hq.curtain = some { cmd := none, warm := false, start := 0, discarded := [], final := false })) ∧
    (let s := wd [] fun d => { d with pwr.resetDue := none }; s.dev.resetting = false ∧
        s.dev.flag rPwrStat 8 = false ∧ s.dev.hq.curtain = none ∧ s.dev.hq.rows = [] ∧ s.dev.hq.cmds = []) ∧
    (let s := wd [] fun d => { d with pwr.resetDue := none, hq.rows := [wHeld 3 false] }; s.dev.powerState ≠ 3 ∧
        s.dev.recording = false ∧ s.dev.pwr.stopping = none) ∧
    (let s := wd [] fun d => { d with pwr.goodDdr := !true, pwr.goodMain := true, pwr.resetDue := none };
        s.dev.powerState ≠ 3 ∧ s.dev.pwr.goodDdr = !true ∧ s.dev.pwr.goodMain = true) ∧
    (let s := wd [(rPwrStat, 1)] fun d => { d with pwr.resetDue := none }; s.dev.powerState ≤ 1 ∧
        s.dev.pwr.resetDue = none) ∧
    (let s := wd [] fun d => { d with pwr.goodDdr := !false, pwr.goodMain := false, pwr.resetDue := none };
        s.dev.powerState ≠ 3 ∧ s.dev.pwr.goodDdr = !false ∧ s.dev.pwr.goodMain = false) ∧
    (let s := State.reset; 2 ≤ s.dev.powerState ∨ s.dev.pwr.resetDue ≠ none) ∧
    (let s := ws [(rLifecycle, 0x10)]; (0x9_0000 : W32).getLsbD 5 = false ∧ ((s.dev.flag rLifecycle 4 = true ∧
        5 = 5) ∨ (s.dev.flag rLifecycle 4 = false ∧ fget 0x9_0000 16 2 + fget 0x9_0000 18 2 ≠ 3 ∧
        5 = 4) ∨ (s.dev.flag rLifecycle 4 = false ∧ fget 0x9_0000 16 2 + fget 0x9_0000 18 2 = 3 ∧
        lifeAllowed (s.dev.fld rLifecycle 0 2) (fget 0x9_0000 16 2) = false ∧ 5 = 1))) ∧
    (let s := ws []; (0x5_0000 : W32).getLsbD 5 = false ∧ ((s.dev.flag rLifecycle 4 = true ∧
        4 = 5) ∨ (s.dev.flag rLifecycle 4 = false ∧ fget 0x5_0000 16 2 + fget 0x5_0000 18 2 ≠ 3 ∧
        4 = 4) ∨ (s.dev.flag rLifecycle 4 = false ∧ fget 0x5_0000 16 2 + fget 0x5_0000 18 2 = 3 ∧
        lifeAllowed (s.dev.fld rLifecycle 0 2) (fget 0x5_0000 16 2) = false ∧ 4 = 1))) ∧
    (let s := ws []; (0x6_0000 : W32).getLsbD 5 = false ∧ ((s.dev.flag rLifecycle 4 = true ∧
        1 = 5) ∨ (s.dev.flag rLifecycle 4 = false ∧ fget 0x6_0000 16 2 + fget 0x6_0000 18 2 ≠ 3 ∧
        1 = 4) ∨ (s.dev.flag rLifecycle 4 = false ∧ fget 0x6_0000 16 2 + fget 0x6_0000 18 2 = 3 ∧
        lifeAllowed (s.dev.fld rLifecycle 0 2) (fget 0x6_0000 16 2) = false ∧ 1 = 1))) ∧
    (let s := wd [] fun d => { d with cfg.busy := some .boardCopy }; (0x9_0000 : W32).getLsbD 5 = false ∧
        s.dev.lifeWhy (fget 0x9_0000 16 2) (fget 0x9_0000 18 2) = 0 ∧ s.dev.cfg.busy ≠ none) ∧
    (let s := State.reset; s.dev.cfg.busy = none ∧ s.dev.cfg.waiting = []) ∧
    (let s := wd [(rCopyStat, 1)] fun d => { d with cfg.busy := some .boardCopy, flt.copy := some { reason := 0x171, entries := [], timeSec := 3 } };
        s.dev.cfg.busy = some .boardCopy ∧ s.dev.cfg.waiting = [] ∧
        (s.dev.flt.copy = some { reason := 0x171, entries := [], timeSec := 3 }) ∧ s.dev.flt.copyPending = none) := by
  refine ⟨?_, ?_, ?_, ?_, ?_, ?_, ?_, ?_, ?_, ?_, ?_, ?_, ?_, ?_, ?_, ?_, ?_, ?_, ?_, ?_, ?_, ?_, ?_, ?_, ?_, ?_⟩ <;>
    decide

/-- The hypotheses of PowerStatesAndHouse are met. -/
theorem witness_PowerStatesAndHouse :
    (let s := ws [(rPwrStat, 1)]; s.dev.powerState ≤ 1) ∧
    (let s := ws [(rPwrStat, 2)]; s.dev.powerState = 2 ∧
        (WakeSource.perst = WakeSource.perst ∨ s.dev.wakeOn .perst = false)) ∧
    (let s := ws [(rPwrStat, 2)]; s.dev.powerState = 2 ∧
        (WakeSource.alarm = WakeSource.perst ∨ s.dev.wakeOn .alarm = false)) ∧
    (let s := wd [(rPwrStat, 2), (rPortStat 0, 2), (rPortStat 1, 2)] fun d => { d with pwr.resetDue := none, cue.act := 7 };
        s.dev.powerState = 2 ∧ s.dev.wakeOn .clkreq = true) ∧
    (let s := wd [(rPwrStat, 2), (rPortStat 0, 2), (rPortStat 1, 2)] fun d => { d with pwr.resetDue := none, cue.act := 7 };
        s.dev.powerState = 2 ∧ s.dev.wakeOn .pfail = true) ∧
    (let s := wd [(rPwrStat, 3), (rDozeCfg, 0xF_0000)] fun d => { d with pwr.resetDue := none };
        s.dev.powerState = 3 ∧ s.dev.wakeOn .gpio = true ∧ s.dev.pwr.resetDue = none) ∧
    (let s := wd [(rPwrStat, 3), (rDozeCfg, 0xF_0000)] fun d => { d with pwr.resetDue := none };
        s.dev.powerState = 3 ∧ s.dev.wakeOn .perst = true ∧ s.dev.pwr.resetDue = none) ∧
    (let s := wd [(rPwrStat, 1)] fun d => { d with pwr.resetDue := none, hq.curtained := true };
        s.dev.curtainHolds = true) ∧
    (let s := wd [(rPwrStat, 1)] fun d => { d with pwr.resetDue := none, hq.curtained := false };
        s.dev.curtainHolds = false) ∧
    (let s := wd [(rPwrStat, 1)] fun d => { d with pwr.resetDue := none, hq.curtained := true, pwr.toP3 := true };
        s.dev.pwr.toP3 = true ∧ s.dev.curtainHolds = true ∧ s.dev.resetting = false) ∧
    (let s := ws [(rAlarm, 0)]; (s.dev.rd rAlarm).toNat ≠ 1) ∧
    (let s := ws [(rAlarm, 2)]; (s.dev.rd rAlarm).toNat ≠ 1) ∧
    (let s := ws [(rAlarm, 1), (rPwrStat, 0)]; s.dev.rd rAlarm = 1 ∧ s.dev.powerState ≤ 1) ∧
    (let s := wd [(rAlarm, 1), (rPwrStat, 3), (rDozeCfg, 0x8_0000)] fun d => { d with pwr.resetDue := none };
        s.dev.rd rAlarm = 1 ∧ s.dev.powerState = 3 ∧ s.dev.flag rDozeCfg 19 = true ∧ s.dev.pwr.resetDue = none) ∧
    (let s := State.reset; s.dev.hotNow 25 [] 0 = 0) ∧
    (let s := ws [(rThermCfg, 0x7D69)]; (s.dev.fld rThermCfg 0 8 : Int) ≤ 105 ∧ s.dev.pwr.hot.getLsbD 0 = false) ∧
    (let s := State.reset; s.dev.pwr.coolSince = none) ∧
    (let s := wd [(rPwrStat, 0x200)] fun d => { d with cue.act := 781, pwr.coolSince := some 0 };
        s.dev.pwr.coolSince = some 0 ∧ s.dev.beats < 0 + 800000) ∧
    (let s := wd [(rPwrStat, 0x200)] fun d => { d with cue.act := 1000, pwr.coolSince := some 0, pwr.fanBefore := some 33 };
        s.dev.pwr.coolSince = some 0 ∧ 0 + 800000 ≤ s.dev.beats ∧ s.dev.flag rPwrStat 9 = true ∧
        s.dev.pwr.fanBefore = some 33) ∧
    (let s := State.reset; s.dev.pcie.ready = false) ∧
    (let s := wd [] fun d => { d with pcie.ready := true }; s.dev.pcie.ready = true) ∧
    (let s := State.reset; s.dev.ringReady 0 = false) ∧
    (let s := wd [(rCueStatus, 1), (rRingSize 0, 0x40_0040), (rRingCfg 0, 1), (rSqTail 0, 1)] fun d => { d with pwr.resetDue := none, pcie.busMaster := true, sampled := d.regs };
        s.dev.ringReady 0 = true ∧ s.dev.fabric = true ∧ s.dev.stopped = false ∧ s.dev.pcie.busMaster = true) ∧
    (let s := State.reset; s.dev.dmaBusy 0 = false) ∧
    (let s := wd [(rDmaStat 0, 1)] fun d => { d with dma := vmod d.dma (0 : Chan) fun x => { x with left := 8, asked := 64, src := 0x8000_0000_0000 } };
        s.dev.dmaBusy 0 = true ∧ s.dev.dma[(0 : Chan)].linking = false ∧ 0 < s.dev.dma[(0 : Chan)].asked ∧
        inHost s.dev.dma[(0 : Chan)].src = true ∧ s.dev.dma[(0 : Chan)].inFlight = 0 ∧
        s.dev.dma[(0 : Chan)].failing = none) ∧
    (let s := State.reset; s.dev.cfg.policy = none) ∧
    (let s := wd [] fun d => { d with cfg.policy := some [0, 0, 0, 0, 15, 1] }; s.dev.policyField 4 1 = some 15) ∧
    (let s := wd [] fun d => { d with cfg.policy := some [0, 0, 0, 0, 16, 1] }; s.dev.policyField 4 1 = some 16) ∧
    (let s := State.reset; s.dev.flag rCalCtl 2 = false ∨ s.dev.rehearsal = false) := by
  refine ⟨?_, ?_, ?_, ?_, ?_, ?_, ?_, ?_, ?_, ?_, ?_, ?_, ?_, ?_, ?_, ?_, ?_, ?_, ?_, ?_, ?_, ?_, ?_, ?_, ?_, ?_, ?_,
    ?_, ?_⟩ <;> decide

end Sys2Proof.Tests
end

section
/-! PROOFS. A write by hand to a cue-owned register (R12, R65): what it records, the entry it makes, and what it leaves
as it was. -/

namespace Sys2Proof.Machine

/-! ### A post that merges with no entry -/

/-- With no entry of this act, code and source to merge with, a post makes a new entry (R368). -/
theorem Dev.post_of_boardTwin_none (d : Dev) (c s e f g h : Nat) (ht : d.boardTwin c s = none) :
    d.post c s e f g h = d.postNew c s d.cue.act d.pos false d.ghostLight e f g h := by
  simp [Dev.post, Dev.postAt, ht]

/-! ### The writer's code -/

/-- Every writer's code fits CUE_OWNED_HIT.WRITER. -/
theorem writerCode_lt (m : Master) : writerCode m < 2 ^ 8 := by
  cases m <;> simp only [writerCode] <;> omega

/-- The device ID of a writer that is a peer, in the upper half of DATA3; 0 for another writer. -/
def peerBits : Master → Nat
  | .peer id => id.val * 2 ^ 16
  | .jtag | .host | .core _ | .dma _ | .admitter | .format => 0

/-- The lower half of DATA3 is the writer's code. -/
theorem writerCode_add_peerBits_mod (m : Master) : (writerCode m + peerBits m) % 2 ^ 16 = writerCode m := by
  have hlt := writerCode_lt m
  cases m <;> simp only [peerBits] at hlt ⊢ <;> omega

/-- The upper half of DATA3 is a peer's device ID. -/
theorem writerCode_add_peerBits_div (id : DevId) :
    (writerCode (.peer id) + peerBits (.peer id)) / 2 ^ 16 = id.val := by
  simp only [writerCode, peerBits]; omega

/-! ### The two cases of an owned write -/

/-- What every owned write does: the count, the writer's code, the offset, and the value read back. -/
def Dev.ownedMark (d : Dev) (m : Master) (off : Nat) (v : W32) : Dev :=
  let d := ((d.bump rOwnedHit 0 16).setF rOwnedHit 16 8 (writerCode m)).setF rOwnedAddr 0 26 off
  { d with cue.byHand := sput d.cue.byHand off v }

/-- What the act's first owned write does before it posts: it marks, and remembers that the act has its entry. -/
def Dev.ownedMarkFirst (d : Dev) (m : Master) (off : Nat) (v : W32) : Dev :=
  { d.ownedMark m off v with cue.ownedEntry := true }

/-- Marking makes no entry and stays in its act, so an entry to merge with is one of before. -/
theorem Dev.boardTwin_ownedMarkFirst (d : Dev) (m : Master) (off : Nat) (v : W32) (c s : Nat) :
    (d.ownedMarkFirst m off v).boardTwin c s = d.boardTwin c s := rfl

/-- Once an entry was made in this act, an owned write only marks (R65). -/
theorem Dev.ownedWrite_of_entry (d : Dev) (m : Master) (off : Nat) (v : W32) (h : d.cue.ownedEntry = true) :
    d.ownedWrite m off v = d.ownedMark m off v := by
  simp [Dev.ownedWrite, Dev.ownedMark, h]

/-- The first owned write of an act marks and posts entry 0x0101 (R65, R371). -/
theorem Dev.ownedWrite_of_no_entry (d : Dev) (m : Master) (off : Nat) (v : W32) (h : d.cue.ownedEntry = false) :
    d.ownedWrite m off v = (d.ownedMarkFirst m off v).post 0x0101 0x0C off v.toNat
      ((d.ownedMark m off v).rd off).toNat (writerCode m + peerBits m) := by
  cases m <;> simp [Dev.ownedWrite, Dev.ownedMarkFirst, Dev.ownedMark, peerBits, h]

/-! ### Its registers -/

/-- The marking of an owned write is all that it does to registers. -/
theorem Dev.ownedWrite_regs (d : Dev) (m : Master) (off : Nat) (v : W32) :
    (d.ownedWrite m off v).regs = (d.ownedMark m off v).regs := by
  cases h : d.cue.ownedEntry with
  | true => rw [Dev.ownedWrite_of_entry d m off v h]
  | false => rw [Dev.ownedWrite_of_no_entry d m off v h, Dev.post_regs]; rfl

/-- A field after an owned write is that of three writes to CUE_OWNED_HIT and CUE_OWNED_ADDR. -/
theorem Dev.fld_ownedWrite (d : Dev) (m : Master) (off : Nat) (v : W32) (a lo w : Nat) :
    (d.ownedWrite m off v).fld a lo w =
      (((d.bump rOwnedHit 0 16).setF rOwnedHit 16 8 (writerCode m)).setF rOwnedAddr 0 26 off).fld a lo w := by
  unfold Dev.fld
  rw [Dev.rd_congr (d.ownedWrite_regs m off v)]
  rfl

/-- An owned write raises CUE_OWNED_HIT.COUNT by one, saturating. -/
theorem Dev.fld_ownedWrite_count (d : Dev) (m : Master) (off : Nat) (v : W32) :
    (d.ownedWrite m off v).fld rOwnedHit 0 16 = min (d.fld rOwnedHit 0 16 + 1) 0xFFFF := by
  rw [Dev.fld_ownedWrite, Dev.fld_setF_other _ _ _ _ _ _ _ _ (by decide) (by decide),
    Dev.fld_setF_other _ _ _ _ _ _ _ _ (by decide) (by decide), Dev.bump,
    Dev.fld_setF_same _ _ _ _ _ (by decide), satAdd]
  omega

/-- An owned write records the writer's code. -/
theorem Dev.fld_ownedWrite_writer (d : Dev) (m : Master) (off : Nat) (v : W32) :
    (d.ownedWrite m off v).fld rOwnedHit 16 8 = writerCode m := by
  rw [Dev.fld_ownedWrite, Dev.fld_setF_other _ _ _ _ _ _ _ _ (by decide) (by decide),
    Dev.fld_setF_same _ _ _ _ _ (by decide), Nat.mod_eq_of_lt (writerCode_lt m)]

/-- An owned write records the register's offset. -/
theorem Dev.fld_ownedWrite_addr (d : Dev) (m : Master) (off : Nat) (v : W32) (h : off < 2 ^ 26) :
    (d.ownedWrite m off v).fld rOwnedAddr 0 26 = off := by
  rw [Dev.fld_ownedWrite, Dev.fld_setF_same _ _ _ _ _ (by decide), Nat.mod_eq_of_lt h]

/-! ### The entry, and all else -/

/-- Once an entry was made in this act, an owned write makes no other (R65). -/
theorem Dev.ownedWrite_flt_of_entry (d : Dev) (m : Master) (off : Nat) (v : W32) (h : d.cue.ownedEntry = true) :
    (d.ownedWrite m off v).flt = d.flt := by
  rw [Dev.ownedWrite_of_entry d m off v h]
  rfl

/-- The first owned write of an act is remembered until the act ends. -/
theorem Dev.ownedWrite_ownedEntry (d : Dev) (m : Master) (off : Nat) (v : W32) (h : d.cue.ownedEntry = false) :
    (d.ownedWrite m off v).cue.ownedEntry = true := by
  rw [Dev.ownedWrite_of_no_entry d m off v h, Dev.post_cue]; rfl

/-- The entry of the first owned write of an act, where it merges with none: the newest of the board, with the offset,
the value and the writer (R65, R371). -/
theorem Dev.ownedWrite_new_entry (d : Dev) (m : Master) (off : Nat) (v : W32) (h : d.cue.ownedEntry = false)
    (ht : d.boardTwin 0x0101 0x0C = none) :
    ∃ e, (d.ownedWrite m off v).flt.board = (e :: d.flt.board).take 4096 ∧ e.code = 0x0101 ∧ e.d0 = off ∧
      e.d1 = v.toNat ∧ e.d3 = writerCode m + peerBits m := by
  rw [Dev.ownedWrite_of_no_entry d m off v h, Dev.post_of_boardTwin_none _ _ _ _ _ _ _
    ((d.boardTwin_ownedMarkFirst m off v _ _).trans ht)]
  exact ⟨_, rfl, rfl, rfl, rfl, rfl⟩

/-- Every part of the device beside the cue fabric and the call board is as it was after an owned write. -/
theorem State.same_ownedWrite (s : State) (m : Master) (off : Nat) (v : W32) (p : Part) (hp : p ∉ [Part.cue, .flt]) :
    p.same s (s.onDev fun d => d.ownedWrite m off v) := by
  cases h : s.dev.cue.ownedEntry with
  | true => cases p <;> simp [Part.same, Dev.ownedWrite_of_entry _ m off v h, Dev.ownedMark] at hp ⊢
  | false =>
    cases p <;>
      simp [Part.same, Dev.ownedWrite_of_no_entry _ m off v h, Dev.ownedMarkFirst, Dev.ownedMark] at hp ⊢

/-- An owned write leaves all but the cue fabric, the call board, CUE_OWNED_HIT and CUE_OWNED_ADDR: the register
written keeps its value in force. -/
theorem State.keeps_ownedWrite (s : State) (m : Master) (off : Nat) (v : W32) :
    s.keeps (s.onDev fun d => d.ownedWrite m off v) [.cue, .flt] (· ∈ [rOwnedHit, rOwnedAddr]) := by
  refine ⟨rfl, s.same_ownedWrite m off v, fun a ha => ?_⟩
  obtain ⟨hhit, haddr⟩ : rOwnedHit ≠ a ∧ rOwnedAddr ≠ a := by simpa [eq_comm] using ha
  calc (s.dev.ownedWrite m off v).rd a
      = (((s.dev.bump rOwnedHit 0 16).setF rOwnedHit 16 8 (writerCode m)).setF rOwnedAddr 0 26 off).rd a :=
        Dev.rd_congr (s.dev.ownedWrite_regs m off v) a
    _ = s.dev.rd a := by rw [Dev.rd_setF_ne _ _ _ _ _ _ haddr, Dev.rd_setF_ne _ _ _ _ _ _ hhit,
        Dev.rd_bump_ne _ _ _ _ _ _ hhit]

/-- The command on a register of class cue-owned is an owned write. -/
theorem exec_cueOwnedWrite (m : Master) (off : Off) (v : W32) (s : State) (r : RegRow)
    (hr : regRow off.toNat = some r) (hc : r.cls = .cueOwned) :
    exec (.cueOwnedWrite m off v) s = .next (s.onDev fun d => d.ownedWrite m off.toNat v) := by
  simp [exec, execCueOwnedWrite, hr, hc]

/-- Settles O22: the fields come from the three register writes, the entry from the case of the act's first write. -/
theorem cueOwnedWriteCounted : Obligations.CueOwnedWriteCounted := by
  unfold Obligations.CueOwnedWriteCounted
  intro m off v s r hr hc
  refine ⟨_, exec_cueOwnedWrite m off v s r hr hc, s.dev.fld_ownedWrite_count m _ v,
    s.dev.fld_ownedWrite_writer m _ v, s.dev.fld_ownedWrite_addr m _ v off.isLt, fun id hm => by rw [hm]; rfl,
    s.dev.ownedWrite_flt_of_entry m _ v, fun h => ⟨s.dev.ownedWrite_ownedEntry m _ v h, fun ht => ?_⟩,
    s.keeps_ownedWrite m _ v⟩
  obtain ⟨e, hboard, hcode, hoff, hval, hwriter⟩ := s.dev.ownedWrite_new_entry m off.toNat v h ht
  refine ⟨e, hboard, hcode, hoff, hval, ?_, fun id hm => ?_⟩
  · rw [hwriter, writerCode_add_peerBits_mod]
  · rw [hwriter, hm, writerCode_add_peerBits_div]

end Sys2Proof.Machine
end

section
/-! PROOFS. An offset that names no register (R416), what a register read or write of it comes to when no DMA channel is at
work, and the two unmapped ranges of the register range (R14). -/

namespace Sys2Proof.Machine

/-! ### What is left as it was, over two moves -/

/-- A part that two moves leave alone is the same before and after both. -/
theorem Part.same_trans {p : Part} {s t u : State} (h : p.same s t) (k : p.same t u) : p.same s u := by
  cases p <;> simp_all [Part.same]

/-- Two moves that each leave all but some parts and registers do so together. -/
theorem State.keeps_trans {s t u : State} {parts : List Part} {regs : Nat → Prop} (h : s.keeps t parts regs)
    (k : t.keeps u parts regs) : s.keeps u parts regs := by
  obtain ⟨hpend, hpart, hreg⟩ := h
  obtain ⟨kpend, kpart, kreg⟩ := k
  exact ⟨kpend.trans hpend, fun p hp => Part.same_trans (hpart p hp) (kpart p hp),
    fun a ha => (kreg a ha).trans (hreg a ha)⟩

/-- Naming more parts as possibly changed says less. -/
theorem State.keeps_of_subset {s t : State} {ps qs : List Part} {regs : Nat → Prop} (hsub : ps ⊆ qs)
    (h : s.keeps t ps regs) : s.keeps t qs regs := by
  obtain ⟨hpend, hpart, hreg⟩ := h
  exact ⟨hpend, fun p hp => hpart p fun hmem => hp (hsub hmem), hreg⟩

/-- Sending something changes only what was sent. -/
theorem State.keeps_emit (s : State) (o : Output) : s.keeps (s.onDev fun d => d.emit o) [.sent] (fun _ => False) :=
  ⟨rfl, fun p hp => by cases p <;> simp [Part.same, Dev.emit] at hp ⊢, fun _ _ => rfl⟩

/-! ### The flash controller goes on (R418) -/

/-- Beginning the next flash operation changes the flash controller and nothing else. -/
theorem State.startFlash_eq (s : State) :
    s.startFlash = s.onDev fun d => { d with cfg := s.startFlash.dev.cfg } := by
  unfold State.startFlash
  split
  · rfl
  · split
    · rfl
    · next o _ =>
      cases o with
      | cfg op a n => dsimp only; split <;> rfl
      | _ => rfl

theorem State.startFlash_sent (s : State) : s.startFlash.dev.sent = s.dev.sent := by
  rw [s.startFlash_eq]; rfl

theorem State.keeps_startFlash (s : State) : s.keeps s.startFlash [.cfg] (fun _ => False) := by
  rw [s.startFlash_eq]
  exact ⟨rfl, fun p hp => by cases p <;> simp [Part.same] at hp ⊢, fun _ _ => rfl⟩

/-! ### The DMA engine with no channel at work -/

/-- With no channel at work none can go on. -/
theorem Dev.nextChan_of_idle (d : Dev) (h : ∀ ch, d.dmaBusy ch = false) : d.nextChan = none := by
  have hready : ∀ ch, d.dmaReady ch = false := fun ch => by simp [Dev.dmaReady, h ch]
  simp [Dev.nextChan, hready]

/-- Serving channels ends at once when none can go on. -/
theorem State.dmaLoop_of_nextChan_none (fuel : Nat) (s : State) (h : s.dev.nextChan = none) :
    State.dmaLoop fuel s = s := by
  cases fuel with
  | zero => rfl
  | succ n => simp [State.dmaLoop, h]

/-- A change that does nothing to a device does nothing to it for each element of a list. -/
theorem Dev.each_eq_self {α : Type} (d : Dev) (l : List α) (f : Dev → α → Dev) (h : ∀ a, f d a = d) : d.each l f = d :=
  List.foldl_fixed' h l

/-- A change that does nothing to the device does nothing to the state. -/
theorem State.onDev_eq_self (s : State) (f : Dev → Dev) (h : f s.dev = s.dev) : s.onDev f = s := by
  rw [State.onDev, h]

/-- With no channel at work the DMA engine does nothing. -/
theorem State.runDma_of_idle (s : State) (h : ∀ ch, s.dev.dmaBusy ch = false) : s.runDma = s := by
  have hloop := s.dmaLoop_of_nextChan_none (2 ^ 30) (s.dev.nextChan_of_idle h)
  have hlink : ∀ ch, s.sendLink ch = s := fun ch => by simp [State.sendLink, h ch]
  dsimp only [State.runDma]
  rw [State.onDev_eq_self, hloop, List.foldl_fixed' hlink]
  -- the first pass ends a failing channel only if it is at work
  refine Dev.each_eq_self _ _ _ fun ch => ?_
  split <;> simp [h ch]

/-- What follows a register write, with no channel at work: the flash controller alone goes on. -/
theorem State.goOn_of_idle (s : State) (h : ∀ ch, s.dev.dmaBusy ch = false) : s.goOn = s.startFlash := by
  rw [State.goOn, s.runDma_of_idle h]

/-! ### Offsets outside the windows -/

/-- The offset lies in the register range below the allocation window, and in none of the windows that begin below it: the
call board's, CFG's and those of the two chain tables. -/
def outsideWindows (off : Nat) : Prop :=
  ¬ (0xE1_0000 ≤ off ∧ off < 0xE5_0000) ∧ ¬ (0x100_1000 ≤ off ∧ off < 0x100_A000) ∧ off < 0x110_0000

/-- It leads to the registers. -/
theorem localDest_of_outsideWindows (off : Nat) (h : outsideWindows off) : localDest off = .regs off := by
  obtain ⟨-, -, htop⟩ := h
  have hlow : ¬ (0x120_0000 ≤ off) ∧ ¬ (0x200_0000 ≤ off) ∧ ¬ (0x280_0000 ≤ off) ∧ off < 0x400_0000 := by omega
  simp [localDest, offUnmapped, hlow]

/-- It reads no window's word. -/
theorem State.windowRead_of_outsideWindows (s : State) (off : Nat) (h : outsideWindows off) : s.windowRead off = none := by
  obtain ⟨hboard, hcfg, htop⟩ := h
  unfold State.windowRead
  dsimp only
  rw [if_neg hboard, if_neg (by omega), if_neg (by omega), if_neg (by omega), if_neg (by omega)]

/-- An aligned read of four bytes in the register range is one word read. -/
theorem State.regsRead_word (s : State) (m : Master) (off : Nat) (ha : off % 4 = 0) (hd : localDest off = .regs off) :
    State.regsRead m 3 s off 4 = ((s.readWord m off).1, .ok (leBytes 4 (s.readWord m off).2.toNat)) := by
  have hw : off / 4 * 4 = off := by omega
  simp [State.regsRead, ha, hd, hw, leBytes, Except.map]

/-! ### Reading and writing where no register is -/

/-- A word read there is 0 and changes nothing. -/
theorem State.readWord_of_no_register (s : State) (m : Master) (off : Nat) (hr : regRow off = none)
    (h : outsideWindows off) : s.readWord m off = (s, 0) := by
  simp [State.readWord, s.windowRead_of_outsideWindows off h, hr]

/-- A word written there is discarded. -/
theorem State.writeWord_of_no_register (s : State) (m : Master) (off : Nat) (be : BitVec 4) (v : W32)
    (hr : regRow off = none) (h : outsideWindows off) : s.writeWord m off be v = s := by
  obtain ⟨hboard, hcfg, htop⟩ := h
  unfold State.writeWord
  rw [if_neg (by omega), if_neg (by omega), hr]

/-- A master's read there is answered by four zero bytes. -/
theorem State.regRead_of_no_register (s : State) (m : Master) (off : Nat) (hr : regRow off = none) (ha : off % 4 = 0)
    (h : outsideWindows off) : s.regRead m off = s.onDev fun d => d.emit (.data m [0, 0, 0, 0]) := by
  have hd := localDest_of_outsideWindows off h
  simp only [State.regRead, hd, State.destRead]
  rw [s.regsRead_word m off ha hd, s.readWord_of_no_register m off hr h]
  simp [State.answerRead, leBytes]

/-- A master's write there is discarded. -/
theorem State.regWrite_of_no_register (s : State) (m : Master) (off : Nat) (be : BitVec 4) (v : W32)
    (hr : regRow off = none) (h : outsideWindows off) : s.regWrite m off be v = s := by
  simp only [State.regWrite, localDest_of_outsideWindows off h]
  exact s.writeWord_of_no_register m off be v hr h

/-! ### The two commands -/

/-- READ_CLEAR there: four zero bytes, and the flash controller goes on. -/
theorem exec_readClear_of_no_register (m : Master) (off : Off) (s : State) (hr : regRow off.toNat = none)
    (ha : off.toNat % 4 = 0) (h : outsideWindows off.toNat) :
    exec (.readClear m off) s = .next (s.onDev fun d => d.emit (.data m [0, 0, 0, 0])).startFlash := by
  have hw : off.toNat / 4 * 4 = off.toNat := by omega
  simp only [exec, execReadClear, hw, s.regRead_of_no_register m off.toNat hr ha h]

/-- REGISTER_WRITE there, alone in its cycle and with no channel at work: the flash controller goes on. -/
theorem exec_registerWrite_of_no_register (m : Master) (off : Off) (be : BitVec 4) (v : W32) (s : State)
    (hr : regRow off.toNat = none) (ha : off.toNat % 4 = 0) (h : outsideWindows off.toNat)
    (hidle : ∀ ch, s.dev.dmaBusy ch = false) : exec (.registerWrite m off be v []) s = .next s.startFlash := by
  have hw : off.toNat / 4 * 4 = off.toNat := by omega
  have horder : inFabricOrder [⟨m, off, be, v⟩] = [⟨m, off, be, v⟩] := rfl
  simp only [exec, execRegisterWrite, horder, List.foldl_cons, List.foldl_nil, hw,
    s.regWrite_of_no_register m off.toNat be v hr h, s.goOn_of_idle hidle]

/-! ### The unmapped ranges (R14) -/

theorem offUnmapped_iff (off : Nat) :
    offUnmapped off = true ↔ (0x120_0000 ≤ off ∧ off < 0x200_0000) ∨ 0x280_0000 ≤ off := by
  simp [offUnmapped]

/-- An offset of the register range is unmapped in two ranges and nowhere else. -/
theorem localDest_unmapped_iff (off : Nat) (h : off < 0x400_0000) :
    localDest off = .unmapped ↔
      (0x120_0000 ≤ off ∧ off < 0x200_0000) ∨ (0x280_0000 ≤ off ∧ off < 0x400_0000) := by
  rw [localDest, if_pos h]
  by_cases hsram : 0x200_0000 ≤ off ∧ off < 0x280_0000
  · simp only [if_pos hsram, reduceCtorEq, false_iff]
    omega
  · simp only [if_neg hsram, ite_eq_left_iff, reduceCtorEq, imp_false, not_not, offUnmapped_iff]
    omega

/-- Settles O14: outside the windows a read and a write of an offset without a register reach only the flash controller's
turn; the unmapped ranges come from the address map. -/
theorem offsetWithoutRegister : Obligations.OffsetWithoutRegister := by
  unfold Obligations.OffsetWithoutRegister
  refine ⟨fun m off be v s hr ha _ hboard hcfg htop hidle => ?_, localDest_unmapped_iff⟩
  have hout : outsideWindows off.toNat := ⟨hboard, hcfg, htop⟩
  refine ⟨⟨_, exec_readClear_of_no_register m off s hr ha hout, State.startFlash_sent _, ?_⟩,
    ⟨_, exec_registerWrite_of_no_register m off be v s hr ha hout hidle, s.keeps_startFlash⟩⟩
  have hsent := State.keeps_of_subset (qs := [.cfg, .sent]) (by simp) (s.keeps_emit (.data m [0, 0, 0, 0]))
  exact State.keeps_trans hsent (State.keeps_of_subset (by simp) (State.keeps_startFlash _))

end Sys2Proof.Machine
end
